-- ==== Sys2Proof/Word.lean ====
section
/-! DEFINITION. The word types of the OL-8128 (32-bit registers, bytes of descriptors, messages and memory) and the plainest arithmetic on them. -/

namespace Sys2Proof

/-- One byte of a descriptor, record, message or scene-memory granule (R9). -/
abbrev Byte := BitVec 8

/-- One 32-bit register (R31). -/
abbrev Word := BitVec 32

/-- A sparse table: entries at strictly rising keys, none equal to what an unlisted key reads as. -/
abbrev Sparse (α : Type) := List (Nat × α)

/-- Bits `msb..lsb` of a number (R9: bit 0 is the least significant). -/
def bits (x msb lsb : Nat) : Nat := (x >>> lsb) % 2 ^ (msb + 1 - lsb)

/-- The number read as a two's complement value of `w` bits. -/
def toSigned (w x : Nat) : Int := if x % 2 ^ w < 2 ^ (w - 1) then (x % 2 ^ w : Nat) else (x % 2 ^ w : Nat) - (2 ^ w : Nat)

/-- The low `w` bits of a signed value. -/
def ofSigned (w : Nat) (x : Int) : Nat := (x % (2 ^ w : Nat)).toNat

/-- Division rounding up. -/
def ceilDiv (a b : Nat) : Nat := (a + b - 1) / b

/-- Little-endian number of a byte string (R9). -/
def leNat : List Byte → Nat
  | [] => 0
  | b :: bs => b.toNat + 256 * leNat bs

/-- The little-endian number in the `n` bytes from byte `off` (R9). -/
def leAt (bs : List Byte) (off n : Nat) : Nat := leNat ((bs.drop off).take n)

/-- `n` little-endian bytes of a number (R9). -/
def leBytes : Nat → Nat → List Byte
  | 0, _ => []
  | n + 1, x => BitVec.ofNat 8 x :: leBytes n (x / 256)

/-- Big-endian number of a byte string (network order of the time port's frames). -/
def beNat (bs : List Byte) : Nat := bs.foldl (fun a b => a * 256 + b.toNat) 0

/-- The big-endian number in the `n` bytes from byte `off`. -/
def beAt (bs : List Byte) (off n : Nat) : Nat := beNat ((bs.drop off).take n)

/-- `true` when every byte is 0 (reserved bytes, R92). -/
def allZero (bs : List Byte) : Bool := bs.all (· == 0)

end Sys2Proof
end

