-- ==== Sys2Proof/Syntax.lean ====
section
/-! DEFINITION. The commands the OL-8128 takes from outside: one constructor of `Instr` per row of spec/opcode_table.json. A command is one step of the table (95_what_each_step_holds.md): a register write, a ring command's processing, a message on a link, a pin or supply event, or a timed event of the device. Its operands hold what comes from outside the device (the writing host, the value written, bytes read from host memory, messages, samples); everything else is in State. -/

namespace Sys2Proof

/-- A 32-bit register write: the writing host, the value and the byte enables (R31). -/
structure RegWr where
  host : Fin 4
  val  : BitVec 32
  be   : BitVec 4
  deriving DecidableEq, Repr

/-- How a read of host memory by the device ends (Table 16.5). -/
inductive HostRead where
  /-- The bytes read. -/
  | data (bytes : List Byte)
  /-- Unsupported Request (0), Completer Abort (1), poison (2) or timeout (3). -/
  | fail (cause : Fin 4)
  deriving DecidableEq, Repr

/-- What the error code found in one read of scene memory: byte addresses (logical, of 16-byte words) corrected and uncorrectable. -/
structure Ecc where
  ce : List Nat
  ue : List Nat
  deriving DecidableEq, Repr

/-- A guard table entry found bad (R238): a context or a region entry, in one copy or in both. -/
structure GuardBad where
  region : Bool
  host   : Fin 4
  handle : BitVec 16
  both   : Bool
  deriving DecidableEq, Repr

/-- Upsets of the scan-out store while one line is read (R208) and of the veil stage (R239). -/
structure LineUpset where
  /-- Words changed in the store: column and the bits that flipped. -/
  flips : List (Nat × BitVec 32)
  /-- A word or the stored CRC has an uncorrectable SECDED error. -/
  uncorrectable : Bool
  /-- Corrected single-bit errors. -/
  corrected : Nat
  /-- The two veil computations disagree on some word of the line. -/
  veilDisagree : Bool
  /-- Guard entries found bad as they are read for the line. -/
  guard : List GuardBad
  deriving DecidableEq, Repr

/-- The four probes and queries of R46. -/
inductive Query where
  | probe | frs | domMap | cal
  deriving DecidableEq, Repr

/-- One temperature conversion (R522, R523): a reading in 1/16 degree, or its failure (0 open, 1 short, 2 timeout). -/
inductive Sample where
  | reading (t : BitVec 16)
  | failed (cause : Fin 3)
  deriving DecidableEq, Repr

/-- What a calibration run measured (R532): the band-gap deviation and the new trims by target and index. -/
structure CalResult where
  devPpm : BitVec 16
  trims  : List (Fin 4 × BitVec 9 × Int)
  deriving DecidableEq, Repr

/-- What forces HOLDOVER (R418). -/
inductive HoldCause where
  | noOffset | helmReset | linkDown | hold
  deriving DecidableEq, Repr

/-- A time port timestamp: 32 bits of nanoseconds and 16 of fraction (R424). -/
structure Timestamp where
  ns : BitVec 32
  fr : BitVec 16
  deriving DecidableEq, Repr

/-- A back-channel block: as decoded (R348, R351), a data block, a block of an uncorrectable codeword, one with a header that is invalid (R329) or a control block's 32 bytes; or as received (R331), block k of a codeword, by the PAM4 level codes of that codeword and of the one before it on the lane. -/
inductive BackBlock where
  | uncorrectable
  | dataBlock (bytes : List Byte)
  | badHeader
  | control (bytes : List Byte)
  | codeword (before levels : List (BitVec 2)) (k : Fin 15)
  deriving DecidableEq, Repr

/-- What reading a span's data found (R168, R176): the error code's findings in scene memory, and the parity errors of the cluster's and the quadrant's cache. -/
structure SpanFound where
  ecc : Ecc
  clusterPe : Nat
  quadPe : Nat
  deriving DecidableEq, Repr

/-- What a string's comparators and samplers give at a pulse's end: VSNS of the pulse (R378), and ISNS by the pulse's step (R370). -/
structure PulseReads where
  vsns : BitVec 10
  isns : List (Nat × BitVec 10)
  deriving DecidableEq, Repr

/-- A comparator of a string trips (R371): over-voltage or over-current, in pulse k of the subframe, at a step of it. -/
structure Trip where
  overVoltage : Bool
  k : Nat
  step : Nat
  deriving DecidableEq, Repr

/-- A block of the pair link and the lane on which it arrived. -/
structure LaneBlock where
  lane : Fin 4
  block : BackBlock
  deriving DecidableEq, Repr

/-- The role of a Beacon ball (R368; codes of R388). -/
inductive BallRole where
  | gate | dim | isns | vsns
  deriving DecidableEq, Repr

/-- A Beacon ball: zone, string and role (R368). -/
structure Ball where
  z : Fin 12
  s : Fin 8
  role : BallRole
  deriving DecidableEq, Repr

/-- The link errors of Table 16.5 that a host's requests cause. -/
inductive LinkError where
  | unsupported | tooLongRead | tooLongWrite | poisonedWrite | malformed | unexpected | memSpaceOff
  deriving DecidableEq, Repr

/-- A device request on a host link (R460): ring fetch, UPLOAD, READBACK, spill, log. -/
inductive Requester where
  | fetch (r : Fin 16)
  | upload (r : Fin 16) (n : BitVec 32)
  | readback
  | spill (g : Nat)
  | log
  deriving DecidableEq, Repr

/-- The outcome of a Watch test (R557, R560): pass, failure, or a reference that itself is bad; for a march over a spare frame the verdict follows from what the error code found in it (class 6, reader 6 of R304). -/
inductive WatchVerdict where
  | pass | fail | referenceBad
  | march (ecc : Ecc)
  deriving DecidableEq, Repr


/-- The commands of the block: one constructor per row of spec/opcode_table.json, in the table's order. -/
inductive Instr where
  /-- TX_BEGIN (R260): Opens a new transaction under a free handle, taking one open-transaction unit. -/
  | txBegin (h : Fin 4) (r : Fin 16)
  /-- TX_COMMIT (R261): Closes a transaction to CLOSING; it seals once its earlier commands have completed. -/
  | txCommit (h : Fin 4) (r : Fin 16)
  /-- TX_ABORT (R263): Rolls back an OPEN or CLOSING transaction, completing its uncompleted commands with ABORT_ROLLBACK. -/
  | txAbort (h : Fin 4) (r : Fin 16)
  /-- CTX_OPEN (R94): Creates a context with a staged age, or updates VEIL, BOUND and SHARED of an existing one. -/
  | ctxOpen (h : Fin 4) (r : Fin 16)
  /-- CTX_CLOSE (R98): Removes a context with all its layers and regions in the same commit. -/
  | ctxClose (h : Fin 4) (r : Fin 16)
  /-- LAYER_CREATE (R99): Creates a layer, allocating its zero-filled planes under quota. -/
  | layerCreate (h : Fin 4) (r : Fin 16)
  /-- ALLOCATION_RESUME (R279): A command waiting for FREE_ZERO granules proceeds once zeroing, reclaim or spill has made them available. -/
  | allocationResume (h : Fin 4) (ring : Option (Fin 16))
  /-- LAYER_DESTROY (R110): Destroys a layer; it leaves the scene at the cut, and its memory is reclaimed after its last subframe. -/
  | layerDestroy (h : Fin 4) (r : Fin 16)
  /-- LAYER_SET (R99): Changes the SET fields of a layer inside a transaction. -/
  | layerSet (h : Fin 4) (r : Fin 16)
  /-- LAYER_MOVE (R99): Changes the position and depth of a layer inside a transaction. -/
  | layerMove (h : Fin 4) (r : Fin 16)
  /-- UPLOAD (R251): Creates or extends an upload and issues the host-memory read of its bytes. -/
  | upload (h : Fin 4) (r : Fin 16)
  /-- UPLOAD_DONE (R251): The host read of an UPLOAD completes, and the command completes with OK or ERR_MEMORY. -/
  | uploadDone (h : Fin 4) (r : Fin 16) (n : BitVec 32) (reply : HostRead)
  /-- DECODE (R126): Checks a DECODE record and hands it to the codec group, which divides it into jobs. -/
  | decode (h : Fin 4) (r : Fin 16)
  /-- REGION_SET (R115): Creates or replaces a watch region inside a transaction. -/
  | regionSet (h : Fin 4) (r : Fin 16)
  /-- REGION_CLEAR (R114): Removes a watch region inside a transaction. -/
  | regionClear (h : Fin 4) (r : Fin 16)
  /-- FENCE (R256): Completes once earlier descriptors of its ring and of the masked rings have completed. -/
  | fence (h : Fin 4) (r : Fin 16)
  /-- MARK_FRESH (R228): Gives a context a staged age equal to the declared age plus the ticks since its doorbell stamp. -/
  | markFresh (h : Fin 4) (r : Fin 16)
  /-- SCHED_COMMIT (R205): Closes a transaction for sealing at a Sextant target, or seals it at once as LATE or rolls it back under SCHED_STRICT. -/
  | schedCommit (h : Fin 4) (r : Fin 16)
  /-- READBACK (R253): Writes a 64-byte result block describing an object, then its completion. -/
  | readback (h : Fin 4) (r : Fin 16)
  /-- NOP (R250): Completes at processing with OK. -/
  | nop (h : Fin 4) (r : Fin 16)
  /-- RING_TAIL (R246): A doorbell write publishes descriptors and takes a Sextant stamp, or is refused as DOORBELL. -/
  | ringTail (h : Fin 4) (r : Fin 16) (a : RegWr)
  /-- DESCRIPTOR_FETCH (R248): A fetch read of up to 64 descriptors completes under the host-service arbiter. -/
  | descriptorFetch (h : Fin 4) (r : Fin 16) (reply : HostRead)
  /-- RUN (R270): Writing RING_CTRL.RUN to 1 starts fetching, clears HALTED and writes held completions first. -/
  | ringRun (h : Fin 4) (r : Fin 16) (a : RegWr)
  /-- DISCARD (R270): Drops held completions and empties the ring. -/
  | ringDiscard (h : Fin 4) (r : Fin 16) (a : RegWr)
  /-- OVERLOAD (R268): At the end of each 100-tick window the backlog growth is judged, and OVERLOAD is latched after enough growing windows. -/
  | cmdOverload
  /-- SEAL (R261): A closed transaction seals once its commands, decodes and 2D operations have completed and its layers are resident, and takes a sequencer position. -/
  | seal (h : Fin 4) (t : Fin 256)
  /-- SCHED_SEAL (R205): A scheduled transaction seals when Sextant time reaches its TARGET. -/
  | schedSeal (h : Fin 4) (t : Fin 256)
  /-- JOB_DISPATCH (R149): The codec group dispatches a waiting job of up to 32 tiles to a free permitted engine. -/
  | jobDispatch (e : Fin 16)
  /-- JOB_DONE (R147): An engine finishes decoding or filling the tiles of a job. -/
  | jobDone (e : Fin 16) (ecc : Ecc)
  /-- SELF_CHECK (R157): A parity error in an engine's tile buffer requeues its job and makes the engine FAULT. -/
  | selfCheck (e : Fin 16)
  /-- ENGINE_LEAVE_RELEASE (R153): An engine idle for 10 µs releases its leave, and the group releases its own when no engine holds any. -/
  | engineLeaveRelease (e : Fin 16)
  /-- COMMIT_CUT (R204): At slot 7's start the device applies a sealed configuration transaction and then every preceding sealed scene transaction in sequencer order. -/
  | commitCut
  /-- SUBFRAME_START (R194): At each subframe start the buffers change roles, j advances and the subframe's state is fixed. -/
  | subframeStart
  /-- TEMP_LOST (R213): No valid panel temperature report for 1,000 ms keeps the band and sets TEMP_LOST. -/
  | tempLost
  /-- LINE_SCANOUT (R20): The scan-out engine reads, checks, overdrives, dithers, veils and sends one line on both ports. -/
  | lineScanout (y : BitVec 16) (u : LineUpset)
  /-- SPAN_DONE (R174): A cluster finishes a 128-pixel span, and the quadrant hands the next span to a free cluster. -/
  | spanDone (c : Fin 68) (found : SpanFound)
  /-- STALL (R177): A span unfinished after 64 µs is abandoned and reissued. -/
  | spanStall (c : Fin 68)
  /-- DATAPATH (R177): A residue or parity error in a cell abandons the span for reissue. -/
  | spanDatapath (c : Fin 68) (k : Fin 4) (permanent : Bool)
  /-- AUTOCAP (R181): Writing 1 ends the AUTOCAP limits at the next cut. -/
  | sprAutocap (a : RegWr)
  /-- FRESHNESS_TICK (R224): Each millisecond of the elapsed-time accumulator raises every AGE and staged age by 1. -/
  | freshnessTick
  /-- TICK_LOST (R225): No Sextant tick for 1.05 ms makes the guard issue its own tick and switch to local ticks. -/
  | tickLost
  /-- LOCAL_TICK (R225): While ticking locally, the guard issues a tick every 156,250 always-on ticks. -/
  | localTick
  /-- GUARD_COPY_CHECK (R238): The guard checks both copies of its tables once per frame, repairing or veiling. -/
  | guardCopyCheck (bad : List GuardBad)
  /-- COMPASS_COPY_CHECK (R87): The Compass checks both copies of its live geometry once per frame. -/
  | compassCopyCheck (bad : List (BitVec 12 × BitVec 2))
  /-- CFG_OPEN (R48): Opens the single configuration transaction for the writing host. -/
  | cfgOpen (a : RegWr)
  /-- CFG_COMMIT (R586): Seals the configuration transaction after every check of the seal, or discards it. -/
  | cfgCommit (a : RegWr)
  /-- CFG_ABORT (R50): Discards the open configuration transaction with ABORT_ROLLBACK. -/
  | cfgAbort (a : RegWr)
  /-- RWS_WRITE (R49): A write to a staged register goes to the staged copy of the holder's transaction, or is refused. -/
  | rwsWrite (page : BitVec 10) (off : BitVec 12) (a : RegWr)
  /-- CMP_PROBE_XY (R68): Starts a Compass probe for one subpixel. -/
  | cmpProbeXy (a : RegWr)
  /-- FRS_QUERY (R244): Starts a query of one context's age and bound. -/
  | frsQuery (a : RegWr)
  /-- DOM_MAP_QUERY (R303): Starts a query of the frame carrying one logical page. -/
  | domMapQuery (a : RegWr)
  /-- CAL_QUERY (R46): Starts a query of one calibration trim. -/
  | calQuery (a : RegWr)
  /-- QUERY_RESULT (R46): A probe or query result becomes ready in the host's copy and VALID is set. -/
  | queryResult (h : Fin 4) (q : Query)
  /-- REGISTER_WRITE (R31): A write to a register with no behaviour of its own, checked for access rights and reserved encodings. -/
  | registerWrite (page : BitVec 10) (off : BitVec 12) (a : RegWr)
  /-- RC_READ (R32): A full-width read of an RC counter returns and clears it. -/
  | rcRead (h : Fin 4) (page : BitVec 10) (off : BitVec 12) (be : BitVec 4)
  /-- UNIT_EVENT_CLEAR (R56): A write to UNIT_EVENT clears W1C bits and re-sends a message if an enabled event remains. -/
  | unitEventClear (page : BitVec 10) (a : RegWr)
  /-- UNIT_FAULT_CLEAR (R57): Clearing UNIT_FAULT.VALID clears CODE and re-arms the latch. -/
  | unitFaultClear (page : BitVec 10) (a : RegWr)
  /-- COMPASS_UNIT_RESET (R88): Re-checks both geometry copies and completes at the next cut. -/
  | compassUnitReset (a : RegWr)
  /-- GUARD_UNIT_RESET (R240): Re-checks the guard tables, discards double-bad regions and tests the veil stage by the next slot 0. -/
  | guardUnitReset (a : RegWr) (testOk : Bool)
  /-- SPIRE_UNIT_RESET (R184): Withdraws a cluster and reissues its spans, or resets a quadrant or the array at the next cut. -/
  | spireUnitReset (page : BitVec 10) (a : RegWr)
  /-- SCO_UNIT_RESET (R220): Sends dark subframes up to the next slot 0. -/
  | scoUnitReset (a : RegWr)
  /-- PORT_UNIT_RESET (R366): Ends a port's service at the next subframe start and brings it up anew. -/
  | portUnitReset (p : Fin 2) (a : RegWr)
  /-- LANE_UNIT_RESET (R367): Starts retraining of a FAULT or working lane. -/
  | laneUnitReset (l : Fin 44) (a : RegWr)
  /-- ZONE_UNIT_RESET (R385): Drives a zone's GATE and DIM low and restarts it. -/
  | zoneUnitReset (z : Fin 12) (a : RegWr)
  /-- BELFRY_UNIT_RESET (R405): Discharges the glass, re-checks both banks and restarts the Belfry. -/
  | belfryUnitReset (a : RegWr)
  /-- DOM_UNIT_RESET (R303): Completes within 256 ticks and changes nothing. -/
  | domUnitReset (page : BitVec 10) (a : RegWr)
  /-- THM_UNIT_RESET (R536): Re-tests every temperature sensor. -/
  | thmUnitReset (a : RegWr) (retest : List Sample)
  /-- CAL_UNIT_RESET (R534): Abandons a calibration run with ABORT_RESET. -/
  | calUnitReset (a : RegWr)
  /-- SXT_UNIT_RESET (R434): Leaves the Sextant running and retrains the time port link. -/
  | sxtUnitReset (a : RegWr)
  /-- TWD_UNIT_RESET (R322): Stops the 2D operation at once and rolls its transaction back. -/
  | twdUnitReset (h : Fin 4) (a : RegWr)
  /-- COMPASS_ENABLE (R85): Switches flat rendering on or off from the next cut. -/
  | compassEnable (a : RegWr)
  /-- PORT_ENABLE (R347): Requests leave and brings a panel port out of electrical idle, or ends its service. -/
  | portEnable (p : Fin 2) (a : RegWr)
  /-- LANE_ENABLE (R367): Withdraws a lane as a loss, or starts its retraining. -/
  | laneEnable (l : Fin 44) (a : RegWr)
  /-- BEACON_ENABLE (R376): Starts the zones one at a time, or drives every GATE and DIM low. -/
  | beaconEnable (a : RegWr)
  /-- ZONE_ENABLE (R385): Enables a zone, or drives its balls low. -/
  | zoneEnable (z : Fin 12) (a : RegWr)
  /-- STRING_ENABLE (R377): Starts a string with its own soft start, or stops it. -/
  | stringEnable (z : Fin 12) (s : Fin 8) (a : RegWr)
  /-- BELFRY_ENABLE (R404): Ramps V_OP and starts cycles, or completes the cycle and discharges the glass. -/
  | belfryEnable (a : RegWr)
  /-- PAIR_ENABLE (R486): Requests leave and trains the pair lanes, or sends DOWN and idles them. -/
  | pairEnable (a : RegWr)
  /-- TIME_PORT_ENABLE (R421): Requests leave and trains the time port. -/
  | timePortEnable (a : RegWr)
  /-- CLUSTER_ENABLE (R185): Withdraws or returns a cluster from the next subframe start. -/
  | clusterEnable (c : Fin 68) (a : RegWr)
  /-- ENGINE_ENABLE (R157): Removes or returns a codec engine from dispatch. -/
  | engineEnable (e : Fin 16) (a : RegWr)
  /-- CODEC_ENABLE (R156): Stops or resumes dispatch of codec jobs. -/
  | codecEnable (a : RegWr)
  /-- CMD_ENABLE (R272): Stops or resumes fetching from every ring of the host. -/
  | cmdEnable (h : Fin 4) (a : RegWr)
  /-- QUOTA_WRITE (R121): The owner host writes a LIMIT or RESERVE, accepted only within the totals. -/
  | quotaWrite (h : Fin 4) (off : BitVec 12) (a : RegWr)
  /-- LEAVE_GRANT (R496): The oldest waiting leave request is granted once it fits the effective budget. -/
  | leaveGrant
  /-- ADM_BUDGET (R495): The owner host sets the admission budget. -/
  | admBudget (a : RegWr)
  /-- WARN (R489): A rail in warning for 2 samples holds the admission grants and is recorded. -/
  | railWarn (r : Fin 8) (m1 m2 : BitVec 16)
  /-- RECOVER (R488): A rail leaves warning after 2 samples above its level. -/
  | railRecover (r : Fin 8) (m1 m2 : BitVec 16)
  /-- HOLDOFF_END (R27): One millisecond after recovery, the admission unit resumes grants. -/
  | holdoffEnd
  /-- OVERVOLT (R491): A rail at over-voltage sets OV and logs a fault. -/
  | overvolt (r : Fin 8) (mv : BitVec 16)
  /-- VHOLD_LOW (R491): VHOLD below 11.0 V sets VHOLD_LOW and logs a fault. -/
  | vholdLow (mv : BitVec 16)
  /-- RAIL_RESET_LEVEL (R490): A rail at its reset level for 4 samples starts the dark sequence. -/
  | railResetLevel (r : Fin 8) (m1 m2 m3 m4 : BitVec 16)
  /-- VIN_TRIGGER (R488): VIN at or below 10.8 V for 2 samples starts the dark sequence. -/
  | vinTrigger (m1 m2 : BitVec 16)
  /-- PWRFAIL_N (R510): PWRFAIL_N low starts the dark sequence. -/
  | pwrfailN (level : Bool)
  /-- DARK_SEQUENCE_END (R510): At 250 µs every domain but the always-on island is off, lanes are idle, and a thermal shutdown latches. -/
  | darkSequenceEnd
  /-- REF_LOST (R500): REFCLK absent for 1 µs moves to the internal oscillator and starts the dark sequence. -/
  | refLost
  /-- RESET_N (R502): RESET_N low for 1 µs starts the dark sequence and holds cold reset. -/
  | resetN (level : Bool)
  /-- POR_N (R503): POR_N low holds cold reset, running the dark sequence first if the device runs. -/
  | porN (level : Bool)
  /-- COLD_RELEASE (R505): After 10 ms of good conditions the cold release starts at step 0 and samples the straps. -/
  | coldRelease (bifurStrap sbAddr : BitVec 2)
  /-- RELEASE_STEP (R505): After its gap, a release step releases its units as their clock-goods arrive. -/
  | releaseStep (good : BitVec 214)
  /-- NO_CLOCK (R505): A clock-good missing at its timeout leaves the unit in reset as NO_CLOCK. -/
  | noClock (page : BitVec 10) (dom : BitVec 8)
  /-- RESET_OUT_RELEASE (R507): RESET_OUT_N goes high 10 ms after step 8 or after a warm reset completes. -/
  | resetOutRelease
  /-- WARM_N (R502): A falling edge of WARM_N starts a warm reset. -/
  | warmN (level : Bool)
  /-- WARM (R518): The owner host requests a warm reset through RST_CTRL.WARM. -/
  | rstWarm (a : RegWr)
  /-- WARM_DONE (R508): The hardware part of the warm reset completes after its release steps. -/
  | warmDone
  /-- WDOG_EXPIRY (R504): Watchdog expiry causes a warm reset, or a cold reset on the third within 10 s. -/
  | wdogExpiry
  /-- RST_WDOG_KICK (R504): Helm restarts the watchdog with the key. -/
  | rstWdogKick (by_ : Option (Fin 4)) (v : BitVec 32)
  /-- CG_LOST (R499): A falling clock-good makes its unit FAULT. -/
  | cgLost (dom : BitVec 8)
  /-- CLK_MEAS_SEL (R519): Starts a 1 ms frequency count of a clock domain. -/
  | clkMeasSel (a : RegWr)
  /-- CLK_MEAS_DONE (R519): The frequency count ends, and CLK_MEAS becomes valid. -/
  | clkMeasDone (khz : BitVec 24)
  /-- MIN_RESET (R517): Loads every rail minimum with its latest sample. -/
  | minReset (a : RegWr)
  /-- THERMAL_SAMPLE (R522): All 64 sensors are sampled, and zone levels and shutdown are judged. -/
  | thermalSample (samples : List Sample)
  /-- THM_THR_WRITE (R527): The owner host writes throttle thresholds, restarting the zone counts. -/
  | thmThrWrite (stack : Bool) (a : RegWr)
  /-- CAL_START (R531): The owner host starts a calibration run. -/
  | calStart (a : RegWr)
  /-- CAL_DONE (R532): A calibration run ends, applying its new trims together unless DRY_RUN or an error applies. -/
  | calDone (m : CalResult)
  /-- WRAP (R408): SXT_NOW wraps, and SXT_WRAPS increments. -/
  | sxtWrap
  /-- SXT_INC_HI (R410): Makes both increment halves live from the next tick. -/
  | sxtIncHi (a : RegWr)
  /-- SXT_ADJ (R411): Starts or replaces a slew of the Sextant time. -/
  | sxtAdj (a : RegWr)
  /-- SLEW_END (R411): The last tick of a slew adds the exact remainder. -/
  | slewEnd
  /-- SET (R412): Requests a load of the Sextant time at the next subframe start. -/
  | sxtSet (a : RegWr)
  /-- SET_APPLIED (R432): E is loaded at a subframe start, waiting targets are re-judged, and the device returns to the wall timeline. -/
  | setApplied
  /-- SNAP (R413): Copies SXT_NOW, SXT_FRAC and SXT_WRAPS from one tick. -/
  | sxtSnap (a : RegWr)
  /-- HOLD (R418): Forces or releases Sextant HOLDOVER. -/
  | sxtHold (a : RegWr)
  /-- LOCKED (R418): Sixteen offsets within the lock window move the Sextant to LOCKED. -/
  | sxtLocked (offsets : List Int)
  /-- HOLDOVER (R418): No valid offset for 4 s, or a Helm reset or link loss, forces HOLDOVER. -/
  | sxtHoldover (why : HoldCause)
  /-- ACT_ARM (R429): Arms an action timer, firing it at once if its target is past. -/
  | actArm (n : Fin 4) (a : RegWr)
  /-- ACT_DONE (R429): An action timer reaches its target and performs its GPIO action. -/
  | actDone (n : Fin 4)
  /-- ACT_PULSE_END (R431): A timer pulse of WIDTH ends, and the GPIO returns to its previous level. -/
  | actPulseEnd (n : Fin 4)
  /-- CAPTURE (R430): A selected GPIO edge records SXT_NOW in CAP_TIME. -/
  | gpioCapture (m : Fin 2) (rising : Bool)
  /-- GPIO_CFG (R431): Selects a GPIO ball's function and level. -/
  | gpioCfg (n : Fin 16) (a : RegWr)
  /-- PTP_RX (R424): A received PTP frame is accepted and timestamped, or dropped as malformed. -/
  | ptpRx (frame : List Byte) (mac : Timestamp)
  /-- ETH_OTHER (R423): A frame not for the device, with a bad FCS or arriving while Helm is in reset is dropped and counted. -/
  | ethOther (frame : List Byte) (fcsOk : Bool)
  /-- PTP_TX (R425): A PTP event frame is sent and timestamped, with one-step correction inserted. -/
  | ptpTx (frame : List Byte) (base mac : Timestamp)
  /-- WALL_STATUS_RX (R428): A received wall-status message is counted and checked for an epoch mismatch. -/
  | wallStatusRx (frame : List Byte)
  /-- TIME_LINK_UP (R435): The time port link comes up. -/
  | timeLinkUp
  /-- TIME_LINK_DOWN (R435): The time port link goes down. -/
  | timeLinkDown
  /-- STATUS (R353): A back-channel STATUS message updates lock, temperature and lane health. -/
  | bcStatus (p : Fin 2) (bc : Fin 2) (msg : BackBlock)
  /-- HEALTH (R353): A HEALTH message updates per-lane error counts and may take a lane out of service. -/
  | bcHealth (p : Fin 2) (bc : Fin 2) (msg : BackBlock)
  /-- CRC_REPORT (R352): The panel's TSIG report is compared with the device's. -/
  | crcReport (p : Fin 2) (bc : Fin 2) (msg : BackBlock)
  /-- LANE_LOSS (R353): The panel reports a lane leaving LOCKED, and the device takes it out of service. -/
  | laneLoss (p : Fin 2) (bc : Fin 2) (msg : BackBlock)
  /-- LOOP_RESULT (R348): The panel reports pattern errors of a far-end loop. -/
  | loopResult (p : Fin 2) (bc : Fin 2) (msg : BackBlock)
  /-- RX_LANE_LOCKED (R341): A back-channel or pair receive lane reaches LOCKED. -/
  | rxLaneLocked (l : Fin 44)
  /-- LOCK_LOSS (R341): A receive lane leaves LOCKED on 16 invalid headers out of 64. -/
  | lockLoss (l : Fin 44)
  /-- RETRAIN_PASS (R357): A retraining lane completes 64 consecutive locked reports and becomes a spare. -/
  | retrainPass (l : Fin 44)
  /-- RETRAIN_FAIL (R357): No run of 64 within 500 ms returns the lane to FAULT, or RETIRED on its third failure. -/
  | retrainFail (l : Fin 44)
  /-- LINK_DARK (R365): Makes both ports send LINK_DARK, or resumes lines from the next slot 0. -/
  | linkDark (a : RegWr)
  /-- LOOP (R364): Starts or stops a loop and pattern on an eligible lane, sending LOOP blocks. -/
  | lnkLoop (l : Fin 44) (a : RegWr)
  /-- OD_DATA (R214): Writes one overdrive node of the bank not in force and advances the address. -/
  | odData (a : RegWr)
  /-- LIGHT_WINDOW_OPEN (R373): At a zone's window, the strings of direction group s fire their planned pulses. -/
  | lightWindowOpen (z : Fin 12)
  /-- PULSE_END (R378): A pulse of at least 2 µs ends and gives an open, short or pass verdict. -/
  | pulseEnd (z : Fin 12) (s : Fin 8) (len : Nat) (rise : Option (BitVec 12)) (reads : PulseReads)
  /-- TRIP (R371): ISNS at ITH_OC or VSNS at VOV ends the pulse within 20 ns. -/
  | strTrip (z : Fin 12) (s : Fin 8) (trip : Trip)
  /-- UNVERIFIED (R380): A string with no verdict for 64 lit frames becomes UNVERIFIED. -/
  | strUnverified (z : Fin 12) (s : Fin 8)
  /-- STARTED (R376): A zone's soft start ends after frame 8, releasing its leave. -/
  | zoneStarted (z : Fin 12)
  /-- NEIGHBOUR_PIN_TEST (R382): One ball-pair short test completes, faulting strings on a short. -/
  | neighbourPinTest (a b : Ball) (short : Bool)
  /-- REARM (R384): Retests a faulted string's ball pairs and restarts it. -/
  | strRearm (z : Fin 12) (s : Fin 8) (a : RegWr)
  /-- CYCLE_START (R393): A Belfry multiplex cycle starts, applying swaps, bands, maps, V_OP and guard cells. -/
  | cycleStart
  /-- BLF_BANK_SWAP (R395): Requests a bank change decided at the next cycle start. -/
  | blfBankSwap (a : RegWr)
  /-- BLF_TEMP (R401): Software reports a temperature for the Belfry. -/
  | blfTemp (a : RegWr)
  /-- VLCD_LOW (R403): VLCD below V_OP plus 0.2 V sets VLCD_LOW. -/
  | vlcdLow (mv : BitVec 16)
  /-- DISCHARGE_END (R404): After 100 µs joined, the electrodes are driven to V0. -/
  | dischargeEnd
  /-- HEARTBEAT (R473): A partner heartbeat updates skew, lock and the configuration comparison. -/
  | parHeartbeat (blk : LaneBlock)
  /-- SIGNATURE (R477): A partner RSIG is compared with the device's own, driving DIVERGED or SYNC. -/
  | parSignature (blk : LaneBlock)
  /-- YIELD (R483): The active partner yields its role at a named J. -/
  | parYield (blk : LaneBlock)
  /-- SWAP_REQ (R482): The partner requests a role swap at a named J. -/
  | swapReq (blk : LaneBlock)
  /-- SWAP_ACK (R482): The partner confirms a role swap. -/
  | swapAck (blk : LaneBlock)
  /-- HELLO (R472): The first message after pair link up gives identity and starts the latency measurement. -/
  | parHello (blk : LaneBlock)
  /-- DOWN (R479): The partner announces it is going down, and the standby takes over. -/
  | parDown (blk : LaneBlock)
  /-- ACK (R468): Frees acknowledged messages from the replay buffer. -/
  | parAck (blk : LaneBlock)
  /-- NAK (R468): Resends messages from the SEQ named. -/
  | parNak (blk : LaneBlock)
  /-- MAP (R469): Restripes the pair link over the named lanes. -/
  | parMap (blk : LaneBlock)
  /-- PAIR_LINK_RESET (R471): Violations, retries or lane loss reset the pair link and restart it with HELLO. -/
  | pairLinkReset (cause : Fin 3)
  /-- PARTNER_LOST (R479): At HB_WAIT with no heartbeat or ALIVE edge, the standby takes over or enters PARTITION. -/
  | partnerLost
  /-- ALIVE_IN (R474): An ALIVE_IN edge from the partner is noted. -/
  | aliveIn (level : Bool)
  /-- PAR_CMD_SWAP (R482): The owner host requests a role swap three subframes ahead. -/
  | parCmdSwap (a : RegWr)
  /-- DL_DOWN (R455): Link down of host h causes a link reset. -/
  | dlDown (h : Fin 4)
  /-- HOT_RESET (R455): A Hot Reset on link h causes a link reset. -/
  | hotReset (h : Fin 4)
  /-- FLR (R455): A Function Level Reset causes a link reset with the link kept up. -/
  | flr (h : Fin 4)
  /-- HST_UNIT_RESET (R455): A unit reset of the HST page causes a link reset. -/
  | hstUnitReset (h : Fin 4) (a : RegWr)
  /-- LINK_RESET_DONE (R456): The link reset completes within 100 µs. -/
  | linkResetDone (h : Fin 4)
  /-- LINK_UP (R460): Host link h comes up. -/
  | linkUp (h : Fin 4) (speed : Fin 8) (width : Fin 17) (flit : Bool)
  /-- BAR2_READ (R300): A BAR2 read returns object bytes, or misses and starts a page-in. -/
  | bar2Read (h : Fin 4) (off : BitVec 28) (len : Nat) (ecc : Ecc)
  /-- BAR2_WRITE (R298): A BAR2 write stores into a permitted upload, or is ignored. -/
  | bar2Write (h : Fin 4) (off : BitVec 28) (data : List Byte) (poisoned : Bool)
  /-- TLP_ERROR (R453): A bad, unsupported or oversize request is answered and logged as violation LINK. -/
  | tlpError (h : Fin 4) (e : LinkError) (aer : Byte) (hdr : List Byte)
  /-- COMPLETION_TIMEOUT (R453): A device read that times out is treated as a UR completion. -/
  | completionTimeout (h : Fin 4) (who : Requester)
  /-- BUS_MASTER_ENABLE (R451): Clearing or setting Bus Master Enable stops or resumes requests on the link. -/
  | busMasterEnable (h : Fin 4) (on : Bool)
  /-- D3HOT (R451): Entering or leaving D3hot stops or resumes requests on the link. -/
  | d3hot (h : Fin 4) (on : Bool)
  /-- MSIX_UNMASK (R445): Unmasking sends one message per pending bit. -/
  | msixUnmask (h : Fin 4) (vec : BitVec 8)
  /-- LOG_WRITE (R449): A queued log entry is written to its ring once room exists. -/
  | logWrite (h : Fin 4) (viol : Bool)
  /-- LOG_ENABLE (R448): Enabling a log restarts its sequence numbering. -/
  | logEnable (h : Fin 4) (viol : Bool) (a : RegWr)
  /-- SPILL (R284): With few free granules, the Dome spills unpinned granules to host memory. -/
  | spill
  /-- PAGE_IN (R286): A spilled granule is paged in and CRC-checked. -/
  | pageIn (g : Nat) (reply : HostRead)
  /-- SCRUB_BURST (R292): A patrol scrub reads one frame and writes back corrected words. -/
  | scrubBurst (ecc : Ecc)
  /-- RETIRE (R293): A frame's retirement copy completes, and the map switches at the next subframe start. -/
  | retire
  /-- STACK_DOWN (R295): A stack that stops answering becomes FAULT. -/
  | stackDown (s : Fin 8)
  /-- ZERO_FILL (R278): A FREE_DIRTY granule is zeroed in the background and becomes FREE_ZERO. -/
  | zeroFill (g : Nat)
  /-- DOM_WIN_OBJ (R299): Host h names a permitted object for a BAR2 window. -/
  | domWinObj (h : Fin 4) (w : Fin 8) (a : RegWr)
  /-- WATCH_TEST_START (R557): At its period, the Watch takes the next unit of a class for test. -/
  | watchTestStart (cls : Fin 7) (target : Nat)
  /-- WATCH_TEST_END (R557): A Watch test ends with a verdict and repairs on failure. -/
  | watchTestEnd (verdict : WatchVerdict)
  /-- SWEEP_DONE (R559): The Watch finishes sweeping every active cluster after an abort run. -/
  | sweepDone (failed : List (Fin 68))
  /-- FILL (R312): GO with OP FILL checks and starts a fill of a rectangle. -/
  | twdFill (h : Fin 4) (a : RegWr)
  /-- COPY (R313): GO with OP COPY checks and starts a rectangle copy. -/
  | twdCopy (h : Fin 4) (a : RegWr)
  /-- EXPAND (R315): GO with OP EXPAND checks and starts a glyph expansion. -/
  | twdExpand (h : Fin 4) (a : RegWr)
  /-- TWD_WRITE_START (R319): A 2D operation begins writing once order, leave and memory waits end. -/
  | twdWriteStart (h : Fin 4)
  /-- TWD_DONE (R321): A 2D operation completes, writing status, tag and time. -/
  | twdDone (h : Fin 4) (ecc : Ecc)
  /-- TWD_SELF_CHECK (R326): A parity or residue error stops the operation and faults the engine. -/
  | twdSelfCheck (h : Fin 4)
  /-- GET_INFO (R552): Mailbox command returning firmware version, SVN and slot states. -/
  | getInfo (h : Fin 4) (a : RegWr)
  /-- FW_STAGE (R545): Starts reading and checking a firmware image into the free slot. -/
  | fwStage (h : Fin 4) (a : RegWr)
  /-- MBX_DONE (R552): A mailbox command that took time completes with STATUS and INFO. -/
  | mbxDone (h : Fin 4) (reply : HostRead)
  /-- FW_ACTIVATE (R547): Marks the staged slot PENDING, optionally with a warm reset. -/
  | fwActivate (h : Fin 4) (a : RegWr)
  /-- FW_CONFIRM (R548): Makes the trial slot ACTIVE and raises FW_SVN. -/
  | fwConfirm (h : Fin 4) (a : RegWr)
  /-- FW_DISCARD (R552): Empties the staged slot. -/
  | fwDiscard (h : Fin 4) (a : RegWr)
  /-- MR_EXTEND (R540): Extends measurement register MRm with a 64-byte value. -/
  | mrExtend (h : Fin 4) (a : RegWr)
  /-- PROVISION (R542): Stores a pending provisioning record and locks the debug port. -/
  | provision (h : Fin 4) (a : RegWr)
  /-- DEPROVISION (R543): Marks the provisioning record for removal at the next cold reset. -/
  | deprovision (h : Fin 4) (a : RegWr)
  /-- FIRMWARE_BOOT (R547): Helm's ROM checks and boots the pending, trial or active slot. -/
  | firmwareBoot
  /-- FW_VAL_UPDATE (R551): Firmware writes the annunciator bits every 100 ms. -/
  | fwValUpdate
  /-- GET_ID (R554): Krydo request answered with an ID message. -/
  | getId (h : Fin 4) (msg : List Byte)
  /-- GET_CHAIN (R556): Krydo request answered with part of the certificate chain. -/
  | getChain (h : Fin 4) (msg : List Byte)
  /-- GET_MEAS (R555): Krydo request answered with signed measurement registers. -/
  | getMeas (h : Fin 4) (msg : List Byte)
  /-- DOE_ABORT (R459): The host clears a DOE error and any object in progress. -/
  | doeAbort (h : Fin 4)
  /-- SIDEBAND_READ (R574): A sideband transaction reads one register as the owner sees it, without side effects. -/
  | sidebandRead (page : BitVec 10) (off : BitVec 12)
  /-- VAON_REMOVED (R512): VAON below 0.50 V with VHOLD below 6.0 V unpowers the always-on island, clearing THM_LATCH and every retained field. -/
  | vaonRemoved
  /-- CLOSED_INTERVAL (R381): At a zone's closed interval, a diagnostic pulse fires, or a standby device's diagnostic pulse fires at the interval's start. -/
  | closedInterval (z : Fin 12)
  /-- ENGINE_UNIT_RESET (R155): A unit reset of a codec engine page returns its current job to the front of the queue and restarts the engine. -/
  | engineUnitReset (e : Fin 16) (a : RegWr)
  /-- CMD_UNIT_RESET (R269): A unit reset of host h's CMD or TXN page rolls back h's open transactions, holds completions pending and stops h's rings, as in Table 9.8. -/
  | cmdUnitReset (h : Fin 4) (txnPage : Bool) (a : RegWr)
  /-- PAR_VIOL (R470): A pair-link block of reserved TYPE, with a nonzero reserved byte or a bad CRC, is answered with NAK and counted. -/
  | parViol (blk : LaneBlock)
  /-- DOE_DISCOVERY (R458): A DOE Discovery request, or a request naming an unsupported protocol, receives its response on the host's mailbox. -/
  | doeDiscovery (h : Fin 4) (msg : List Byte)
  /-- OVERVOLT_CLEAR (R516): A rail sample below its over-voltage level clears OV, and the PWR page leaves FAULT. -/
  | overvoltClear (r : Fin 8) (mv : BitVec 16)
  deriving DecidableEq, Repr

end Sys2Proof
end

