-- ==== Sys2Proof/Decode.lean ====
section
/-! DEFINITION. Table words. spec/opcode_table.json gives none of its 228 rows any bits: every row's list of fields is empty, because the commands are register writes, ring descriptors, link messages, pin events and timed events, not words of one encoding. Descriptors and messages are parsed where they are processed. -/

namespace Sys2Proof

/-- The command that a word of `nbits` bits spells by the table's bits: none for any word, since no row has bits. -/
def decodeTableWord (nbits w : Nat) : Option Instr :=
  match nbits, w with
  | _, _ => none

end Sys2Proof
end

