-- ==== Sys2Proof/Config.lean ====
section
/-! DEFINITION. What the spec leaves open: free values without a body. Nothing in Lean can evaluate one, so a statement about a free value holds whatever it is. Each is applied to the model's own counter `Base.fresh` or to the operands it depends on. -/

namespace Sys2Proof.Config

/-- A byte whose value the spec leaves undefined: the content of an upload whose read failed (R251). -/
opaque freeByte : Nat → Byte

/-- What a read of scene memory that no row's operand tells of (a spill's, a retirement copy's) finds in its 16-byte words: addresses corrected and uncorrectable. Errors come from the memory cells, not from the block. -/
opaque freeErrors : Nat → List Nat × List Nat

/-- A measured quantity whose value the spec does not fix: MiB counts of a subframe, engine clocks spent, time port measurements. -/
opaque freeNat : Nat → Nat

/-- What a live measurement reads that the spec does not fix (memory traffic, adapted equalizer settings): register key and an instant of the device. -/
opaque freeReading : Nat → Nat → Nat

/-- The serial number given at manufacture (R537). -/
opaque serial : BitVec 64

/-- The certificate chain (R539). -/
opaque chain : List Byte

/-- The SHA3-512 digest of the boot ROM that MR0 covers (R540). -/
opaque romDigest : List Byte

/-- The fused digest of the firmware public key (R537). -/
opaque keyDigest : List Byte

/-- The ML-DSA-87 signature that the device key makes over a message (R555): an algorithm the spec names and does not give. -/
opaque signature : List Byte → List Byte

/-- Whether a signature over a message verifies under an ML-DSA-87 public key (R545): key, message, signature. -/
opaque verifies : List Byte → List Byte → List Byte → Bool

end Sys2Proof.Config
end

