-- ==== Sys2Proof/Machine/RegTable.lean ====
section
/-! DEFINITION. The register tables of the spec: for every unit class its registers with offset, fields, access codes, cold and warm values and reserved encodings (R34, Tables 2.1 to 2.3, 2.7 and the register table of every chapter), the page index (Table 2.6), the cold value of every register, and the names of the registers' keys and fields. A register's key is page × 4096 + offset. -/

namespace Sys2Proof.Machine

/-- Access codes of Table 2.1. -/
inductive Acc where
  | ro | rw | wo | w1c | w1s | rws | rc
  deriving DecidableEq, Repr

/-- The Warm column (R34): kept, live, or the value a warm reset loads. -/
inductive Warm where
  | kept | live | val (n : Nat)
  deriving DecidableEq, Repr

/-- One field of a register: its place, access code, cold value, warm behaviour, and the ranges of its encodings that are not reserved (an empty list: none is reserved, R12). -/
structure Fld where
  name  : String
  msb   : Nat
  lsb   : Nat
  acc   : Acc
  cold  : Nat
  warm  : Warm
  legal : List (Nat × Nat)
  deriving DecidableEq, Repr

/-- One register or array of registers: the first offset, two strides with counts, and the fields. -/
structure RegDesc where
  name : String
  off  : Nat
  s1   : Nat
  n1   : Nat
  s2   : Nat
  n2   : Nat
  flds : List Fld
  deriving DecidableEq, Repr

/-- A field's place: the key of its register and its bits. -/
structure FieldRef where
  key : Nat
  msb : Nat
  lsb : Nat
  deriving DecidableEq, Repr

/-- The offset belongs to this register or register array. -/
def RegDesc.hits (d : RegDesc) (off : Nat) : Bool :=
  decide (d.off ≤ off) &&
    (let x := off - d.off
     decide (x / d.s1 < d.n1) && (x % d.s1 % d.s2 == 0) && decide (x % d.s1 / d.s2 < d.n2))

/-- The register's cold value, from its fields. -/
def RegDesc.cold (d : RegDesc) : Nat := d.flds.foldl (fun a f => a + f.cold * 2 ^ f.lsb) 0

/-- The mask of a field. -/
def Fld.mask (f : Fld) : Nat := (2 ^ (f.msb + 1 - f.lsb) - 1) * 2 ^ f.lsb

/-- The mask of the fields with one of the given access codes. -/
def RegDesc.maskOf (d : RegDesc) (p : Acc → Bool) : Nat := d.flds.foldl (fun a f => if p f.acc then a + f.mask else a) 0

/-- Registers of the DIR page. -/
def dirRegs : List RegDesc :=
  [ ⟨"DIR_SELF", 0x040, 4, 1, 4, 1, [
      ⟨"OWNER", 31, 31, .ro, 0, .kept, []⟩,
      ⟨"HOST", 25, 24, .ro, 0, .kept, []⟩,
      ⟨"BIFUR", 17, 16, .ro, 0, .kept, []⟩]⟩,
    ⟨"DIR_SIZE", 0x044, 4, 1, 4, 1, [
      ⟨"PAGES", 31, 16, .ro, 0x400, .kept, []⟩,
      ⟨"LAST", 15, 0, .ro, 0x30F, .kept, []⟩]⟩,
    ⟨"CFG_CTRL", 0x048, 4, 1, 4, 1, [
      ⟨"STRICT", 9, 9, .rw, 0, .kept, []⟩,
      ⟨"WHEN", 8, 8, .rw, 0, .kept, []⟩,
      ⟨"OP", 1, 0, .wo, 0, (.val 0), []⟩]⟩,
    ⟨"CFG_STATUS", 0x04C, 4, 1, 4, 1, [
      ⟨"OPEN", 31, 31, .ro, 0, .kept, []⟩,
      ⟨"SEALED", 30, 30, .ro, 0, .kept, []⟩,
      ⟨"HOLDER", 29, 28, .ro, 0, .kept, []⟩,
      ⟨"LAST", 23, 16, .ro, 0, .kept, []⟩,
      ⟨"STAGED", 11, 0, .ro, 0, .kept, []⟩]⟩,
    ⟨"CFG_AT", 0x050, 4, 1, 4, 1, [
      ⟨"TARGET", 31, 0, .rw, 0, .kept, []⟩]⟩,
    ⟨"CFG_LATE", 0x054, 4, 1, 4, 1, [
      ⟨"LATENESS", 31, 0, .ro, 0, .kept, []⟩]⟩ ]

/-- Registers of the HLM page. -/
def hlmRegs : List RegDesc :=
  [ ⟨"HLM_STATUS", 0x040, 4, 1, 4, 1, [
      ⟨"CORES", 31, 28, .ro, 0, .live, []⟩,
      ⟨"STATE", 23, 20, .ro, 0, .live, []⟩,
      ⟨"BOOT_SLOT", 16, 16, .ro, 0, .live, []⟩]⟩,
    ⟨"HLM_SLOT", 0x044, 4, 2, 4, 1, [
      ⟨"STATE", 31, 28, .ro, 0, .kept, []⟩,
      ⟨"PENDING", 27, 27, .ro, 0, .kept, []⟩,
      ⟨"SVN", 23, 16, .ro, 0, .kept, []⟩]⟩,
    ⟨"HLM_SLOT_VER", 0x04C, 4, 2, 4, 1, [
      ⟨"VERSION", 31, 0, .ro, 0, .kept, []⟩]⟩,
    ⟨"HLM_BOOTS", 0x054, 4, 1, 4, 1, [
      ⟨"COUNT", 31, 0, .rc, 0, .kept, []⟩]⟩,
    ⟨"MBX_CMD", 0x100, 0x80, 4, 4, 1, [
      ⟨"GO", 31, 31, .w1s, 0, (.val 0), []⟩,
      ⟨"PARAM", 23, 16, .rw, 0, .kept, []⟩,
      ⟨"VECTOR", 15, 8, .rw, 1, .kept, [(1, 0xFF)]⟩,
      ⟨"OP", 7, 0, .rw, 0, .kept, []⟩]⟩,
    ⟨"MBX_STATUS", 0x104, 0x80, 4, 4, 1, [
      ⟨"BUSY", 31, 31, .ro, 0, (.val 0), []⟩,
      ⟨"STATUS", 23, 16, .ro, 0, .kept, []⟩,
      ⟨"INFO", 15, 0, .ro, 0, .kept, []⟩]⟩,
    ⟨"MBX_ARG", 0x110, 0x80, 4, 4, 16, [
      ⟨"ARG", 31, 0, .rw, 0, .kept, []⟩]⟩,
    ⟨"MBX_RSP", 0x150, 0x80, 4, 4, 8, [
      ⟨"RSP", 31, 0, .ro, 0, .kept, []⟩]⟩ ]

/-- Registers of the KEP page. -/
def kepRegs : List RegDesc :=
  [ ⟨"KEP_SERIAL_LO", 0x040, 4, 1, 4, 1, [
      ⟨"SN", 31, 0, .ro, 0, .kept, []⟩]⟩,
    ⟨"KEP_SERIAL_HI", 0x044, 4, 1, 4, 1, [
      ⟨"SN", 31, 0, .ro, 0, .kept, []⟩]⟩,
    ⟨"KEP_STATE", 0x048, 4, 1, 4, 1, [
      ⟨"PROVISIONED", 31, 31, .ro, 0, .kept, []⟩,
      ⟨"PENDING", 30, 30, .ro, 0, .kept, []⟩,
      ⟨"JTAG_LOCKED", 29, 29, .ro, 0, .kept, []⟩,
      ⟨"OWNER", 25, 24, .ro, 0, .kept, []⟩,
      ⟨"BIFUR", 17, 16, .ro, 3, .kept, []⟩]⟩,
    ⟨"KEP_SVN", 0x04C, 4, 1, 4, 1, [
      ⟨"LEFT", 15, 8, .ro, 0xFF, .kept, []⟩,
      ⟨"FW_SVN", 7, 0, .ro, 0, .kept, []⟩]⟩,
    ⟨"KEP_SUBSYS", 0x050, 4, 1, 4, 1, [
      ⟨"SUBSYS_ID", 31, 16, .ro, 0, .kept, []⟩,
      ⟨"SUBSYS_VID", 15, 0, .ro, 0xC0D7, .kept, []⟩]⟩,
    ⟨"KEP_MR", 0x100, 0x40, 8, 4, 16, [
      ⟨"BYTES", 31, 0, .ro, 0, .kept, []⟩]⟩ ]

/-- Registers of the WCH page. -/
def wchRegs : List RegDesc :=
  [ ⟨"WCH_CTRL", 0x040, 4, 1, 4, 1, [
      ⟨"EN", 6, 0, .rw, 0x7F, .kept, []⟩]⟩,
    ⟨"WCH_PERIOD", 0x044, 4, 1, 4, 1, [
      ⟨"CLUSTER_S", 31, 16, .rw, 0x3C, .kept, [(1, 0xFFFF)]⟩,
      ⟨"OTHER_S", 15, 0, .rw, 0xA, .kept, [(1, 0xFFFF)]⟩]⟩,
    ⟨"WCH_STATUS", 0x048, 4, 1, 4, 1, [
      ⟨"ACTIVE", 31, 31, .ro, 0, (.val 0), []⟩,
      ⟨"WAIT_LEAVE", 30, 30, .ro, 0, (.val 0), []⟩,
      ⟨"SWEEP", 29, 29, .ro, 0, (.val 0), []⟩,
      ⟨"CLASS", 18, 16, .ro, 0, (.val 0), []⟩,
      ⟨"TARGET", 15, 0, .ro, 0, (.val 0), []⟩]⟩,
    ⟨"WCH_PASS", 0x04C, 4, 1, 4, 1, [
      ⟨"COUNT", 31, 0, .rc, 0, .kept, []⟩]⟩,
    ⟨"WCH_FAIL", 0x050, 4, 1, 4, 1, [
      ⟨"COUNT", 31, 0, .rc, 0, .kept, []⟩]⟩,
    ⟨"WCH_LEAVE", 0x054, 4, 1, 4, 1, [
      ⟨"CLUSTER", 15, 12, .ro, 5, .kept, []⟩,
      ⟨"ENGINE", 11, 8, .ro, 3, .kept, []⟩,
      ⟨"FRAME", 7, 4, .ro, 2, .kept, []⟩,
      ⟨"LANE", 3, 0, .ro, 1, .kept, []⟩]⟩ ]

/-- Registers of the ADM page. -/
def admRegs : List RegDesc :=
  [ ⟨"ADM_BUDGET", 0x040, 4, 1, 4, 1, [
      ⟨"UNITS", 9, 0, .rw, 0xA0, .kept, [(0x18, 0x212)]⟩]⟩,
    ⟨"ADM_STATUS", 0x044, 4, 1, 4, 1, [
      ⟨"BLOCKED", 31, 31, .ro, 0, .live, []⟩,
      ⟨"CUT", 30, 30, .ro, 0, .live, []⟩,
      ⟨"EFFECTIVE", 25, 16, .ro, 0xA0, .live, []⟩,
      ⟨"IN_USE", 9, 0, .ro, 0, .live, []⟩]⟩,
    ⟨"ADM_QUEUE", 0x048, 4, 1, 4, 1, [
      ⟨"HEAD", 15, 8, .ro, 0xFF, .live, []⟩,
      ⟨"WAITING", 7, 0, .ro, 0, .live, []⟩]⟩,
    ⟨"ADM_GRANTS", 0x04C, 4, 1, 4, 1, [
      ⟨"COUNT", 31, 0, .rc, 0, .kept, []⟩]⟩,
    ⟨"ADM_WAIT_PEAK", 0x050, 4, 1, 4, 1, [
      ⟨"US", 31, 0, .rc, 0, .kept, []⟩]⟩ ]

/-- Registers of the PWR page. -/
def pwrRegs : List RegDesc :=
  [ ⟨"PWR_CTRL", 0x040, 4, 1, 4, 1, [
      ⟨"MIN_RESET", 0, 0, .w1s, 0, (.val 0), []⟩]⟩,
    ⟨"PWR_STATUS", 0x044, 4, 1, 4, 1, [
      ⟨"WARN", 31, 31, .ro, 0, .live, []⟩,
      ⟨"HOLDOFF", 30, 30, .ro, 0, .live, []⟩,
      ⟨"OV", 29, 29, .ro, 0, .live, []⟩,
      ⟨"VHOLD_LOW", 28, 28, .ro, 0, .live, []⟩,
      ⟨"RAILS", 9, 0, .ro, 0, .live, []⟩]⟩,
    ⟨"PWR_WARN_LAST", 0x048, 4, 1, 4, 1, [
      ⟨"RAIL", 31, 28, .ro, 0, .kept, []⟩,
      ⟨"MIN", 15, 0, .ro, 0, .kept, []⟩]⟩,
    ⟨"PWR_WARN_TIME", 0x04C, 4, 1, 4, 1, [
      ⟨"TIME", 31, 0, .ro, 0, .kept, []⟩]⟩,
    ⟨"PWR_WARN_DUR", 0x050, 4, 1, 4, 1, [
      ⟨"NS", 31, 0, .ro, 0, .kept, []⟩]⟩,
    ⟨"PWR_WARNS", 0x054, 4, 1, 4, 1, [
      ⟨"COUNT", 31, 0, .rc, 0, .kept, []⟩]⟩,
    ⟨"PWR_DOM_ON", 0x060, 4, 5, 4, 1, [
      ⟨"ON", 31, 0, .ro, 0, .live, []⟩]⟩,
    ⟨"PWR_RAIL", 0x080, 4, 10, 4, 1, [
      ⟨"MIN", 31, 16, .ro, 0, .kept, []⟩,
      ⟨"NOW", 15, 0, .ro, 0, .live, []⟩]⟩ ]

/-- Registers of the RST page. -/
def rstRegs : List RegDesc :=
  [ ⟨"RST_CTRL", 0x040, 4, 1, 4, 1, [
      ⟨"OUT_ON_WARM", 8, 8, .rw, 0, .kept, []⟩,
      ⟨"WARM", 0, 0, .w1s, 0, (.val 0), []⟩]⟩,
    ⟨"RST_CAUSE", 0x044, 4, 1, 4, 1, [
      ⟨"COLD", 31, 28, .ro, 0, .kept, []⟩,
      ⟨"WARM", 27, 24, .ro, 0, .live, []⟩,
      ⟨"WARMS_10S", 7, 0, .ro, 0, .live, []⟩]⟩,
    ⟨"RST_COUNT", 0x048, 4, 1, 4, 1, [
      ⟨"COLD", 31, 16, .ro, 0, .kept, []⟩,
      ⟨"WARM", 15, 0, .ro, 0, .live, []⟩]⟩,
    ⟨"RST_STEP", 0x04C, 4, 1, 4, 1, [
      ⟨"HALTED", 31, 31, .ro, 0, .kept, []⟩,
      ⟨"NOCLK", 23, 16, .ro, 0, .live, []⟩,
      ⟨"STEP", 3, 0, .ro, 0, .live, []⟩]⟩,
    ⟨"RST_WDOG", 0x050, 4, 1, 4, 1, [
      ⟨"EN", 31, 31, .rw, 1, .kept, []⟩,
      ⟨"TIMEOUT", 15, 0, .rw, 0x3E8, .kept, [(1, 0xFFFF)]⟩]⟩,
    ⟨"RST_WDOG_KICK", 0x054, 4, 1, 4, 1, [
      ⟨"KEY", 15, 0, .wo, 0, (.val 0), []⟩]⟩,
    ⟨"RST_WDOG_LEFT", 0x058, 4, 1, 4, 1, [
      ⟨"MS", 15, 0, .ro, 0x3E8, .live, []⟩]⟩ ]

/-- Registers of the CLK page. -/
def clkRegs : List RegDesc :=
  [ ⟨"CLK_STATUS", 0x040, 4, 1, 4, 1, [
      ⟨"REF_OK", 31, 31, .ro, 0, .live, []⟩,
      ⟨"OSC", 30, 30, .ro, 0, .live, []⟩]⟩,
    ⟨"CLK_MEAS_SEL", 0x044, 4, 1, 4, 1, [
      ⟨"DOMAIN", 7, 0, .rw, 0, .kept, [(0, 0xD5)]⟩]⟩,
    ⟨"CLK_MEAS", 0x048, 4, 1, 4, 1, [
      ⟨"VALID", 31, 31, .ro, 0, (.val 0), []⟩,
      ⟨"KHZ", 23, 0, .ro, 0, .kept, []⟩]⟩,
    ⟨"CLK_LOSS", 0x04C, 4, 1, 4, 1, [
      ⟨"COUNT", 31, 0, .rc, 0, .kept, []⟩]⟩,
    ⟨"CLK_GOOD", 0x060, 4, 7, 4, 1, [
      ⟨"GOOD", 31, 0, .ro, 0, .live, []⟩]⟩ ]

/-- Registers of the THM page. -/
def thmRegs : List RegDesc :=
  [ ⟨"THM_STATUS", 0x040, 4, 1, 4, 1, [
      ⟨"LEVEL", 31, 30, .ro, 0, .live, []⟩,
      ⟨"HOT_ZONE", 20, 16, .ro, 0, .live, []⟩,
      ⟨"FAILED", 6, 0, .ro, 0, .live, []⟩]⟩,
    ⟨"THM_THR_DIE", 0x044, 4, 1, 4, 1, [
      ⟨"T_L3", 23, 16, .rw, 0x73, .kept, []⟩,
      ⟨"T_L2", 15, 8, .rw, 0x69, .kept, []⟩,
      ⟨"T_L1", 7, 0, .rw, 0x5F, .kept, []⟩]⟩,
    ⟨"THM_LATCH", 0x048, 4, 1, 4, 1, [
      ⟨"LATCH", 31, 31, .ro, 0, .kept, []⟩,
      ⟨"ZONE", 4, 0, .ro, 0, .kept, []⟩]⟩,
    ⟨"THM_THR_STK", 0x04C, 4, 1, 4, 1, [
      ⟨"T_L3", 23, 16, .rw, 0x5F, .kept, []⟩,
      ⟨"T_L2", 15, 8, .rw, 0x5A, .kept, []⟩,
      ⟨"T_L1", 7, 0, .rw, 0x55, .kept, []⟩]⟩,
    ⟨"THM_LEVEL_UPS", 0x050, 4, 1, 4, 1, [
      ⟨"COUNT", 31, 0, .rc, 0, .kept, []⟩]⟩,
    ⟨"THM_ZONE", 0x100, 4, 32, 4, 1, [
      ⟨"TEMP", 31, 16, .ro, 0, .live, []⟩,
      ⟨"LEVEL", 15, 14, .ro, 0, .live, []⟩,
      ⟨"FAIL_HI", 13, 13, .ro, 0, .live, []⟩,
      ⟨"FAIL_LO", 12, 12, .ro, 0, .live, []⟩]⟩,
    ⟨"THM_SENSOR", 0x200, 4, 64, 4, 1, [
      ⟨"FAILED", 31, 31, .ro, 0, .live, []⟩,
      ⟨"READING", 15, 0, .ro, 0, .live, []⟩]⟩ ]

/-- Registers of the CAL page. -/
def calRegs : List RegDesc :=
  [ ⟨"CAL_CTRL", 0x040, 4, 1, 4, 1, [
      ⟨"START", 31, 31, .w1s, 0, (.val 0), []⟩,
      ⟨"DRY_RUN", 8, 8, .rw, 0, .kept, []⟩,
      ⟨"TARGETS", 3, 0, .rw, 0xF, .kept, []⟩]⟩,
    ⟨"CAL_STATUS", 0x044, 4, 1, 4, 1, [
      ⟨"BUSY", 31, 31, .ro, 0, (.val 0), []⟩,
      ⟨"WAIT_LEAVE", 30, 30, .ro, 0, (.val 0), []⟩,
      ⟨"TARGET", 29, 28, .ro, 0, (.val 0), []⟩,
      ⟨"RESULT", 23, 16, .ro, 0, .kept, []⟩]⟩,
    ⟨"CAL_DONE_TIME", 0x048, 4, 1, 4, 1, [
      ⟨"TIME", 31, 0, .ro, 0, .kept, []⟩]⟩,
    ⟨"CAL_REF", 0x04C, 4, 1, 4, 1, [
      ⟨"DEV_PPM", 15, 0, .ro, 0, .kept, []⟩]⟩,
    ⟨"CAL_DELTA", 0x050, 4, 1, 4, 1, [
      ⟨"BELFRY", 31, 24, .ro, 0, .kept, []⟩,
      ⟨"BEACON", 23, 16, .ro, 0, .kept, []⟩,
      ⟨"THERMAL", 15, 8, .ro, 0, .kept, []⟩,
      ⟨"RAILS", 7, 0, .ro, 0, .kept, []⟩]⟩,
    ⟨"CAL_QUERY", 0x054, 4, 1, 4, 1, [
      ⟨"TARGET", 17, 16, .rw, 0, .kept, []⟩,
      ⟨"INDEX", 8, 0, .rw, 0, .kept, []⟩]⟩,
    ⟨"CAL_QUERY_OUT", 0x058, 4, 1, 4, 1, [
      ⟨"VALID", 31, 31, .ro, 0, (.val 0), []⟩,
      ⟨"DRY", 15, 8, .ro, 0, .kept, []⟩,
      ⟨"LIVE", 7, 0, .ro, 0, .kept, []⟩]⟩,
    ⟨"CAL_UNITS", 0x05C, 4, 1, 4, 1, [
      ⟨"UNITS", 7, 0, .ro, 6, .kept, []⟩]⟩ ]

/-- Registers of the SXT page (part 1). -/
def sxtRegs1 : List RegDesc :=
  [ ⟨"SXT_NOW", 0x040, 4, 1, 4, 1, [
      ⟨"NS", 31, 0, .ro, 0, .live, []⟩]⟩,
    ⟨"SXT_FRAC", 0x044, 4, 1, 4, 1, [
      ⟨"FRAC", 31, 0, .ro, 0, .live, []⟩]⟩,
    ⟨"SXT_WRAPS", 0x048, 4, 1, 4, 1, [
      ⟨"WRAPS", 31, 0, .ro, 0, .live, []⟩]⟩,
    ⟨"SXT_INC_LO", 0x04C, 4, 1, 4, 1, [
      ⟨"FRAC", 31, 0, .rw, 0x9999999A, .kept, []⟩]⟩,
    ⟨"SXT_INC_HI", 0x050, 4, 1, 4, 1, [
      ⟨"NS", 7, 0, .rw, 1, .kept, []⟩]⟩,
    ⟨"SXT_ADJ", 0x054, 4, 1, 4, 1, [
      ⟨"OFFSET", 31, 0, .rw, 0, .live, [(0, 0xF4240), (0xFFF0BDC0, 0xFFFFFFFF)]⟩]⟩,
    ⟨"SXT_SET_LO", 0x058, 4, 1, 4, 1, [
      ⟨"NS", 31, 0, .rw, 0, .kept, []⟩]⟩,
    ⟨"SXT_SET_HI", 0x05C, 4, 1, 4, 1, [
      ⟨"WRAPS", 31, 0, .rw, 0, .kept, []⟩]⟩,
    ⟨"SXT_CTRL", 0x060, 4, 1, 4, 1, [
      ⟨"SNAP", 2, 2, .w1s, 0, (.val 0), []⟩,
      ⟨"SET", 1, 1, .w1s, 0, .kept, []⟩,
      ⟨"HOLD", 0, 0, .rw, 0, .kept, []⟩]⟩,
    ⟨"SXT_SNAP_NS", 0x064, 4, 1, 4, 1, [
      ⟨"NS", 31, 0, .ro, 0, .kept, []⟩]⟩,
    ⟨"SXT_SNAP_FRAC", 0x068, 4, 1, 4, 1, [
      ⟨"FRAC", 31, 0, .ro, 0, .kept, []⟩]⟩,
    ⟨"SXT_SNAP_WRAPS", 0x06C, 4, 1, 4, 1, [
      ⟨"WRAPS", 31, 0, .ro, 0, .kept, []⟩]⟩,
    ⟨"SXT_EPOCH_LO", 0x070, 4, 1, 4, 1, [
      ⟨"NS", 31, 0, .rws, 0, .kept, []⟩]⟩,
    ⟨"SXT_EPOCH_HI", 0x074, 4, 1, 4, 1, [
      ⟨"WRAPS", 31, 0, .rws, 0, .kept, []⟩]⟩,
    ⟨"SXT_STATUS", 0x078, 4, 1, 4, 1, [
      ⟨"STATE", 31, 30, .ro, 0, .live, []⟩,
      ⟨"SLEWING", 29, 29, .ro, 0, .live, []⟩,
      ⟨"LOCKED_ONCE", 28, 28, .ro, 0, .kept, []⟩]⟩,
    ⟨"SXT_OFFSET", 0x07C, 4, 1, 4, 1, [
      ⟨"NS", 31, 0, .ro, 0, .kept, []⟩]⟩,
    ⟨"SXT_PATH", 0x080, 4, 1, 4, 1, [
      ⟨"NS", 31, 0, .ro, 0, .kept, []⟩]⟩,
    ⟨"SXT_SERVO", 0x084, 4, 1, 4, 1, [
      ⟨"STEP_EN", 31, 31, .rw, 0, .kept, []⟩,
      ⟨"STEP_MS", 23, 16, .rw, 1, .kept, [(1, 0xFF)]⟩,
      ⟨"LOCK_NS", 15, 0, .rw, 0x64, .kept, [(1, 0xFFFF)]⟩]⟩,
    ⟨"ACT_TARGET", 0x100, 0x10, 4, 4, 1, [
      ⟨"NS", 31, 0, .rw, 0, .kept, []⟩]⟩,
    ⟨"ACT_CTRL", 0x104, 0x10, 4, 4, 1, [
      ⟨"ARM", 31, 31, .rw, 0, .kept, []⟩,
      ⟨"STRICT", 30, 30, .rw, 0, .kept, []⟩,
      ⟨"LATE", 29, 29, .w1c, 0, .kept, []⟩,
      ⟨"GPIO", 23, 20, .rw, 0, .kept, []⟩,
      ⟨"ACTION", 17, 16, .rw, 0, .kept, []⟩,
      ⟨"WIDTH", 15, 0, .rw, 0, .kept, []⟩]⟩ ]

/-- Registers of the SXT page (part 2). -/
def sxtRegs2 : List RegDesc :=
  [ ⟨"ACT_PERIOD", 0x108, 0x10, 4, 4, 1, [
      ⟨"NS", 31, 0, .rw, 0, .kept, []⟩]⟩,
    ⟨"ACT_LATE", 0x10C, 0x10, 4, 4, 1, [
      ⟨"NS", 31, 0, .ro, 0, .kept, []⟩]⟩,
    ⟨"CAP_CTRL", 0x140, 8, 2, 4, 1, [
      ⟨"EN", 31, 31, .rw, 0, .kept, []⟩,
      ⟨"OVERRUN", 30, 30, .w1c, 0, .kept, []⟩,
      ⟨"EDGE", 29, 28, .rw, 1, .kept, [(1, 3)]⟩,
      ⟨"GPIO", 3, 0, .rw, 0, .kept, []⟩]⟩,
    ⟨"CAP_TIME", 0x144, 8, 2, 4, 1, [
      ⟨"NS", 31, 0, .ro, 0, .kept, []⟩]⟩,
    ⟨"GPIO_CFG", 0x180, 4, 16, 4, 1, [
      ⟨"LEVEL", 8, 8, .rw, 0, .kept, []⟩,
      ⟨"FUNC", 1, 0, .rw, 0, .kept, []⟩]⟩,
    ⟨"GPIO_IN", 0x1C0, 4, 1, 4, 1, [
      ⟨"LEVEL", 15, 0, .ro, 0, .live, []⟩]⟩ ]

/-- Registers of the SXT page. -/
def sxtRegs : List RegDesc := sxtRegs1 ++ sxtRegs2

/-- Registers of the ETH page. -/
def ethRegs : List RegDesc :=
  [ ⟨"ETH_CTRL", 0x040, 4, 1, 4, 1, [
      ⟨"VID", 27, 16, .rw, 0, .kept, []⟩,
      ⟨"PCP", 15, 13, .rw, 0, .kept, []⟩,
      ⟨"VLAN_EN", 12, 12, .rw, 0, .kept, []⟩,
      ⟨"WS_EN", 11, 11, .rw, 0, .kept, []⟩,
      ⟨"ROLE", 10, 10, .rw, 0, .kept, []⟩,
      ⟨"P2P", 9, 9, .rw, 0, .kept, []⟩,
      ⟨"TRANSPORT", 8, 7, .rw, 0, .kept, [(0, 2)]⟩,
      ⟨"FEC", 6, 6, .rw, 1, .kept, []⟩,
      ⟨"SPEED", 5, 5, .rw, 0, .kept, []⟩]⟩,
    ⟨"ETH_PTP", 0x044, 4, 1, 4, 1, [
      ⟨"DOMAIN", 7, 0, .rw, 0, .kept, []⟩]⟩,
    ⟨"ETH_IPV4", 0x048, 4, 1, 4, 1, [
      ⟨"ADDR", 31, 0, .rw, 0, .kept, []⟩]⟩,
    ⟨"ETH_MAC_LO", 0x04C, 4, 1, 4, 1, [
      ⟨"MAC", 31, 0, .ro, 0, .kept, []⟩]⟩,
    ⟨"ETH_MAC_HI", 0x050, 4, 1, 4, 1, [
      ⟨"MAC", 15, 0, .ro, 0, .kept, []⟩]⟩,
    ⟨"ETH_ASYM", 0x054, 4, 1, 4, 1, [
      ⟨"NS", 31, 0, .rw, 0, .kept, []⟩]⟩,
    ⟨"ETH_WS", 0x058, 4, 1, 4, 1, [
      ⟨"PERIOD", 7, 0, .rw, 0x3C, .kept, [(1, 0xFF)]⟩]⟩,
    ⟨"ETH_WS_DA_LO", 0x05C, 4, 1, 4, 1, [
      ⟨"DA", 31, 0, .rw, 0xFFFFFFFF, .kept, []⟩]⟩,
    ⟨"ETH_WS_DA_HI", 0x060, 4, 1, 4, 1, [
      ⟨"DA", 15, 0, .rw, 0xFFFF, .kept, []⟩]⟩,
    ⟨"ETH_STATUS", 0x064, 4, 1, 4, 1, [
      ⟨"LINK", 31, 31, .ro, 0, .live, []⟩,
      ⟨"HELM", 30, 30, .ro, 0, .live, []⟩,
      ⟨"PORT_STATE", 3, 0, .ro, 0, .live, []⟩]⟩,
    ⟨"ETH_RX_PTP", 0x068, 4, 1, 4, 1, [
      ⟨"COUNT", 31, 0, .rc, 0, .kept, []⟩]⟩,
    ⟨"ETH_TX_PTP", 0x06C, 4, 1, 4, 1, [
      ⟨"COUNT", 31, 0, .rc, 0, .kept, []⟩]⟩,
    ⟨"ETH_PTP_BAD", 0x070, 4, 1, 4, 1, [
      ⟨"COUNT", 31, 0, .rc, 0, .kept, []⟩]⟩,
    ⟨"ETH_OTHER", 0x074, 4, 1, 4, 1, [
      ⟨"COUNT", 31, 0, .rc, 0, .kept, []⟩]⟩,
    ⟨"ETH_FCS", 0x078, 4, 1, 4, 1, [
      ⟨"COUNT", 31, 0, .rc, 0, .kept, []⟩]⟩,
    ⟨"ETH_INSERT_ERR", 0x07C, 4, 1, 4, 1, [
      ⟨"COUNT", 31, 0, .rc, 0, .kept, []⟩]⟩,
    ⟨"ETH_WS_RX", 0x080, 4, 1, 4, 1, [
      ⟨"COUNT", 31, 0, .rc, 0, .kept, []⟩]⟩,
    ⟨"ETH_EPOCH_MISMATCH", 0x084, 4, 1, 4, 1, [
      ⟨"COUNT", 31, 0, .rc, 0, .kept, []⟩]⟩,
    ⟨"ETH_HELM_DROP", 0x088, 4, 1, 4, 1, [
      ⟨"COUNT", 31, 0, .rc, 0, .kept, []⟩]⟩ ]

/-- Registers of the PAR page. -/
def parRegs : List RegDesc :=
  [ ⟨"PAR_CTRL", 0x040, 4, 1, 4, 1, [
      ⟨"GPIO_IN", 31, 28, .rw, 0, .kept, []⟩,
      ⟨"GPIO_OUT", 27, 24, .rw, 0, .kept, []⟩,
      ⟨"ALIVE_EN", 2, 2, .rw, 0, .kept, []⟩,
      ⟨"INPUT", 1, 1, .rw, 0, .kept, []⟩,
      ⟨"PREFER", 0, 0, .rw, 0, .kept, []⟩]⟩,
    ⟨"PAR_STATUS", 0x044, 4, 1, 4, 1, [
      ⟨"ROLE", 31, 30, .ro, 0, .live, []⟩,
      ⟨"STATE", 29, 27, .ro, 0, .live, []⟩,
      ⟨"LOCK", 26, 26, .ro, 0, .live, []⟩,
      ⟨"ALIVE", 25, 25, .ro, 0, .live, []⟩,
      ⟨"TX_LANES", 23, 20, .ro, 0, .live, []⟩,
      ⟨"RX_LANES", 19, 16, .ro, 0, .live, []⟩]⟩,
    ⟨"PAR_CMD", 0x048, 4, 1, 4, 1, [
      ⟨"SWAP", 0, 0, .w1s, 0, (.val 0), []⟩]⟩,
    ⟨"PAR_HB", 0x04C, 4, 1, 4, 1, [
      ⟨"SKEW_LIM", 31, 16, .rw, 0x3E8, .kept, [(1, 0xFFFF)]⟩,
      ⟨"HB_WAIT", 15, 0, .rw, 0x64, .kept, [(0xA, 0x3E8)]⟩]⟩,
    ⟨"PAR_DIV", 0x050, 4, 1, 4, 1, [
      ⟨"CONVERGE", 15, 8, .rw, 0x10, .kept, [(1, 0xFF)]⟩,
      ⟨"RUN", 7, 0, .rw, 8, .kept, [(1, 0xFF)]⟩]⟩,
    ⟨"PAR_SKEW", 0x054, 4, 1, 4, 1, [
      ⟨"NS", 31, 0, .ro, 0, .live, []⟩]⟩,
    ⟨"PAR_LAT", 0x058, 4, 1, 4, 1, [
      ⟨"NS", 31, 0, .ro, 0, .kept, []⟩]⟩,
    ⟨"PAR_RSIG_J", 0x05C, 4, 1, 4, 1, [
      ⟨"J", 31, 0, .ro, 0, .live, []⟩]⟩,
    ⟨"PAR_RSIG_PEER", 0x060, 4, 1, 4, 1, [
      ⟨"RSIG", 31, 0, .ro, 0, .live, []⟩]⟩,
    ⟨"PAR_PEER_SN_LO", 0x064, 4, 1, 4, 1, [
      ⟨"SN", 31, 0, .ro, 0, .kept, []⟩]⟩,
    ⟨"PAR_PEER_SN_HI", 0x068, 4, 1, 4, 1, [
      ⟨"SN", 31, 0, .ro, 0, .kept, []⟩]⟩,
    ⟨"PAR_MISMATCH", 0x06C, 4, 1, 4, 1, [
      ⟨"COUNT", 31, 0, .rc, 0, .kept, []⟩]⟩,
    ⟨"PAR_COMPARED", 0x070, 4, 1, 4, 1, [
      ⟨"COUNT", 31, 0, .rc, 0, .kept, []⟩]⟩,
    ⟨"PAR_RETRY", 0x074, 4, 1, 4, 1, [
      ⟨"COUNT", 31, 0, .rc, 0, .kept, []⟩]⟩,
    ⟨"PAR_VIOL", 0x078, 4, 1, 4, 1, [
      ⟨"COUNT", 31, 0, .rc, 0, .kept, []⟩]⟩,
    ⟨"PAR_FAILOVER", 0x07C, 4, 1, 4, 1, [
      ⟨"COUNT", 31, 0, .rc, 0, .kept, []⟩]⟩ ]

/-- Registers of the HST page. -/
def hstRegs : List RegDesc :=
  [ ⟨"HST_LINK", 0x040, 4, 1, 4, 1, [
      ⟨"DL_UP", 31, 31, .ro, 0, .live, []⟩,
      ⟨"FLIT", 30, 30, .ro, 0, .live, []⟩,
      ⟨"SPEED", 26, 24, .ro, 0, .live, []⟩,
      ⟨"WIDTH", 20, 16, .ro, 0, .live, []⟩]⟩,
    ⟨"HST_RESET", 0x044, 4, 1, 4, 1, [
      ⟨"CAUSE", 2, 0, .ro, 0, (.val 5), []⟩]⟩,
    ⟨"HST_RESET_TIME", 0x048, 4, 1, 4, 1, [
      ⟨"TIME", 31, 0, .ro, 0, .live, []⟩]⟩,
    ⟨"HST_RESETS", 0x04C, 4, 1, 4, 1, [
      ⟨"COUNT", 31, 0, .rc, 0, .kept, []⟩]⟩,
    ⟨"HST_FLOG_BASE_LO", 0x050, 4, 1, 4, 1, [
      ⟨"ADDR", 31, 12, .rw, 0, (.val 0), []⟩]⟩,
    ⟨"HST_FLOG_BASE_HI", 0x054, 4, 1, 4, 1, [
      ⟨"ADDR", 31, 0, .rw, 0, (.val 0), []⟩]⟩,
    ⟨"HST_FLOG_CTRL", 0x058, 4, 1, 4, 1, [
      ⟨"EN", 31, 31, .rw, 0, (.val 0), []⟩,
      ⟨"LOG2", 4, 0, .rw, 7, (.val 7), [(7, 0x10)]⟩]⟩,
    ⟨"HST_FLOG_WR", 0x05C, 4, 1, 4, 1, [
      ⟨"WR", 31, 0, .ro, 0, (.val 0), []⟩]⟩,
    ⟨"HST_FLOG_RD", 0x060, 4, 1, 4, 1, [
      ⟨"RD", 31, 0, .rw, 0, (.val 0), []⟩]⟩,
    ⟨"HST_FLOG_LOST", 0x064, 4, 1, 4, 1, [
      ⟨"COUNT", 31, 0, .rc, 0, .kept, []⟩]⟩,
    ⟨"HST_VLOG_BASE_LO", 0x068, 4, 1, 4, 1, [
      ⟨"ADDR", 31, 12, .rw, 0, (.val 0), []⟩]⟩,
    ⟨"HST_VLOG_BASE_HI", 0x06C, 4, 1, 4, 1, [
      ⟨"ADDR", 31, 0, .rw, 0, (.val 0), []⟩]⟩,
    ⟨"HST_VLOG_CTRL", 0x070, 4, 1, 4, 1, [
      ⟨"EN", 31, 31, .rw, 0, (.val 0), []⟩,
      ⟨"LOG2", 4, 0, .rw, 7, (.val 7), [(7, 0x10)]⟩]⟩,
    ⟨"HST_VLOG_WR", 0x074, 4, 1, 4, 1, [
      ⟨"WR", 31, 0, .ro, 0, (.val 0), []⟩]⟩,
    ⟨"HST_VLOG_RD", 0x078, 4, 1, 4, 1, [
      ⟨"RD", 31, 0, .rw, 0, (.val 0), []⟩]⟩,
    ⟨"HST_VLOG_LOST", 0x07C, 4, 1, 4, 1, [
      ⟨"COUNT", 31, 0, .rc, 0, .kept, []⟩]⟩,
    ⟨"HST_DMA_ERR", 0x080, 4, 1, 4, 1, [
      ⟨"COUNT", 31, 0, .rc, 0, .kept, []⟩]⟩ ]

/-- Registers of the CMD page (part 1). -/
def cmdRegs1 : List RegDesc :=
  [ ⟨"QTA_CTX", 0x100, 4, 1, 4, 1, [
      ⟨"LIMIT", 31, 16, .rw, 0xA000, .kept, []⟩,
      ⟨"RESERVE", 15, 0, .rw, 0xA000, .kept, []⟩]⟩,
    ⟨"QTA_LAYER", 0x104, 4, 1, 4, 1, [
      ⟨"LIMIT", 31, 16, .rw, 0xC000, .kept, []⟩,
      ⟨"RESERVE", 15, 0, .rw, 0xC000, .kept, []⟩]⟩,
    ⟨"QTA_REGION", 0x108, 4, 1, 4, 1, [
      ⟨"LIMIT", 31, 16, .rw, 0x1000, .kept, []⟩,
      ⟨"RESERVE", 15, 0, .rw, 0x1000, .kept, []⟩]⟩,
    ⟨"QTA_TXN", 0x10C, 4, 1, 4, 1, [
      ⟨"LIMIT", 24, 16, .rw, 0x100, .kept, []⟩,
      ⟨"RESERVE", 8, 0, .rw, 0x100, .kept, []⟩]⟩,
    ⟨"QTA_SLOT_LIMIT", 0x110, 4, 1, 4, 1, [
      ⟨"LIMIT", 17, 0, .rw, 0x20000, .kept, []⟩]⟩,
    ⟨"QTA_SLOT_RESERVE", 0x114, 4, 1, 4, 1, [
      ⟨"RESERVE", 17, 0, .rw, 0x20000, .kept, []⟩]⟩,
    ⟨"QTA_MEM_LIMIT", 0x118, 4, 1, 4, 1, [
      ⟨"LIMIT", 20, 0, .rw, 0x1E0000, .kept, []⟩]⟩,
    ⟨"QTA_MEM_RESERVE", 0x11C, 4, 1, 4, 1, [
      ⟨"RESERVE", 20, 0, .rw, 0x1E0000, .kept, []⟩]⟩,
    ⟨"USE_CTX", 0x120, 4, 1, 4, 1, [
      ⟨"USED", 15, 0, .ro, 0, .live, []⟩]⟩,
    ⟨"USE_LAYER", 0x124, 4, 1, 4, 1, [
      ⟨"USED", 15, 0, .ro, 0, .live, []⟩]⟩,
    ⟨"USE_REGION", 0x128, 4, 1, 4, 1, [
      ⟨"USED", 12, 0, .ro, 0, .live, []⟩]⟩,
    ⟨"USE_TXN", 0x12C, 4, 1, 4, 1, [
      ⟨"USED", 8, 0, .ro, 0, .live, []⟩]⟩,
    ⟨"USE_SLOT", 0x130, 4, 1, 4, 1, [
      ⟨"USED", 17, 0, .ro, 0, .live, []⟩]⟩,
    ⟨"USE_MEM", 0x134, 4, 1, 4, 1, [
      ⟨"USED", 20, 0, .ro, 0, .live, []⟩]⟩,
    ⟨"QTA_REJ", 0x138, 4, 1, 4, 1, [
      ⟨"COUNT", 31, 0, .rc, 0, .kept, []⟩]⟩,
    ⟨"QTA_LAST", 0x13C, 4, 1, 4, 1, [
      ⟨"RESOURCE", 3, 0, .ro, 0, .kept, []⟩]⟩,
    ⟨"CMD_WEIGHT", 0x040, 4, 1, 4, 1, [
      ⟨"WEIGHT", 7, 0, .rw, 0x10, .kept, [(1, 0xFF)]⟩]⟩,
    ⟨"CMD_BACKLOG", 0x044, 4, 1, 4, 1, [
      ⟨"COUNT", 31, 0, .ro, 0, .live, []⟩]⟩,
    ⟨"CMD_OVERLOAD", 0x048, 4, 1, 4, 1, [
      ⟨"DEFICIT", 31, 0, .ro, 0, .kept, []⟩]⟩,
    ⟨"CMD_OVL_CFG", 0x04C, 4, 1, 4, 1, [
      ⟨"WINDOWS", 7, 0, .rw, 0xA, .kept, [(1, 0xFF)]⟩]⟩ ]

/-- Registers of the CMD page (part 2). -/
def cmdRegs2 : List RegDesc :=
  [ ⟨"CMD_FETCHED", 0x050, 4, 1, 4, 1, [
      ⟨"COUNT", 31, 0, .rc, 0, .kept, []⟩]⟩,
    ⟨"CMD_REJECTED", 0x054, 4, 1, 4, 1, [
      ⟨"COUNT", 31, 0, .rc, 0, .kept, []⟩]⟩,
    ⟨"CMD_ABORTED", 0x058, 4, 1, 4, 1, [
      ⟨"COUNT", 31, 0, .rc, 0, .kept, []⟩]⟩,
    ⟨"RING_BASE_LO", 0x200, 0x20, 16, 4, 1, [
      ⟨"ADDR", 31, 12, .rw, 0, .kept, []⟩]⟩,
    ⟨"RING_BASE_HI", 0x204, 0x20, 16, 4, 1, [
      ⟨"ADDR", 31, 0, .rw, 0, .kept, []⟩]⟩,
    ⟨"CPL_BASE_LO", 0x208, 0x20, 16, 4, 1, [
      ⟨"ADDR", 31, 12, .rw, 0, .kept, []⟩]⟩,
    ⟨"CPL_BASE_HI", 0x20C, 0x20, 16, 4, 1, [
      ⟨"ADDR", 31, 0, .rw, 0, .kept, []⟩]⟩,
    ⟨"RING_CTRL", 0x210, 0x20, 16, 4, 1, [
      ⟨"VECTOR", 31, 24, .rw, 1, .kept, [(1, 0xFF)]⟩,
      ⟨"LOG2", 20, 16, .rw, 6, .kept, [(6, 0x10)]⟩,
      ⟨"DISCARD", 2, 2, .w1s, 0, (.val 0), []⟩,
      ⟨"HALTED", 1, 1, .ro, 0, .kept, []⟩,
      ⟨"RUN", 0, 0, .rw, 0, (.val 0), []⟩]⟩,
    ⟨"RING_HEAD", 0x214, 0x20, 16, 4, 1, [
      ⟨"HEAD", 31, 0, .ro, 0, .kept, []⟩]⟩,
    ⟨"RING_TAIL", 0x218, 0x20, 16, 4, 1, [
      ⟨"TAIL", 31, 0, .rw, 0, .kept, []⟩]⟩,
    ⟨"RING_PENDING", 0x21C, 0x20, 16, 4, 1, [
      ⟨"COUNT", 16, 0, .ro, 0, .live, []⟩]⟩ ]

/-- Registers of the CMD page. -/
def cmdRegs : List RegDesc := cmdRegs1 ++ cmdRegs2

/-- Registers of the TXN page. -/
def txnRegs : List RegDesc :=
  [ ⟨"TXN_STATUS", 0x040, 4, 1, 4, 1, [
      ⟨"WAITING", 24, 16, .ro, 0, .live, []⟩,
      ⟨"CLOSING", 8, 0, .ro, 0, .live, []⟩]⟩,
    ⟨"TXN_LAST_SEAL", 0x044, 4, 1, 4, 1, [
      ⟨"STAMP", 31, 0, .ro, 0, .kept, []⟩]⟩,
    ⟨"TXN_LAST_CUT", 0x048, 4, 1, 4, 1, [
      ⟨"TIME", 31, 0, .ro, 0, .kept, []⟩]⟩,
    ⟨"TXN_APPLIED", 0x04C, 4, 1, 4, 1, [
      ⟨"COUNT", 31, 0, .rc, 0, .kept, []⟩]⟩,
    ⟨"TXN_ROLLBACK", 0x050, 4, 1, 4, 1, [
      ⟨"COUNT", 31, 0, .rc, 0, .kept, []⟩]⟩,
    ⟨"TXN_LATE", 0x054, 4, 1, 4, 1, [
      ⟨"COUNT", 31, 0, .rc, 0, .kept, []⟩]⟩ ]

/-- Registers of the TWD page (part 1). -/
def twdRegs1 : List RegDesc :=
  [ ⟨"TWD_OP", 0x040, 4, 1, 4, 1, [
      ⟨"GO", 31, 31, .w1s, 0, (.val 0), []⟩,
      ⟨"BG_KEEP", 16, 16, .rw, 0, .kept, []⟩,
      ⟨"TXN", 15, 8, .rw, 0, .kept, []⟩,
      ⟨"OP", 1, 0, .rw, 1, .kept, [(1, 3)]⟩]⟩,
    ⟨"TWD_TAG", 0x044, 4, 1, 4, 1, [
      ⟨"TAG", 31, 0, .rw, 0, .kept, []⟩]⟩,
    ⟨"TWD_SIZE", 0x048, 4, 1, 4, 1, [
      ⟨"H", 31, 16, .rw, 0, .kept, []⟩,
      ⟨"W", 15, 0, .rw, 0, .kept, []⟩]⟩,
    ⟨"TWD_VALUE", 0x04C, 4, 1, 4, 1, [
      ⟨"VALUE", 31, 0, .rw, 0, .kept, []⟩]⟩,
    ⟨"TWD_FG", 0x050, 4, 1, 4, 1, [
      ⟨"FG", 31, 0, .rw, 0, .kept, []⟩]⟩,
    ⟨"TWD_BG", 0x054, 4, 1, 4, 1, [
      ⟨"BG", 31, 0, .rw, 0, .kept, []⟩]⟩,
    ⟨"TWD_DST", 0x058, 4, 1, 4, 1, [
      ⟨"KIND", 31, 30, .rw, 0, .kept, [(0, 2)]⟩,
      ⟨"FORMAT", 23, 20, .rw, 0, .kept, [(0, 4)]⟩,
      ⟨"HANDLE", 15, 0, .rw, 0, .kept, []⟩]⟩,
    ⟨"TWD_DST_XY", 0x05C, 4, 1, 4, 1, [
      ⟨"Y", 31, 16, .rw, 0, .kept, []⟩,
      ⟨"X", 15, 0, .rw, 0, .kept, []⟩]⟩,
    ⟨"TWD_DST_OFFSET", 0x060, 4, 1, 4, 1, [
      ⟨"OFFSET", 31, 0, .rw, 0, .kept, []⟩]⟩,
    ⟨"TWD_DST_PITCH", 0x064, 4, 1, 4, 1, [
      ⟨"PITCH", 16, 0, .rw, 0x40, .kept, []⟩]⟩,
    ⟨"TWD_SRC", 0x068, 4, 1, 4, 1, [
      ⟨"KIND", 31, 30, .rw, 0, .kept, [(0, 2)]⟩,
      ⟨"HOST", 25, 24, .rw, 0, .kept, []⟩,
      ⟨"FORMAT", 23, 20, .rw, 0, .kept, [(0, 4)]⟩,
      ⟨"HANDLE", 15, 0, .rw, 0, .kept, []⟩]⟩,
    ⟨"TWD_SRC_XY", 0x06C, 4, 1, 4, 1, [
      ⟨"Y", 31, 16, .rw, 0, .kept, []⟩,
      ⟨"X", 15, 0, .rw, 0, .kept, []⟩]⟩,
    ⟨"TWD_SRC_OFFSET", 0x070, 4, 1, 4, 1, [
      ⟨"OFFSET", 31, 0, .rw, 0, .kept, []⟩]⟩,
    ⟨"TWD_SRC_PITCH", 0x074, 4, 1, 4, 1, [
      ⟨"PITCH", 16, 0, .rw, 0x40, .kept, []⟩]⟩,
    ⟨"TWD_STATUS", 0x078, 4, 1, 4, 1, [
      ⟨"BUSY", 31, 31, .ro, 0, (.val 0), []⟩,
      ⟨"WAIT_ORDER", 30, 30, .ro, 0, (.val 0), []⟩,
      ⟨"WAIT_LEAVE", 29, 29, .ro, 0, (.val 0), []⟩,
      ⟨"WAIT_MEM", 28, 28, .ro, 0, (.val 0), []⟩,
      ⟨"ROWS", 14, 0, .ro, 0, (.val 0), []⟩]⟩,
    ⟨"TWD_DONE", 0x07C, 4, 1, 4, 1, [
      ⟨"OP", 9, 8, .ro, 0, .kept, []⟩,
      ⟨"STATUS", 7, 0, .ro, 0, .kept, []⟩]⟩,
    ⟨"TWD_DONE_TAG", 0x080, 4, 1, 4, 1, [
      ⟨"TAG", 31, 0, .ro, 0, .kept, []⟩]⟩,
    ⟨"TWD_DONE_TIME", 0x084, 4, 1, 4, 1, [
      ⟨"TIME", 31, 0, .ro, 0, .kept, []⟩]⟩,
    ⟨"TWD_OPS", 0x088, 4, 1, 4, 1, [
      ⟨"COUNT", 31, 0, .rc, 0, .kept, []⟩]⟩,
    ⟨"TWD_NOOP", 0x08C, 4, 1, 4, 1, [
      ⟨"COUNT", 31, 0, .rc, 0, .kept, []⟩]⟩ ]

/-- Registers of the TWD page (part 2). -/
def twdRegs2 : List RegDesc :=
  [ ⟨"TWD_LEAVE", 0x090, 4, 1, 4, 1, [
      ⟨"UNITS", 7, 0, .ro, 4, .kept, []⟩]⟩ ]

/-- Registers of the TWD page. -/
def twdRegs : List RegDesc := twdRegs1 ++ twdRegs2

/-- Registers of the DOM page. -/
def domRegs : List RegDesc :=
  [ ⟨"DOM_CTRL", 0x040, 4, 1, 4, 1, [
      ⟨"RSV_PCT", 6, 0, .rws, 0x3C, .kept, [(0x34, 0x5A)]⟩]⟩,
    ⟨"DOM_ARB", 0x044, 4, 1, 4, 1, [
      ⟨"WATCH", 23, 20, .rw, 1, .kept, [(1, 0xF)]⟩,
      ⟨"BAR2", 19, 16, .rw, 2, .kept, [(1, 0xF)]⟩,
      ⟨"MAINT", 15, 12, .rw, 1, .kept, [(1, 0xF)]⟩,
      ⟨"PAGING", 11, 8, .rw, 2, .kept, [(1, 0xF)]⟩,
      ⟨"TWD", 7, 4, .rw, 4, .kept, [(1, 0xF)]⟩,
      ⟨"CODEC", 3, 0, .rw, 8, .kept, [(1, 0xF)]⟩]⟩,
    ⟨"DOM_LOW", 0x048, 4, 1, 4, 1, [
      ⟨"HIGH", 31, 16, .rw, 0x200, .kept, []⟩,
      ⟨"LOW", 15, 0, .rw, 0x100, .kept, []⟩]⟩,
    ⟨"DOM_SCRUB", 0x04C, 4, 1, 4, 1, [
      ⟨"CE_THR", 23, 16, .rw, 4, .kept, [(1, 0xFF)]⟩,
      ⟨"PERIOD", 15, 0, .rw, 0x3C, .kept, []⟩]⟩,
    ⟨"DOM_FREE", 0x050, 4, 1, 4, 1, [
      ⟨"COUNT", 20, 0, .ro, 0x1E0000, .live, []⟩]⟩,
    ⟨"DOM_RETIRING", 0x054, 4, 1, 4, 1, [
      ⟨"COUNT", 20, 0, .ro, 0, .live, []⟩]⟩,
    ⟨"DOM_SPILLED", 0x058, 4, 1, 4, 1, [
      ⟨"COUNT", 20, 0, .ro, 0, .live, []⟩]⟩,
    ⟨"DOM_FRAMES", 0x05C, 4, 1, 4, 1, [
      ⟨"RETIRED", 27, 16, .ro, 0, .live, []⟩,
      ⟨"SPARES", 11, 0, .ro, 0x400, .live, []⟩]⟩,
    ⟨"DOM_CE", 0x060, 4, 1, 4, 1, [
      ⟨"COUNT", 31, 0, .rc, 0, .kept, []⟩]⟩,
    ⟨"DOM_UE", 0x064, 4, 1, 4, 1, [
      ⟨"COUNT", 31, 0, .rc, 0, .kept, []⟩]⟩,
    ⟨"DOM_BAR2_MISS", 0x068, 4, 1, 4, 1, [
      ⟨"COUNT", 31, 0, .rc, 0, .kept, []⟩]⟩,
    ⟨"DOM_MAP_QUERY", 0x06C, 4, 1, 4, 1, [
      ⟨"PAGE", 15, 0, .rw, 0, .kept, []⟩]⟩,
    ⟨"DOM_MAP_ENTRY", 0x070, 4, 1, 4, 1, [
      ⟨"VALID", 31, 31, .ro, 0, (.val 0), []⟩,
      ⟨"LENT", 30, 30, .ro, 0, .kept, []⟩,
      ⟨"WITHDRAWN", 29, 29, .ro, 0, .kept, []⟩,
      ⟨"FRAME", 15, 0, .ro, 0, .kept, []⟩]⟩,
    ⟨"DOM_SPILL_LO", 0x100, 0x10, 4, 4, 1, [
      ⟨"ADDR", 31, 16, .rw, 0, .kept, []⟩]⟩,
    ⟨"DOM_SPILL_HI", 0x104, 0x10, 4, 4, 1, [
      ⟨"ADDR", 31, 0, .rw, 0, .kept, []⟩]⟩,
    ⟨"DOM_SPILL_SIZE", 0x108, 0x10, 4, 4, 1, [
      ⟨"SLOTS", 20, 0, .rw, 0, .kept, []⟩]⟩,
    ⟨"DOM_SPILL_USED", 0x10C, 0x10, 4, 4, 1, [
      ⟨"COUNT", 20, 0, .ro, 0, .live, []⟩]⟩,
    ⟨"DOM_WIN_OBJ", 0x200, 0x40, 4, 8, 8, [
      ⟨"KIND", 31, 30, .rw, 0, .kept, []⟩,
      ⟨"HOST", 29, 28, .rw, 0, .kept, []⟩,
      ⟨"STAGED", 24, 24, .rw, 0, .kept, []⟩,
      ⟨"TXN", 23, 16, .rw, 0, .kept, []⟩,
      ⟨"HANDLE", 15, 0, .rw, 0, .kept, []⟩]⟩,
    ⟨"DOM_WIN_OFF", 0x204, 0x40, 4, 8, 8, [
      ⟨"OFF", 31, 25, .rw, 0, .kept, []⟩]⟩ ]

/-- Registers of the STK page. -/
def stkRegs : List RegDesc :=
  [ ⟨"STK_CE", 0x040, 4, 1, 4, 1, [
      ⟨"COUNT", 31, 0, .rc, 0, .kept, []⟩]⟩,
    ⟨"STK_UE", 0x044, 4, 1, 4, 1, [
      ⟨"COUNT", 31, 0, .rc, 0, .kept, []⟩]⟩,
    ⟨"STK_READ", 0x048, 4, 1, 4, 1, [
      ⟨"MIB", 31, 0, .ro, 0, .live, []⟩]⟩,
    ⟨"STK_RENDER", 0x04C, 4, 1, 4, 1, [
      ⟨"MIB", 31, 0, .ro, 0, .live, []⟩]⟩ ]

/-- Registers of the CDC page. -/
def cdcRegs : List RegDesc :=
  [ ⟨"CDC_CTRL", 0x040, 4, 1, 4, 1, [
      ⟨"ENGINES", 4, 0, .rw, 0x10, .kept, [(0, 0x10)]⟩]⟩,
    ⟨"CDC_LEAVE", 0x044, 4, 1, 4, 1, [
      ⟨"GROUP_UNITS", 15, 8, .ro, 0xC, .kept, []⟩,
      ⟨"ENGINE_UNITS", 7, 0, .ro, 3, .kept, []⟩]⟩,
    ⟨"CDC_QUEUE", 0x048, 4, 1, 4, 1, [
      ⟨"DECODES", 31, 16, .ro, 0, (.val 0), []⟩,
      ⟨"JOBS", 15, 0, .ro, 0, (.val 0), []⟩]⟩,
    ⟨"CDC_TILES", 0x04C, 4, 1, 4, 1, [
      ⟨"COUNT", 31, 0, .rc, 0, .kept, []⟩]⟩,
    ⟨"CDC_DAMAGED", 0x050, 4, 1, 4, 1, [
      ⟨"COUNT", 31, 0, .rc, 0, .kept, []⟩]⟩,
    ⟨"CDC_SKIPPED", 0x054, 4, 1, 4, 1, [
      ⟨"COUNT", 31, 0, .rc, 0, .kept, []⟩]⟩,
    ⟨"CDC_STREAM_BAD", 0x058, 4, 1, 4, 1, [
      ⟨"COUNT", 31, 0, .rc, 0, .kept, []⟩]⟩ ]

/-- Registers of the ENG page. -/
def engRegs : List RegDesc :=
  [ ⟨"ENG_JOB", 0x040, 4, 1, 4, 1, [
      ⟨"ACTIVE", 31, 31, .ro, 0, (.val 0), []⟩,
      ⟨"WAIT_LEAVE", 30, 30, .ro, 0, (.val 0), []⟩,
      ⟨"HOST", 29, 28, .ro, 0, (.val 0), []⟩,
      ⟨"PLANE", 16, 16, .ro, 0, (.val 0), []⟩,
      ⟨"LAYER", 15, 0, .ro, 0, (.val 0), []⟩]⟩,
    ⟨"ENG_TILE", 0x044, 4, 1, 4, 1, [
      ⟨"TY", 31, 16, .ro, 0, (.val 0), []⟩,
      ⟨"TX", 15, 0, .ro, 0, (.val 0), []⟩]⟩,
    ⟨"ENG_TILES", 0x048, 4, 1, 4, 1, [
      ⟨"COUNT", 31, 0, .rc, 0, .kept, []⟩]⟩,
    ⟨"ENG_DAMAGED", 0x04C, 4, 1, 4, 1, [
      ⟨"COUNT", 31, 0, .rc, 0, .kept, []⟩]⟩,
    ⟨"ENG_BUSY", 0x050, 4, 1, 4, 1, [
      ⟨"KCLK", 31, 0, .rc, 0, .kept, []⟩]⟩ ]

/-- Registers of the CMP page. -/
def cmpRegs : List RegDesc :=
  [ ⟨"CMP_CTRL", 0x040, 4, 1, 4, 1, [
      ⟨"BGR", 2, 2, .rws, 0, .kept, []⟩,
      ⟨"MIRROR", 1, 1, .rws, 0, .kept, []⟩,
      ⟨"LCT_EN", 0, 0, .rws, 0, .kept, []⟩]⟩,
    ⟨"CMP_SIZE", 0x044, 4, 1, 4, 1, [
      ⟨"HEIGHT", 31, 16, .rws, 0x21C0, .kept, []⟩,
      ⟨"WIDTH", 15, 0, .rws, 0x3C00, .kept, []⟩]⟩,
    ⟨"CMP_PITCH", 0x048, 4, 1, 4, 1, [
      ⟨"PITCH", 31, 0, .rws, 0x10000000, .kept, []⟩]⟩,
    ⟨"CMP_SLANT", 0x04C, 4, 1, 4, 1, [
      ⟨"SLANT", 31, 0, .rws, 0, .kept, []⟩]⟩,
    ⟨"CMP_OFFSET", 0x050, 4, 1, 4, 1, [
      ⟨"OFFSET", 31, 0, .rws, 0, .kept, []⟩]⟩,
    ⟨"CMP_DMAX", 0x054, 4, 1, 4, 1, [
      ⟨"DMAX", 14, 0, .rws, 0, .kept, []⟩]⟩,
    ⟨"CMP_KMAX", 0x058, 4, 1, 4, 1, [
      ⟨"KMAX", 15, 0, .ro, 0, .live, []⟩]⟩,
    ⟨"CMP_LCT_ID", 0x05C, 4, 1, 4, 1, [
      ⟨"PANEL_ID", 31, 0, .rws, 0, .kept, []⟩]⟩,
    ⟨"CMP_LCT_CRC", 0x060, 4, 1, 4, 1, [
      ⟨"CRC", 31, 0, .rws, 0, .kept, []⟩]⟩,
    ⟨"CMP_LCT_CRC_LIVE", 0x064, 4, 1, 4, 1, [
      ⟨"CRC", 31, 0, .ro, 0, .live, []⟩]⟩,
    ⟨"CMP_PROBE_XY", 0x070, 4, 1, 4, 1, [
      ⟨"C", 31, 30, .rw, 0, .kept, [(0, 2)]⟩,
      ⟨"Y", 29, 16, .rw, 0, .kept, []⟩,
      ⟨"X", 13, 0, .rw, 0, .kept, []⟩]⟩,
    ⟨"CMP_PROBE_OUT", 0x074, 4, 1, 4, 1, [
      ⟨"VALID", 31, 31, .ro, 0, (.val 0), []⟩,
      ⟨"RANGE", 16, 16, .ro, 0, (.val 0), []⟩,
      ⟨"W", 15, 0, .ro, 0, .kept, []⟩]⟩,
    ⟨"CMP_K", 0x100, 4, 64, 4, 1, [
      ⟨"K_ODD", 31, 16, .rws, 0, .kept, [(0, 0x7FFF), (0x8001, 0xFFFF)]⟩,
      ⟨"K_EVEN", 15, 0, .rws, 0, .kept, [(0, 0x7FFF), (0x8001, 0xFFFF)]⟩]⟩,
    ⟨"CMP_LCT", 0x400, 4, 279, 4, 1, [
      ⟨"NODE_ODD", 31, 16, .rws, 0, .kept, []⟩,
      ⟨"NODE_EVEN", 15, 0, .rws, 0, .kept, []⟩]⟩ ]

/-- Registers of the FRS page. -/
def frsRegs : List RegDesc :=
  [ ⟨"FRS_CTRL", 0x040, 4, 1, 4, 1, [
      ⟨"FORCE_ALL", 0, 0, .rws, 0, .kept, []⟩]⟩,
    ⟨"FRS_STATUS", 0x044, 4, 1, 4, 1, [
      ⟨"GLOBAL", 31, 31, .ro, 0, .live, []⟩,
      ⟨"TICK_LOCAL", 30, 30, .ro, 0, .live, []⟩,
      ⟨"VEIL_DARK", 29, 29, .ro, 0, .live, []⟩,
      ⟨"CRIT_STALE", 28, 16, .ro, 0, .live, []⟩,
      ⟨"STALE", 12, 0, .ro, 0, .live, []⟩]⟩,
    ⟨"FRS_SUMMARY", 0x048, 4, 1, 4, 1, [
      ⟨"FAULT", 10, 10, .ro, 0, .live, []⟩,
      ⟨"CRIT", 9, 9, .ro, 0, .live, []⟩,
      ⟨"ANY", 8, 8, .ro, 0, .live, []⟩,
      ⟨"HOST_CRIT", 7, 4, .ro, 0, .live, []⟩,
      ⟨"HOST_STALE", 3, 0, .ro, 0, .live, []⟩]⟩,
    ⟨"FRS_MS", 0x04C, 4, 1, 4, 1, [
      ⟨"TICKS", 31, 0, .ro, 0, .live, []⟩]⟩,
    ⟨"FRS_QUERY", 0x050, 4, 1, 4, 1, [
      ⟨"HOST", 17, 16, .rw, 0, .kept, []⟩,
      ⟨"CONTEXT", 15, 0, .rw, 0, .kept, []⟩]⟩,
    ⟨"FRS_QUERY_AGE", 0x054, 4, 1, 4, 1, [
      ⟨"VALID", 31, 31, .ro, 0, (.val 0), []⟩,
      ⟨"RANGE", 30, 30, .ro, 0, (.val 0), []⟩,
      ⟨"STALE", 29, 29, .ro, 0, .kept, []⟩,
      ⟨"AGE", 23, 0, .ro, 0, .kept, []⟩]⟩,
    ⟨"FRS_QUERY_BOUND", 0x058, 4, 1, 4, 1, [
      ⟨"VEIL", 17, 16, .ro, 0, .kept, []⟩,
      ⟨"BOUND", 15, 0, .ro, 0, .kept, []⟩]⟩,
    ⟨"FRS_VEILED", 0x05C, 4, 1, 4, 1, [
      ⟨"WORDS", 31, 0, .ro, 0, .live, []⟩]⟩,
    ⟨"FRS_COPY_ERR", 0x060, 4, 1, 4, 1, [
      ⟨"COUNT", 31, 0, .rc, 0, .kept, []⟩]⟩,
    ⟨"FRS_VEIL_CHECK", 0x064, 4, 1, 4, 1, [
      ⟨"COUNT", 31, 0, .rc, 0, .kept, []⟩]⟩,
    ⟨"FRS_TICK_LOST", 0x068, 4, 1, 4, 1, [
      ⟨"COUNT", 31, 0, .rc, 0, .kept, []⟩]⟩,
    ⟨"FRS_CRIT_COLOR", 0x06C, 4, 1, 4, 1, [
      ⟨"B", 29, 20, .rws, 0, .kept, []⟩,
      ⟨"G", 19, 10, .rws, 0, .kept, []⟩,
      ⟨"R", 9, 0, .rws, 0x3FF, .kept, []⟩]⟩ ]

/-- Registers of the SCO page (part 1). -/
def scoRegs1 : List RegDesc :=
  [ ⟨"SCO_CTRL", 0x040, 4, 1, 4, 1, [
      ⟨"RATE", 17, 16, .rws, 0, .kept, [(0, 2)]⟩,
      ⟨"OD_BANK", 9, 9, .rws, 0, .kept, []⟩,
      ⟨"OD_EN", 8, 8, .rws, 0, .kept, []⟩,
      ⟨"DBITS", 3, 0, .rws, 0xA, .kept, [(8, 0xA)]⟩]⟩,
    ⟨"SCO_STATUS", 0x044, 4, 1, 4, 1, [
      ⟨"RATE", 31, 30, .ro, 0, .live, []⟩,
      ⟨"BY_THERMAL", 29, 29, .ro, 0, .live, []⟩,
      ⟨"BY_PORT", 28, 28, .ro, 0, .live, []⟩,
      ⟨"BAND", 24, 22, .ro, 0, .live, []⟩,
      ⟨"DARK", 21, 21, .ro, 1, .live, []⟩,
      ⟨"BUF", 20, 20, .ro, 0, .live, []⟩,
      ⟨"SLOT", 18, 16, .ro, 0, .live, []⟩]⟩,
    ⟨"SCO_VTIMING", 0x048, 4, 1, 4, 1, [
      ⟨"V_TOTAL", 31, 16, .ro, 0x2940, .live, []⟩,
      ⟨"V_ACTIVE", 15, 0, .ro, 0x21C0, .live, []⟩]⟩,
    ⟨"SCO_SUBFRAME", 0x04C, 4, 1, 4, 1, [
      ⟨"J", 31, 0, .ro, 0, .live, []⟩]⟩,
    ⟨"SCO_NEXT_CUT", 0x050, 4, 1, 4, 1, [
      ⟨"TIME", 31, 0, .ro, 0, .live, []⟩]⟩,
    ⟨"SCO_LW", 0x054, 4, 1, 4, 1, [
      ⟨"LW_START", 31, 16, .rws, 0, .kept, []⟩,
      ⟨"LW_LEN", 15, 0, .rws, 0, .kept, []⟩]⟩,
    ⟨"SCO_LW_STEP", 0x058, 4, 1, 4, 1, [
      ⟨"LW_STEP", 15, 0, .rws, 0, .kept, []⟩]⟩,
    ⟨"SCO_CLOSED", 0x05C, 4, 1, 4, 1, [
      ⟨"CL_START", 31, 16, .rws, 0, .kept, []⟩,
      ⟨"CL_LEN", 15, 0, .rws, 0, .kept, []⟩]⟩,
    ⟨"SCO_OD_THR0", 0x060, 4, 1, 4, 1, [
      ⟨"T3", 31, 24, .rws, 0x28, .kept, []⟩,
      ⟨"T2", 23, 16, .rws, 0x1E, .kept, []⟩,
      ⟨"T1", 15, 8, .rws, 0x14, .kept, []⟩,
      ⟨"T0", 7, 0, .rws, 0xA, .kept, []⟩]⟩,
    ⟨"SCO_OD_THR1", 0x064, 4, 1, 4, 1, [
      ⟨"T6", 23, 16, .rws, 0x46, .kept, []⟩,
      ⟨"T5", 15, 8, .rws, 0x3C, .kept, []⟩,
      ⟨"T4", 7, 0, .rws, 0x32, .kept, []⟩]⟩,
    ⟨"SCO_OD_ADDR", 0x068, 4, 1, 4, 1, [
      ⟨"BANK", 17, 17, .rw, 0, .kept, []⟩,
      ⟨"BAND", 16, 14, .rw, 0, .kept, []⟩,
      ⟨"CH", 13, 12, .rw, 0, .kept, [(0, 2)]⟩,
      ⟨"PI", 11, 6, .rw, 0, .kept, [(0, 0x20)]⟩,
      ⟨"TI", 5, 0, .rw, 0, .kept, [(0, 0x20)]⟩]⟩,
    ⟨"SCO_OD_DATA", 0x06C, 4, 1, 4, 1, [
      ⟨"NODE", 10, 0, .rw, 0, .kept, []⟩]⟩,
    ⟨"SCO_PANEL_TEMP", 0x070, 4, 1, 4, 1, [
      ⟨"VALID", 16, 16, .ro, 0, .live, []⟩,
      ⟨"TEMP", 15, 0, .ro, 0, .live, []⟩]⟩,
    ⟨"SCO_UNDERRUN", 0x074, 4, 1, 4, 1, [
      ⟨"COUNT", 31, 0, .rc, 0, .kept, []⟩]⟩,
    ⟨"SCO_ABORTED", 0x078, 4, 1, 4, 1, [
      ⟨"COUNT", 31, 0, .rc, 0, .kept, []⟩]⟩,
    ⟨"SCO_LINE_FAIL", 0x07C, 4, 1, 4, 1, [
      ⟨"COUNT", 31, 0, .rc, 0, .kept, []⟩]⟩,
    ⟨"SCO_SECDED", 0x080, 4, 1, 4, 1, [
      ⟨"COUNT", 31, 0, .rc, 0, .kept, []⟩]⟩,
    ⟨"SCO_WAIT", 0x084, 4, 1, 4, 1, [
      ⟨"COUNT", 31, 0, .rc, 0, .kept, []⟩]⟩,
    ⟨"SCO_SIG_J", 0x088, 4, 1, 4, 1, [
      ⟨"J", 31, 0, .ro, 0, .live, []⟩]⟩,
    ⟨"SCO_RSIG", 0x08C, 4, 1, 4, 1, [
      ⟨"RSIG", 31, 0, .ro, 0, .live, []⟩]⟩ ]

/-- Registers of the SCO page (part 2). -/
def scoRegs2 : List RegDesc :=
  [ ⟨"SCO_TSIG", 0x090, 4, 1, 4, 1, [
      ⟨"TSIG", 31, 0, .ro, 0, .live, []⟩]⟩ ]

/-- Registers of the SCO page. -/
def scoRegs : List RegDesc := scoRegs1 ++ scoRegs2

/-- Registers of the PNL page. -/
def pnlRegs : List RegDesc :=
  [ ⟨"PNL_CTRL", 0x040, 4, 1, 4, 1, [
      ⟨"LINK_DARK", 0, 0, .rw, 0, .kept, []⟩]⟩ ]

/-- Registers of the PRT page. -/
def prtRegs : List RegDesc :=
  [ ⟨"PRT_CTRL", 0x040, 4, 1, 4, 1, [
      ⟨"PARITY_EN", 8, 8, .rws, 1, .kept, []⟩,
      ⟨"BC_PREF", 0, 0, .rw, 0, .kept, []⟩]⟩,
    ⟨"PRT_HEALTH", 0x044, 4, 1, 4, 1, [
      ⟨"CE_THR", 11, 0, .rw, 0x800, .kept, [(1, 0xFFF)]⟩]⟩,
    ⟨"PRT_STATUS", 0x048, 4, 1, 4, 1, [
      ⟨"IN_SERVICE", 31, 31, .ro, 0, .live, []⟩,
      ⟨"PARITY", 30, 30, .ro, 0, .live, []⟩,
      ⟨"BC_LOST", 29, 29, .ro, 0, .live, []⟩,
      ⟨"BC_SEL", 28, 28, .ro, 0, .live, []⟩,
      ⟨"RATE_MAX", 27, 26, .ro, 0, .live, []⟩,
      ⟨"N", 23, 20, .ro, 0, .live, []⟩,
      ⟨"PARITY_LANE", 19, 16, .ro, 0, .live, []⟩,
      ⟨"SPARES", 15, 0, .ro, 0, .live, []⟩]⟩,
    ⟨"PRT_MAP0", 0x04C, 4, 1, 4, 1, [
      ⟨"L7–L0", 31, 0, .ro, 0x76543210, .live, []⟩]⟩,
    ⟨"PRT_MAP1", 0x050, 4, 1, 4, 1, [
      ⟨"L11–L8", 15, 0, .ro, 0xBA98, .live, []⟩]⟩,
    ⟨"PRT_REPORT_J", 0x054, 4, 1, 4, 1, [
      ⟨"J", 31, 0, .ro, 0, .live, []⟩]⟩,
    ⟨"PRT_REPORT_TSIG", 0x058, 4, 1, 4, 1, [
      ⟨"TSIG", 31, 0, .ro, 0, .live, []⟩]⟩,
    ⟨"PRT_TSIG_BAD", 0x05C, 4, 1, 4, 1, [
      ⟨"COUNT", 31, 0, .rc, 0, .kept, []⟩]⟩,
    ⟨"PRT_LINES_DAMAGED", 0x060, 4, 1, 4, 1, [
      ⟨"COUNT", 31, 0, .rc, 0, .kept, []⟩]⟩,
    ⟨"PRT_LINES_REBUILT", 0x064, 4, 1, 4, 1, [
      ⟨"COUNT", 31, 0, .rc, 0, .kept, []⟩]⟩,
    ⟨"PRT_BC_GARBAGE", 0x068, 4, 1, 4, 1, [
      ⟨"COUNT", 31, 0, .rc, 0, .kept, []⟩]⟩ ]

/-- Registers of the LNK page. -/
def lnkRegs : List RegDesc :=
  [ ⟨"LNK_CTRL", 0x040, 4, 1, 4, 1, [
      ⟨"PATTERN", 11, 8, .rw, 0, .kept, [(0, 3)]⟩,
      ⟨"LOOP", 5, 4, .rw, 0, .kept, []⟩]⟩,
    ⟨"LNK_STATUS", 0x044, 4, 1, 4, 1, [
      ⟨"KIND", 31, 30, .ro, 0, .kept, []⟩,
      ⟨"PHYS", 23, 20, .ro, 0, .kept, []⟩,
      ⟨"LOGICAL", 19, 16, .ro, 0, .live, []⟩,
      ⟨"ROLE", 15, 14, .ro, 0, .live, []⟩,
      ⟨"ALIGN", 13, 12, .ro, 0, .live, []⟩,
      ⟨"FAILS", 1, 0, .ro, 0, .kept, []⟩]⟩,
    ⟨"LNK_TXEQ", 0x048, 4, 1, 4, 1, [
      ⟨"SWING", 19, 17, .rws, 5, .kept, []⟩,
      ⟨"C_POST", 16, 12, .rws, 8, .kept, []⟩,
      ⟨"C_MAIN", 11, 5, .rws, 0x34, .kept, []⟩,
      ⟨"C_PRE", 4, 0, .rws, 4, .kept, []⟩]⟩,
    ⟨"LNK_RXEQ", 0x04C, 4, 1, 4, 1, [
      ⟨"CTLE_LIVE", 19, 16, .ro, 8, .live, []⟩,
      ⟨"ADAPT", 9, 9, .rw, 1, .kept, []⟩,
      ⟨"FREEZE", 8, 8, .rw, 0, .kept, []⟩,
      ⟨"CTLE", 3, 0, .rw, 8, .kept, []⟩]⟩,
    ⟨"LNK_DFE", 0x050, 4, 3, 4, 1, [
      ⟨"TAPS", 31, 0, .ro, 0, .live, []⟩]⟩,
    ⟨"LNK_CE", 0x05C, 4, 1, 4, 1, [
      ⟨"COUNT", 31, 0, .rc, 0, .kept, []⟩]⟩,
    ⟨"LNK_UE", 0x060, 4, 1, 4, 1, [
      ⟨"COUNT", 31, 0, .rc, 0, .kept, []⟩]⟩,
    ⟨"LNK_LOCK_LOSS", 0x064, 4, 1, 4, 1, [
      ⟨"COUNT", 31, 0, .rc, 0, .kept, []⟩]⟩,
    ⟨"LNK_PRBS_ERR", 0x068, 4, 1, 4, 1, [
      ⟨"COUNT", 31, 0, .rc, 0, .kept, []⟩]⟩,
    ⟨"LNK_PRBS_MBITS", 0x06C, 4, 1, 4, 1, [
      ⟨"COUNT", 31, 0, .rc, 0, .kept, []⟩]⟩ ]

/-- Registers of the BCN page. -/
def bcnRegs : List RegDesc :=
  [ ⟨"BCN_STATUS", 0x040, 4, 1, 4, 1, [
      ⟨"UNVERIFIED", 31, 24, .ro, 0, .live, []⟩,
      ⟨"FAULTED", 23, 16, .ro, 0, .live, []⟩,
      ⟨"WAIT_LEAVE", 12, 12, .ro, 0, .live, []⟩,
      ⟨"STARTED", 11, 0, .ro, 0, .live, []⟩]⟩,
    ⟨"BCN_DIAG", 0x044, 4, 1, 4, 1, [
      ⟨"ACC_EN", 24, 24, .rw, 1, .kept, []⟩,
      ⟨"PERIOD", 19, 16, .rw, 8, .kept, [(1, 0xF)]⟩,
      ⟨"DIAG_LEN", 11, 0, .rw, 0x3C0, .kept, [(0x320, 0xFFF)]⟩]⟩,
    ⟨"BCN_INRUSH", 0x048, 4, 1, 4, 1, [
      ⟨"UNITS", 7, 0, .ro, 4, .kept, []⟩]⟩ ]

/-- Registers of the ZONE page. -/
def zoneRegs : List RegDesc :=
  [ ⟨"STR_CTRL", 0x100, 0x20, 8, 4, 1, [
      ⟨"ENABLE", 31, 31, .rw, 1, .kept, []⟩,
      ⟨"NP", 20, 16, .rws, 4, .kept, [(0, 0x10)]⟩,
      ⟨"DUTY", 15, 0, .rws, 0, .kept, []⟩]⟩,
    ⟨"STR_ITH", 0x104, 0x20, 8, 4, 1, [
      ⟨"OC", 29, 20, .rws, 0x3FF, .kept, []⟩,
      ⟨"HI", 19, 10, .rws, 0, .kept, []⟩,
      ⟨"LO", 9, 0, .rws, 0, .kept, []⟩]⟩,
    ⟨"STR_VLIM", 0x108, 0x20, 8, 4, 1, [
      ⟨"VOV", 25, 16, .rws, 0x3FF, .kept, []⟩,
      ⟨"VMIN", 9, 0, .rws, 0, .kept, []⟩]⟩,
    ⟨"STR_STATE", 0x10C, 0x20, 8, 4, 1, [
      ⟨"REARM", 31, 31, .w1s, 0, (.val 0), []⟩,
      ⟨"NOVERDICT", 15, 8, .ro, 0, .live, []⟩,
      ⟨"FAILS", 5, 4, .ro, 0, .live, []⟩,
      ⟨"ACC", 3, 3, .ro, 0, .live, []⟩,
      ⟨"STATE", 2, 0, .ro, 0, .live, []⟩]⟩,
    ⟨"STR_MEAS", 0x110, 0x20, 8, 4, 1, [
      ⟨"VSNS", 25, 16, .ro, 0, .live, []⟩,
      ⟨"RISE", 11, 0, .ro, 0, .live, []⟩]⟩ ]

/-- Registers of the BLF page. -/
def blfRegs : List RegDesc :=
  [ ⟨"BLF_CTRL", 0x040, 4, 1, 4, 1, [
      ⟨"TSRC", 9, 9, .rws, 0, .kept, []⟩,
      ⟨"WAVE", 8, 8, .rws, 0, .kept, []⟩]⟩,
    ⟨"BLF_SLOT", 0x044, 4, 1, 4, 1, [
      ⟨"SLOT", 15, 0, .rws, 0xBEC, .kept, [(0xF4, 0xFFFF)]⟩]⟩,
    ⟨"BLF_BANK", 0x048, 4, 1, 4, 1, [
      ⟨"SWAP", 31, 31, .w1s, 0, .kept, []⟩,
      ⟨"BLANK", 1, 1, .ro, 0, .live, []⟩,
      ⟨"SHOWN", 0, 0, .ro, 0, .live, []⟩]⟩,
    ⟨"BLF_CRC0", 0x04C, 4, 1, 4, 1, [
      ⟨"CRC", 31, 0, .rw, 0xC6A275E5, .kept, []⟩]⟩,
    ⟨"BLF_CRC1", 0x050, 4, 1, 4, 1, [
      ⟨"CRC", 31, 0, .rw, 0xC6A275E5, .kept, []⟩]⟩,
    ⟨"BLF_STATUS", 0x054, 4, 1, 4, 1, [
      ⟨"RUNNING", 31, 31, .ro, 0, .live, []⟩,
      ⟨"TEMP_VALID", 30, 30, .ro, 0, .live, []⟩,
      ⟨"BAND", 26, 24, .ro, 0, .live, []⟩,
      ⟨"VOP", 23, 16, .ro, 0, .live, []⟩,
      ⟨"VLCD", 15, 0, .ro, 0, .live, []⟩]⟩,
    ⟨"BLF_TEMP", 0x058, 4, 1, 4, 1, [
      ⟨"TEMP", 15, 0, .rw, 0, .kept, []⟩]⟩,
    ⟨"BLF_THR0", 0x05C, 4, 1, 4, 1, [
      ⟨"T3", 31, 24, .rws, 0x1E, .kept, []⟩,
      ⟨"T2", 23, 16, .rws, 0x14, .kept, []⟩,
      ⟨"T1", 15, 8, .rws, 0xA, .kept, []⟩,
      ⟨"T0", 7, 0, .rws, 0, .kept, []⟩]⟩,
    ⟨"BLF_THR1", 0x060, 4, 1, 4, 1, [
      ⟨"T6", 23, 16, .rws, 0x3C, .kept, []⟩,
      ⟨"T5", 15, 8, .rws, 0x32, .kept, []⟩,
      ⟨"T4", 7, 0, .rws, 0x28, .kept, []⟩]⟩,
    ⟨"BLF_VCOMP0", 0x064, 4, 1, 4, 1, [
      ⟨"B3–B0", 31, 0, .rws, 0, .kept, []⟩]⟩,
    ⟨"BLF_VCOMP1", 0x068, 4, 1, 4, 1, [
      ⟨"B7–B4", 31, 0, .rws, 0, .kept, []⟩]⟩,
    ⟨"BLF_FW_VAL", 0x06C, 4, 1, 4, 1, [
      ⟨"VAL", 15, 0, .ro, 0, .live, []⟩]⟩,
    ⟨"BLF_SWAP_REJ", 0x070, 4, 1, 4, 1, [
      ⟨"COUNT", 31, 0, .rc, 0, .kept, []⟩]⟩,
    ⟨"BLF_GMAP", 0x100, 4, 11, 4, 1, [
      ⟨"EN", 31, 31, .rws, 0, .kept, []⟩,
      ⟨"BLINK", 30, 30, .rws, 0, .kept, []⟩,
      ⟨"CELL", 9, 0, .rws, 0, .kept, [(0, 0x27F)]⟩]⟩,
    ⟨"BLF_FMAP", 0x140, 4, 16, 4, 1, [
      ⟨"EN", 31, 31, .rws, 0, .kept, []⟩,
      ⟨"CELL", 9, 0, .rws, 0, .kept, [(0, 0x27F)]⟩]⟩,
    ⟨"BLF_FRAME", 0x200, 0x80, 2, 4, 20, [
      ⟨"CELLS", 31, 0, .rw, 0, .kept, []⟩]⟩ ]

/-- Registers of the SPR page. -/
def sprRegs : List RegDesc :=
  [ ⟨"SPR_CTRL", 0x040, 4, 1, 4, 1, [
      ⟨"AUTOCAP_EN", 15, 15, .rw, 1, .kept, []⟩,
      ⟨"PF_EN", 8, 8, .rws, 1, .kept, []⟩,
      ⟨"CAP", 4, 0, .rws, 0x10, .kept, [(1, 0x10)]⟩]⟩,
    ⟨"SPR_BG", 0x044, 4, 1, 4, 1, [
      ⟨"B", 29, 20, .rws, 0, .kept, []⟩,
      ⟨"G", 19, 10, .rws, 0, .kept, []⟩,
      ⟨"R", 9, 0, .rws, 0, .kept, []⟩]⟩,
    ⟨"SPR_LIMITS", 0x048, 4, 1, 4, 1, [
      ⟨"AUTOCAP", 15, 15, .w1c, 0, .live, []⟩,
      ⟨"L2", 14, 14, .ro, 0, .live, []⟩,
      ⟨"PF", 8, 8, .ro, 1, .live, []⟩,
      ⟨"CAP", 4, 0, .ro, 0x10, .live, []⟩]⟩,
    ⟨"SPR_BUDGET", 0x04C, 4, 1, 4, 1, [
      ⟨"BUDGET", 31, 0, .ro, 0x9DB99900, .live, []⟩]⟩,
    ⟨"SPR_DEMAND", 0x050, 4, 1, 4, 1, [
      ⟨"DEMAND", 31, 0, .ro, 0, .live, []⟩]⟩,
    ⟨"SPR_DEMAND_PEAK", 0x054, 4, 1, 4, 1, [
      ⟨"PEAK", 31, 0, .rc, 0, .kept, []⟩]⟩,
    ⟨"SPR_DEMAND_THR", 0x058, 4, 1, 4, 1, [
      ⟨"PCT", 6, 0, .rw, 0x5A, .kept, [(0, 0x64)]⟩]⟩,
    ⟨"SPR_CAPPED", 0x05C, 4, 1, 4, 1, [
      ⟨"COUNT", 31, 0, .rc, 0, .kept, []⟩]⟩,
    ⟨"SPR_GATHER_ECC", 0x060, 4, 1, 4, 1, [
      ⟨"COUNT", 31, 0, .rc, 0, .kept, []⟩]⟩,
    ⟨"SPR_ABORT_RUN", 0x064, 4, 1, 4, 1, [
      ⟨"RUN", 3, 0, .ro, 0, .live, []⟩]⟩ ]

/-- Registers of the SPQ page. -/
def spqRegs : List RegDesc :=
  [ ⟨"SPQ_MAP", 0x040, 4, 1, 4, 1, [
      ⟨"ACTIVE", 16, 0, .ro, 0xFFFF, .live, []⟩]⟩,
    ⟨"SPQ_SPARE", 0x044, 4, 1, 4, 1, [
      ⟨"VALID", 7, 7, .ro, 1, .live, []⟩,
      ⟨"CLUSTER", 6, 0, .ro, 0, .live, []⟩]⟩,
    ⟨"SPQ_REISSUE", 0x048, 4, 1, 4, 1, [
      ⟨"COUNT", 31, 0, .rc, 0, .kept, []⟩]⟩,
    ⟨"SPQ_CACHE_PE", 0x04C, 4, 1, 4, 1, [
      ⟨"COUNT", 31, 0, .rc, 0, .kept, []⟩]⟩ ]

/-- Registers of the SPC page. -/
def spcRegs : List RegDesc :=
  [ ⟨"SPC_ROLE", 0x040, 4, 1, 4, 1, [
      ⟨"ROLE", 1, 0, .ro, 0, .live, []⟩]⟩,
    ⟨"SPC_SPANS", 0x044, 4, 1, 4, 1, [
      ⟨"COUNT", 31, 0, .rc, 0, .kept, []⟩]⟩,
    ⟨"SPC_REISSUE", 0x048, 4, 1, 4, 1, [
      ⟨"COUNT", 31, 0, .rc, 0, .kept, []⟩]⟩,
    ⟨"SPC_CACHE_PE", 0x04C, 4, 1, 4, 1, [
      ⟨"COUNT", 31, 0, .rc, 0, .kept, []⟩]⟩ ]

/-- Registers of the SPE page. -/
def speRegs : List RegDesc :=
  [ ⟨"SPE_SAMPLES", 0x040, 4, 1, 4, 1, [
      ⟨"MCOUNT", 31, 0, .rc, 0, .kept, []⟩]⟩,
    ⟨"SPE_ERRORS", 0x044, 4, 1, 4, 1, [
      ⟨"COUNT", 31, 0, .rc, 0, .kept, []⟩]⟩ ]

/-- What Table 2.6 says of a page: class, instance and parent (the root: no parent). -/
structure PageInfo where
  cls    : Nat
  inst   : Nat
  parent : Option Nat
  deriving DecidableEq, Repr

/-- The page index of Table 2.6, without the bifurcation (R33). -/
def pageInfo (p : Nat) : Option PageInfo :=
  if p = 0 then some ⟨0x0001, 0, none⟩
  else if p ≤ 0x00A then some ⟨0x000F + p, 0, some 0⟩
  else if p = 0x00B then some ⟨0x001A, 0, some 0x00A⟩
  else if p = 0x00C then some ⟨0x001B, 0, some 0⟩
  else if p < 0x010 then none
  else if p < 0x014 then some ⟨0x001C, p - 0x010, some 0⟩
  else if p < 0x018 then some ⟨0x001D, p - 0x014, some (p - 4)⟩
  else if p < 0x01C then some ⟨0x001E, p - 0x018, some (p - 8)⟩
  else if p < 0x020 then some ⟨0x001F, p - 0x01C, some (p - 12)⟩
  else if p = 0x020 then some ⟨0x0020, 0, some 0⟩
  else if p ≤ 0x028 then some ⟨0x0021, p - 0x021, some 0x020⟩
  else if p < 0x030 then none
  else if p = 0x030 then some ⟨0x0030, 0, some 0⟩
  else if p ≤ 0x040 then some ⟨0x0031, p - 0x031, some 0x030⟩
  else if p ≤ 0x043 then some ⟨p - 1, 0, some 0⟩
  else if p < 0x048 then none
  else if p = 0x048 then some ⟨0x0043, 0, some 0⟩
  else if p ≤ 0x04A then some ⟨0x0044, p - 0x049, some 0x048⟩
  else if p < 0x050 then none
  else if p < 0x060 then some ⟨0x0045, p - 0x050, some 0x049⟩
  else if p < 0x070 then some ⟨0x0045, p - 0x050, some 0x04A⟩
  else if p < 0x072 then some ⟨0x0045, p - 0x050, some 0x049⟩
  else if p < 0x074 then some ⟨0x0045, p - 0x050, some 0x04A⟩
  else if p < 0x078 then some ⟨0x0045, p - 0x044, some 0x00C⟩
  else if p < 0x07C then some ⟨0x0045, p - 0x040, some 0x00C⟩
  else if p < 0x080 then none
  else if p = 0x080 then some ⟨0x0050, 0, some 0⟩
  else if p ≤ 0x08C then some ⟨0x0051, p - 0x081, some 0x080⟩
  else if p = 0x090 then some ⟨0x0058, 0, some 0⟩
  else if p < 0x100 then none
  else if p = 0x100 then some ⟨0x0060, 0, some 0⟩
  else if p ≤ 0x104 then some ⟨0x0061, p - 0x101, some 0x100⟩
  else if p < 0x110 then none
  else if p ≤ 0x153 then some ⟨0x0062, p - 0x110, some (0x101 + (p - 0x110) / 17)⟩
  else if p < 0x200 then none
  else if p ≤ 0x30F then some ⟨0x0063, p - 0x200, some (0x110 + (p - 0x200) / 4)⟩
  else none

/-- The host a per-host page belongs to (R43). -/
def pageHost (p : Nat) : Option Nat := if 0x010 ≤ p ∧ p < 0x020 then some (p % 4) else none

/-- The pages whose parent is `p`, in ascending page order (R42, Table 2.6). -/
def kidsOf (p : Nat) : List Nat :=
  if p = 0 then [1, 2, 3, 4, 5, 6, 7, 8, 9, 10, 12, 16, 17, 18, 19, 0x20, 0x30, 0x41, 0x42, 0x43, 0x48, 0x80, 0x90, 0x100]
  else if p = 0x00A then [0x00B]
  else if p = 0x00C then (List.range 8).map (0x074 + ·)
  else if 0x010 ≤ p ∧ p < 0x014 then [p + 4, p + 8, p + 12]
  else if p = 0x020 then (List.range 8).map (0x021 + ·)
  else if p = 0x030 then (List.range 16).map (0x031 + ·)
  else if p = 0x048 then [0x049, 0x04A]
  else if p = 0x049 then (List.range 16).map (0x050 + ·) ++ [0x070, 0x071]
  else if p = 0x04A then (List.range 16).map (0x060 + ·) ++ [0x072, 0x073]
  else if p = 0x080 then (List.range 12).map (0x081 + ·)
  else if p = 0x100 then [0x101, 0x102, 0x103, 0x104]
  else if 0x101 ≤ p ∧ p ≤ 0x104 then (List.range 17).map (fun i => 0x110 + 17 * (p - 0x101) + i)
  else if 0x110 ≤ p ∧ p ≤ 0x153 then (List.range 4).map (fun i => 0x200 + 4 * (p - 0x110) + i)
  else []

/-- The always-on pages of R516, whose UNIT_CTRL.RESET is not writable. -/
def alwaysOnPage (p : Nat) : Bool := decide (4 ≤ p ∧ p ≤ 7)

/-- Cold value and access of UNIT_CTRL.ENABLE by class (each unit's chapter; the root and the Spire cells: log 21). -/
def enableOf (cls : Nat) : Nat × Acc :=
  if cls ∈ [0x0001, 0x0063, 0x0012, 0x001D, 0x001F, 0x0030, 0x0031, 0x0040, 0x0045, 0x0051, 0x0062] then (1, .rw)
  else if cls ∈ [0x001A, 0x001B, 0x0044, 0x0050, 0x0058] then (0, .rw)
  else (1, .ro)

/-- How many unit events a class defines, from bit 16 up (each unit's chapter). -/
def unitEvents (cls : Nat) : Nat :=
  match cls with
  | 0x0001 => 1 | 0x0010 => 7 | 0x0011 => 1 | 0x0012 => 3 | 0x0013 => 2 | 0x0014 => 4 | 0x0015 => 3 | 0x0016 => 2
  | 0x0017 => 4 | 0x0018 => 1 | 0x0019 => 8 | 0x001A => 5 | 0x001B => 9 | 0x001C => 5 | 0x001D => 3 | 0x001E => 3
  | 0x001F => 2 | 0x0020 => 5 | 0x0030 => 2 | 0x0040 => 4 | 0x0041 => 6 | 0x0042 => 5 | 0x0044 => 8 | 0x0045 => 3
  | 0x0051 => 6 | 0x0058 => 6 | 0x0060 => 6 | _ => 0

/-- The common page header of a page; UNIT_EVENT_EN has the positions of the class's events, the others read 0 (Tables 2.2 and 2.3, R4, R45, R585). -/
def headerRegs (p : Nat) (i : PageInfo) : List RegDesc :=
  [ ⟨"UNIT_ID", 0x000, 4, 1, 4, 1, [⟨"CLASS", 31, 16, .ro, i.cls, .kept, []⟩, ⟨"INSTANCE", 15, 0, .ro, i.inst, .kept, []⟩]⟩,
    ⟨"UNIT_REV", 0x004, 4, 1, 4, 1, [⟨"REV", 15, 0, .ro, if p = 0 then 0x4101 else 0x0100, .kept, []⟩]⟩,
    ⟨"UNIT_PARENT", 0x008, 4, 1, 4, 1, [⟨"PAGE", 15, 0, .ro, i.parent.getD 0, .kept, []⟩]⟩,
    ⟨"UNIT_CHILD", 0x00C, 4, 1, 4, 1, [⟨"COUNT", 31, 16, .ro, 0, .kept, []⟩, ⟨"FIRST", 15, 0, .ro, 0, .kept, []⟩]⟩,
    ⟨"UNIT_NEXT", 0x010, 4, 1, 4, 1, [⟨"PAGE", 15, 0, .ro, 0, .kept, []⟩]⟩,
    ⟨"UNIT_STATE", 0x014, 4, 1, 4, 1, [⟨"CNT_FAULT", 31, 24, .ro, 0, .live, []⟩, ⟨"CNT_RETIRED", 23, 16, .ro, 0, .live, []⟩,
      ⟨"CNT_DEGRADED", 15, 8, .ro, 0, .live, []⟩, ⟨"WORST", 7, 4, .ro, 0, .live, []⟩, ⟨"STATE", 3, 0, .ro, 0, .live, []⟩]⟩,
    ⟨"UNIT_EVENT", 0x018, 4, 1, 4, 1, [⟨"UNIT", 31, 16, .w1c, 0, .kept, []⟩, ⟨"CHILD", 7, 7, .ro, 0, .live, []⟩,
      ⟨"COUNT_SAT", 2, 2, .w1c, 0, .kept, []⟩, ⟨"FAULT", 1, 1, .w1c, 0, .kept, []⟩, ⟨"STATE", 0, 0, .w1c, 0, .kept, []⟩]⟩,
    ⟨"UNIT_EVENT_EN", 0x01C, 4, 1, 4, 1, (if unitEvents i.cls = 0 then [] else [⟨"UNIT", 15 + unitEvents i.cls, 16, .rw, 0, .kept, []⟩]) ++
      [⟨"CHILD", 7, 7, .rw, 0, .kept, []⟩, ⟨"LOW", 2, 0, .rw, 0, .kept, []⟩]⟩,
    ⟨"UNIT_CTRL", 0x020, 4, 1, 4, 1, [⟨"VECTOR", 15, 8, .rw, 1, .kept, [(1, 255)]⟩, ⟨"TEST_HOLD", 2, 2, .rw, 0, .val 0, []⟩,
      ⟨"RESET", 1, 1, if alwaysOnPage p then .ro else .w1s, 0, .val 0, []⟩,
      ⟨"ENABLE", 0, 0, (enableOf i.cls).2, (enableOf i.cls).1, .kept, []⟩]⟩,
    ⟨"UNIT_FAULT", 0x024, 4, 1, 4, 1, [⟨"VALID", 31, 31, .w1c, 0, .kept, []⟩, ⟨"CODE", 15, 0, .ro, 0, .kept, []⟩]⟩,
    ⟨"UNIT_COUNT", 0x028, 4, 1, 4, 1, [⟨"COUNT", 31, 0, .rc, 0, .kept, []⟩]⟩,
    ⟨"UNIT_OWNER", 0x02C, 4, 1, 4, 1, [⟨"HOSTS", 3, 0, if (pageHost p).isSome then .ro else .rw,
      match pageHost p with | some h => 2 ^ h | none => 1, .kept, []⟩]⟩ ]

/-- The unit-specific registers of a page, from the table of its class. -/
def classRegs (p : Nat) : List RegDesc :=
  if p = 0 then dirRegs else if p = 1 then hlmRegs else if p = 2 then kepRegs else if p = 3 then wchRegs
  else if p = 4 then admRegs else if p = 5 then pwrRegs else if p = 6 then rstRegs else if p = 7 then clkRegs
  else if p = 8 then thmRegs else if p = 9 then calRegs else if p = 10 then sxtRegs else if p = 11 then ethRegs
  else if p = 12 then parRegs else if p < 0x014 then hstRegs else if p < 0x018 then cmdRegs else if p < 0x01C then txnRegs
  else if p < 0x020 then twdRegs else if p = 0x020 then domRegs else if p ≤ 0x028 then stkRegs else if p = 0x030 then cdcRegs
  else if p ≤ 0x040 then engRegs else if p = 0x041 then cmpRegs else if p = 0x042 then frsRegs else if p = 0x043 then scoRegs
  else if p = 0x048 then pnlRegs else if p ≤ 0x04A then prtRegs else if p < 0x07C then lnkRegs else if p = 0x080 then bcnRegs
  else if p ≤ 0x08C then zoneRegs else if p = 0x090 then blfRegs else if p = 0x100 then sprRegs else if p ≤ 0x104 then spqRegs
  else if p ≤ 0x153 then spcRegs else speRegs

/-- The descriptor of the register at a key, for a page of Table 2.6 (the lower 32 bits of a key: page × 4096 + offset). -/
def descAt (key : Nat) : Option RegDesc :=
  match pageInfo (key / 4096) with
  | none => none
  | some i =>
    if key % 4096 < 0x40 then (headerRegs (key / 4096) i).find? (·.hits (key % 4096))
    else (classRegs (key / 4096)).find? (·.hits (key % 4096))

/-- Nominal millivolts of the ten rails (Table 18.1). -/
def railNominal : List Nat := [700, 750, 1050, 1800, 900, 1200, 1800, 850, 12000, 12000]

/-- Cold values that a register table gives as a formula over the page or index: LNK_STATUS kind, physical lane, logical lane and role of a lane page (Table 12.11), PWR_DOM_ON (the always-on domain, R494), PWR_RAIL nominal values (Table 18.1), HLM_SLOT (slot 0 active, slot 1 empty, R546), SPQ_SPARE (R187), SPC_ROLE (R188). -/
def coldFormula (key : Nat) : Option Nat :=
  let p := key / 4096
  let o := key % 4096
  if 0x050 ≤ p ∧ p < 0x07C ∧ o = 0x044 then
    let l := p - 0x050
    let kind := if l < 32 then 0 else if l < 36 then 1 else if l < 40 then 2 else 3
    let phys := if l < 32 then l % 16 else if l < 36 then l % 2 else l % 4
    let role := if 36 ≤ l then 3 else if 32 ≤ l then 0 else if phys < 12 then 0 else if phys < 15 then 1 else 2
    let logical := if 36 ≤ l then 0xF else if 32 ≤ l then 0 else if phys < 12 then phys else 0xF
    some (kind * 2 ^ 30 + phys * 2 ^ 20 + logical * 2 ^ 16 + role * 2 ^ 14)
  else if 0x101 ≤ p ∧ p ≤ 0x104 ∧ o = 0x044 then some (0x80 + 17 * (p - 0x101) + 16)
  else if 0x110 ≤ p ∧ p ≤ 0x153 ∧ o = 0x040 then some (if (p - 0x110) % 17 = 16 then 1 else 0)
  else if p = 0x005 ∧ o = 0x060 then some 1
  else if p = 0x005 ∧ 0x080 ≤ o ∧ o < 0x0A8 then
    (railNominal[(o - 0x080) / 4]?).map (fun v => v * 65536 + v)
  else if p = 0x001 ∧ o = 0x044 then some (3 * 2 ^ 28)
  else none

/-- The value a register holds after a cold reset (R34), by key. A per-host copy (R46) has the cold value of its register. -/
def coldWord (key : Nat) : BitVec 32 :=
  let k := key % 2 ^ 22
  match coldFormula k with
  | some v => BitVec.ofNat 32 v
  | none =>
    match descAt k with
    | some d => BitVec.ofNat 32 d.cold
    | none => 0


/-- DIR_SELF (02). -/
def Reg.dirSelf : Nat := 0x40
def Reg.dirSelf_OWNER : FieldRef := ⟨Reg.dirSelf, 31, 31⟩
def Reg.dirSelf_HOST : FieldRef := ⟨Reg.dirSelf, 25, 24⟩
def Reg.dirSelf_BIFUR : FieldRef := ⟨Reg.dirSelf, 17, 16⟩
/-- DIR_SIZE (02). -/
def Reg.dirSize : Nat := 0x44
def Reg.dirSize_PAGES : FieldRef := ⟨Reg.dirSize, 31, 16⟩
def Reg.dirSize_LAST : FieldRef := ⟨Reg.dirSize, 15, 0⟩
/-- CFG_CTRL (02). -/
def Reg.cfgCtrl : Nat := 0x48
def Reg.cfgCtrl_STRICT : FieldRef := ⟨Reg.cfgCtrl, 9, 9⟩
def Reg.cfgCtrl_WHEN : FieldRef := ⟨Reg.cfgCtrl, 8, 8⟩
def Reg.cfgCtrl_OP : FieldRef := ⟨Reg.cfgCtrl, 1, 0⟩
/-- CFG_STATUS (02). -/
def Reg.cfgStatus : Nat := 0x4C
def Reg.cfgStatus_OPEN : FieldRef := ⟨Reg.cfgStatus, 31, 31⟩
def Reg.cfgStatus_SEALED : FieldRef := ⟨Reg.cfgStatus, 30, 30⟩
def Reg.cfgStatus_HOLDER : FieldRef := ⟨Reg.cfgStatus, 29, 28⟩
def Reg.cfgStatus_LAST : FieldRef := ⟨Reg.cfgStatus, 23, 16⟩
def Reg.cfgStatus_STAGED : FieldRef := ⟨Reg.cfgStatus, 11, 0⟩
/-- CFG_AT (02). -/
def Reg.cfgAt : Nat := 0x50
def Reg.cfgAt_TARGET : FieldRef := ⟨Reg.cfgAt, 31, 0⟩
/-- CFG_LATE (02). -/
def Reg.cfgLate : Nat := 0x54
def Reg.cfgLate_LATENESS : FieldRef := ⟨Reg.cfgLate, 31, 0⟩
/-- CMP_CTRL (03). -/
def Reg.cmpCtrl : Nat := 0x41040
def Reg.cmpCtrl_BGR : FieldRef := ⟨Reg.cmpCtrl, 2, 2⟩
def Reg.cmpCtrl_MIRROR : FieldRef := ⟨Reg.cmpCtrl, 1, 1⟩
def Reg.cmpCtrl_LCT_EN : FieldRef := ⟨Reg.cmpCtrl, 0, 0⟩
/-- CMP_SIZE (03). -/
def Reg.cmpSize : Nat := 0x41044
def Reg.cmpSize_HEIGHT : FieldRef := ⟨Reg.cmpSize, 31, 16⟩
def Reg.cmpSize_WIDTH : FieldRef := ⟨Reg.cmpSize, 15, 0⟩
/-- CMP_PITCH (03). -/
def Reg.cmpPitch : Nat := 0x41048
def Reg.cmpPitch_PITCH : FieldRef := ⟨Reg.cmpPitch, 31, 0⟩
/-- CMP_SLANT (03). -/
def Reg.cmpSlant : Nat := 0x4104C
def Reg.cmpSlant_SLANT : FieldRef := ⟨Reg.cmpSlant, 31, 0⟩
/-- CMP_OFFSET (03). -/
def Reg.cmpOffset : Nat := 0x41050
def Reg.cmpOffset_OFFSET : FieldRef := ⟨Reg.cmpOffset, 31, 0⟩
/-- CMP_DMAX (03). -/
def Reg.cmpDmax : Nat := 0x41054
def Reg.cmpDmax_DMAX : FieldRef := ⟨Reg.cmpDmax, 14, 0⟩
/-- CMP_KMAX (03). -/
def Reg.cmpKmax : Nat := 0x41058
def Reg.cmpKmax_KMAX : FieldRef := ⟨Reg.cmpKmax, 15, 0⟩
/-- CMP_LCT_ID (03). -/
def Reg.cmpLctId : Nat := 0x4105C
def Reg.cmpLctId_PANEL_ID : FieldRef := ⟨Reg.cmpLctId, 31, 0⟩
/-- CMP_LCT_CRC (03). -/
def Reg.cmpLctCrc : Nat := 0x41060
def Reg.cmpLctCrc_CRC : FieldRef := ⟨Reg.cmpLctCrc, 31, 0⟩
/-- CMP_LCT_CRC_LIVE (03). -/
def Reg.cmpLctCrcLive : Nat := 0x41064
def Reg.cmpLctCrcLive_CRC : FieldRef := ⟨Reg.cmpLctCrcLive, 31, 0⟩
/-- CMP_PROBE_XY (03). -/
def Reg.cmpProbeXy : Nat := 0x41070
def Reg.cmpProbeXy_C : FieldRef := ⟨Reg.cmpProbeXy, 31, 30⟩
def Reg.cmpProbeXy_Y : FieldRef := ⟨Reg.cmpProbeXy, 29, 16⟩
def Reg.cmpProbeXy_X : FieldRef := ⟨Reg.cmpProbeXy, 13, 0⟩
/-- CMP_PROBE_OUT (03). -/
def Reg.cmpProbeOut : Nat := 0x41074
def Reg.cmpProbeOut_VALID : FieldRef := ⟨Reg.cmpProbeOut, 31, 31⟩
def Reg.cmpProbeOut_RANGE : FieldRef := ⟨Reg.cmpProbeOut, 16, 16⟩
def Reg.cmpProbeOut_W : FieldRef := ⟨Reg.cmpProbeOut, 15, 0⟩
/-- CMP_K (03). -/
def Reg.cmpK (i : Nat) : Nat := 0x41100 + 4 * i
def Reg.cmpK_K_ODD (i : Nat) : FieldRef := ⟨(Reg.cmpK i), 31, 16⟩
def Reg.cmpK_K_EVEN (i : Nat) : FieldRef := ⟨(Reg.cmpK i), 15, 0⟩
/-- CMP_LCT (03). -/
def Reg.cmpLct (i : Nat) : Nat := 0x41400 + 4 * i
def Reg.cmpLct_NODE_ODD (i : Nat) : FieldRef := ⟨(Reg.cmpLct i), 31, 16⟩
def Reg.cmpLct_NODE_EVEN (i : Nat) : FieldRef := ⟨(Reg.cmpLct i), 15, 0⟩
/-- QTA_CTX (04). -/
def Reg.qtaCtx (h : Nat) : Nat := 0x14100 + 4096 * h
def Reg.qtaCtx_LIMIT (h : Nat) : FieldRef := ⟨(Reg.qtaCtx h), 31, 16⟩
def Reg.qtaCtx_RESERVE (h : Nat) : FieldRef := ⟨(Reg.qtaCtx h), 15, 0⟩
/-- QTA_LAYER (04). -/
def Reg.qtaLayer (h : Nat) : Nat := 0x14104 + 4096 * h
def Reg.qtaLayer_LIMIT (h : Nat) : FieldRef := ⟨(Reg.qtaLayer h), 31, 16⟩
def Reg.qtaLayer_RESERVE (h : Nat) : FieldRef := ⟨(Reg.qtaLayer h), 15, 0⟩
/-- QTA_REGION (04). -/
def Reg.qtaRegion (h : Nat) : Nat := 0x14108 + 4096 * h
def Reg.qtaRegion_LIMIT (h : Nat) : FieldRef := ⟨(Reg.qtaRegion h), 31, 16⟩
def Reg.qtaRegion_RESERVE (h : Nat) : FieldRef := ⟨(Reg.qtaRegion h), 15, 0⟩
/-- QTA_TXN (04). -/
def Reg.qtaTxn (h : Nat) : Nat := 0x1410C + 4096 * h
def Reg.qtaTxn_LIMIT (h : Nat) : FieldRef := ⟨(Reg.qtaTxn h), 24, 16⟩
def Reg.qtaTxn_RESERVE (h : Nat) : FieldRef := ⟨(Reg.qtaTxn h), 8, 0⟩
/-- QTA_SLOT_LIMIT (04). -/
def Reg.qtaSlotLimit (h : Nat) : Nat := 0x14110 + 4096 * h
def Reg.qtaSlotLimit_LIMIT (h : Nat) : FieldRef := ⟨(Reg.qtaSlotLimit h), 17, 0⟩
/-- QTA_SLOT_RESERVE (04). -/
def Reg.qtaSlotReserve (h : Nat) : Nat := 0x14114 + 4096 * h
def Reg.qtaSlotReserve_RESERVE (h : Nat) : FieldRef := ⟨(Reg.qtaSlotReserve h), 17, 0⟩
/-- QTA_MEM_LIMIT (04). -/
def Reg.qtaMemLimit (h : Nat) : Nat := 0x14118 + 4096 * h
def Reg.qtaMemLimit_LIMIT (h : Nat) : FieldRef := ⟨(Reg.qtaMemLimit h), 20, 0⟩
/-- QTA_MEM_RESERVE (04). -/
def Reg.qtaMemReserve (h : Nat) : Nat := 0x1411C + 4096 * h
def Reg.qtaMemReserve_RESERVE (h : Nat) : FieldRef := ⟨(Reg.qtaMemReserve h), 20, 0⟩
/-- USE_CTX (04). -/
def Reg.useCtx (h : Nat) : Nat := 0x14120 + 4096 * h
def Reg.useCtx_USED (h : Nat) : FieldRef := ⟨(Reg.useCtx h), 15, 0⟩
/-- USE_LAYER (04). -/
def Reg.useLayer (h : Nat) : Nat := 0x14124 + 4096 * h
def Reg.useLayer_USED (h : Nat) : FieldRef := ⟨(Reg.useLayer h), 15, 0⟩
/-- USE_REGION (04). -/
def Reg.useRegion (h : Nat) : Nat := 0x14128 + 4096 * h
def Reg.useRegion_USED (h : Nat) : FieldRef := ⟨(Reg.useRegion h), 12, 0⟩
/-- USE_TXN (04). -/
def Reg.useTxn (h : Nat) : Nat := 0x1412C + 4096 * h
def Reg.useTxn_USED (h : Nat) : FieldRef := ⟨(Reg.useTxn h), 8, 0⟩
/-- USE_SLOT (04). -/
def Reg.useSlot (h : Nat) : Nat := 0x14130 + 4096 * h
def Reg.useSlot_USED (h : Nat) : FieldRef := ⟨(Reg.useSlot h), 17, 0⟩
/-- USE_MEM (04). -/
def Reg.useMem (h : Nat) : Nat := 0x14134 + 4096 * h
def Reg.useMem_USED (h : Nat) : FieldRef := ⟨(Reg.useMem h), 20, 0⟩
/-- QTA_REJ (04). -/
def Reg.qtaRej (h : Nat) : Nat := 0x14138 + 4096 * h
def Reg.qtaRej_COUNT (h : Nat) : FieldRef := ⟨(Reg.qtaRej h), 31, 0⟩
/-- QTA_LAST (04). -/
def Reg.qtaLast (h : Nat) : Nat := 0x1413C + 4096 * h
def Reg.qtaLast_RESOURCE (h : Nat) : FieldRef := ⟨(Reg.qtaLast h), 3, 0⟩
/-- CDC_CTRL (05). -/
def Reg.cdcCtrl : Nat := 0x30040
def Reg.cdcCtrl_ENGINES : FieldRef := ⟨Reg.cdcCtrl, 4, 0⟩
/-- CDC_LEAVE (05). -/
def Reg.cdcLeave : Nat := 0x30044
def Reg.cdcLeave_GROUP_UNITS : FieldRef := ⟨Reg.cdcLeave, 15, 8⟩
def Reg.cdcLeave_ENGINE_UNITS : FieldRef := ⟨Reg.cdcLeave, 7, 0⟩
/-- CDC_QUEUE (05). -/
def Reg.cdcQueue : Nat := 0x30048
def Reg.cdcQueue_DECODES : FieldRef := ⟨Reg.cdcQueue, 31, 16⟩
def Reg.cdcQueue_JOBS : FieldRef := ⟨Reg.cdcQueue, 15, 0⟩
/-- CDC_TILES (05). -/
def Reg.cdcTiles : Nat := 0x3004C
def Reg.cdcTiles_COUNT : FieldRef := ⟨Reg.cdcTiles, 31, 0⟩
/-- CDC_DAMAGED (05). -/
def Reg.cdcDamaged : Nat := 0x30050
def Reg.cdcDamaged_COUNT : FieldRef := ⟨Reg.cdcDamaged, 31, 0⟩
/-- CDC_SKIPPED (05). -/
def Reg.cdcSkipped : Nat := 0x30054
def Reg.cdcSkipped_COUNT : FieldRef := ⟨Reg.cdcSkipped, 31, 0⟩
/-- CDC_STREAM_BAD (05). -/
def Reg.cdcStreamBad : Nat := 0x30058
def Reg.cdcStreamBad_COUNT : FieldRef := ⟨Reg.cdcStreamBad, 31, 0⟩
/-- ENG_JOB (05). -/
def Reg.engJob (e : Nat) : Nat := 0x31040 + 4096 * e
def Reg.engJob_ACTIVE (e : Nat) : FieldRef := ⟨(Reg.engJob e), 31, 31⟩
def Reg.engJob_WAIT_LEAVE (e : Nat) : FieldRef := ⟨(Reg.engJob e), 30, 30⟩
def Reg.engJob_HOST (e : Nat) : FieldRef := ⟨(Reg.engJob e), 29, 28⟩
def Reg.engJob_PLANE (e : Nat) : FieldRef := ⟨(Reg.engJob e), 16, 16⟩
def Reg.engJob_LAYER (e : Nat) : FieldRef := ⟨(Reg.engJob e), 15, 0⟩
/-- ENG_TILE (05). -/
def Reg.engTile (e : Nat) : Nat := 0x31044 + 4096 * e
def Reg.engTile_TY (e : Nat) : FieldRef := ⟨(Reg.engTile e), 31, 16⟩
def Reg.engTile_TX (e : Nat) : FieldRef := ⟨(Reg.engTile e), 15, 0⟩
/-- ENG_TILES (05). -/
def Reg.engTiles (e : Nat) : Nat := 0x31048 + 4096 * e
def Reg.engTiles_COUNT (e : Nat) : FieldRef := ⟨(Reg.engTiles e), 31, 0⟩
/-- ENG_DAMAGED (05). -/
def Reg.engDamaged (e : Nat) : Nat := 0x3104C + 4096 * e
def Reg.engDamaged_COUNT (e : Nat) : FieldRef := ⟨(Reg.engDamaged e), 31, 0⟩
/-- ENG_BUSY (05). -/
def Reg.engBusy (e : Nat) : Nat := 0x31050 + 4096 * e
def Reg.engBusy_KCLK (e : Nat) : FieldRef := ⟨(Reg.engBusy e), 31, 0⟩
/-- SPR_CTRL (06). -/
def Reg.sprCtrl : Nat := 0x100040
def Reg.sprCtrl_AUTOCAP_EN : FieldRef := ⟨Reg.sprCtrl, 15, 15⟩
def Reg.sprCtrl_PF_EN : FieldRef := ⟨Reg.sprCtrl, 8, 8⟩
def Reg.sprCtrl_CAP : FieldRef := ⟨Reg.sprCtrl, 4, 0⟩
/-- SPR_BG (06). -/
def Reg.sprBg : Nat := 0x100044
def Reg.sprBg_B : FieldRef := ⟨Reg.sprBg, 29, 20⟩
def Reg.sprBg_G : FieldRef := ⟨Reg.sprBg, 19, 10⟩
def Reg.sprBg_R : FieldRef := ⟨Reg.sprBg, 9, 0⟩
/-- SPR_LIMITS (06). -/
def Reg.sprLimits : Nat := 0x100048
def Reg.sprLimits_AUTOCAP : FieldRef := ⟨Reg.sprLimits, 15, 15⟩
def Reg.sprLimits_L2 : FieldRef := ⟨Reg.sprLimits, 14, 14⟩
def Reg.sprLimits_PF : FieldRef := ⟨Reg.sprLimits, 8, 8⟩
def Reg.sprLimits_CAP : FieldRef := ⟨Reg.sprLimits, 4, 0⟩
/-- SPR_BUDGET (06). -/
def Reg.sprBudget : Nat := 0x10004C
def Reg.sprBudget_BUDGET : FieldRef := ⟨Reg.sprBudget, 31, 0⟩
/-- SPR_DEMAND (06). -/
def Reg.sprDemand : Nat := 0x100050
def Reg.sprDemand_DEMAND : FieldRef := ⟨Reg.sprDemand, 31, 0⟩
/-- SPR_DEMAND_PEAK (06). -/
def Reg.sprDemandPeak : Nat := 0x100054
def Reg.sprDemandPeak_PEAK : FieldRef := ⟨Reg.sprDemandPeak, 31, 0⟩
/-- SPR_DEMAND_THR (06). -/
def Reg.sprDemandThr : Nat := 0x100058
def Reg.sprDemandThr_PCT : FieldRef := ⟨Reg.sprDemandThr, 6, 0⟩
/-- SPR_CAPPED (06). -/
def Reg.sprCapped : Nat := 0x10005C
def Reg.sprCapped_COUNT : FieldRef := ⟨Reg.sprCapped, 31, 0⟩
/-- SPR_GATHER_ECC (06). -/
def Reg.sprGatherEcc : Nat := 0x100060
def Reg.sprGatherEcc_COUNT : FieldRef := ⟨Reg.sprGatherEcc, 31, 0⟩
/-- SPR_ABORT_RUN (06). -/
def Reg.sprAbortRun : Nat := 0x100064
def Reg.sprAbortRun_RUN : FieldRef := ⟨Reg.sprAbortRun, 3, 0⟩
/-- SPQ_MAP (06). -/
def Reg.spqMap (q : Nat) : Nat := 0x101040 + 4096 * q
def Reg.spqMap_ACTIVE (q : Nat) : FieldRef := ⟨(Reg.spqMap q), 16, 0⟩
/-- SPQ_SPARE (06). -/
def Reg.spqSpare (q : Nat) : Nat := 0x101044 + 4096 * q
def Reg.spqSpare_VALID (q : Nat) : FieldRef := ⟨(Reg.spqSpare q), 7, 7⟩
def Reg.spqSpare_CLUSTER (q : Nat) : FieldRef := ⟨(Reg.spqSpare q), 6, 0⟩
/-- SPQ_REISSUE (06). -/
def Reg.spqReissue (q : Nat) : Nat := 0x101048 + 4096 * q
def Reg.spqReissue_COUNT (q : Nat) : FieldRef := ⟨(Reg.spqReissue q), 31, 0⟩
/-- SPQ_CACHE_PE (06). -/
def Reg.spqCachePe (q : Nat) : Nat := 0x10104C + 4096 * q
def Reg.spqCachePe_COUNT (q : Nat) : FieldRef := ⟨(Reg.spqCachePe q), 31, 0⟩
/-- SPC_ROLE (06). -/
def Reg.spcRole (c : Nat) : Nat := 0x110040 + 4096 * c
def Reg.spcRole_ROLE (c : Nat) : FieldRef := ⟨(Reg.spcRole c), 1, 0⟩
/-- SPC_SPANS (06). -/
def Reg.spcSpans (c : Nat) : Nat := 0x110044 + 4096 * c
def Reg.spcSpans_COUNT (c : Nat) : FieldRef := ⟨(Reg.spcSpans c), 31, 0⟩
/-- SPC_REISSUE (06). -/
def Reg.spcReissue (c : Nat) : Nat := 0x110048 + 4096 * c
def Reg.spcReissue_COUNT (c : Nat) : FieldRef := ⟨(Reg.spcReissue c), 31, 0⟩
/-- SPC_CACHE_PE (06). -/
def Reg.spcCachePe (c : Nat) : Nat := 0x11004C + 4096 * c
def Reg.spcCachePe_COUNT (c : Nat) : FieldRef := ⟨(Reg.spcCachePe c), 31, 0⟩
/-- SPE_SAMPLES (06). -/
def Reg.speSamples (k : Nat) : Nat := 0x200040 + 4096 * k
def Reg.speSamples_MCOUNT (k : Nat) : FieldRef := ⟨(Reg.speSamples k), 31, 0⟩
/-- SPE_ERRORS (06). -/
def Reg.speErrors (k : Nat) : Nat := 0x200044 + 4096 * k
def Reg.speErrors_COUNT (k : Nat) : FieldRef := ⟨(Reg.speErrors k), 31, 0⟩
/-- SCO_CTRL (07). -/
def Reg.scoCtrl : Nat := 0x43040
def Reg.scoCtrl_RATE : FieldRef := ⟨Reg.scoCtrl, 17, 16⟩
def Reg.scoCtrl_OD_BANK : FieldRef := ⟨Reg.scoCtrl, 9, 9⟩
def Reg.scoCtrl_OD_EN : FieldRef := ⟨Reg.scoCtrl, 8, 8⟩
def Reg.scoCtrl_DBITS : FieldRef := ⟨Reg.scoCtrl, 3, 0⟩
/-- SCO_STATUS (07). -/
def Reg.scoStatus : Nat := 0x43044
def Reg.scoStatus_RATE : FieldRef := ⟨Reg.scoStatus, 31, 30⟩
def Reg.scoStatus_BY_THERMAL : FieldRef := ⟨Reg.scoStatus, 29, 29⟩
def Reg.scoStatus_BY_PORT : FieldRef := ⟨Reg.scoStatus, 28, 28⟩
def Reg.scoStatus_BAND : FieldRef := ⟨Reg.scoStatus, 24, 22⟩
def Reg.scoStatus_DARK : FieldRef := ⟨Reg.scoStatus, 21, 21⟩
def Reg.scoStatus_BUF : FieldRef := ⟨Reg.scoStatus, 20, 20⟩
def Reg.scoStatus_SLOT : FieldRef := ⟨Reg.scoStatus, 18, 16⟩
/-- SCO_VTIMING (07). -/
def Reg.scoVtiming : Nat := 0x43048
def Reg.scoVtiming_V_TOTAL : FieldRef := ⟨Reg.scoVtiming, 31, 16⟩
def Reg.scoVtiming_V_ACTIVE : FieldRef := ⟨Reg.scoVtiming, 15, 0⟩
/-- SCO_SUBFRAME (07). -/
def Reg.scoSubframe : Nat := 0x4304C
def Reg.scoSubframe_J : FieldRef := ⟨Reg.scoSubframe, 31, 0⟩
/-- SCO_NEXT_CUT (07). -/
def Reg.scoNextCut : Nat := 0x43050
def Reg.scoNextCut_TIME : FieldRef := ⟨Reg.scoNextCut, 31, 0⟩
/-- SCO_LW (07). -/
def Reg.scoLw : Nat := 0x43054
def Reg.scoLw_LW_START : FieldRef := ⟨Reg.scoLw, 31, 16⟩
def Reg.scoLw_LW_LEN : FieldRef := ⟨Reg.scoLw, 15, 0⟩
/-- SCO_LW_STEP (07). -/
def Reg.scoLwStep : Nat := 0x43058
def Reg.scoLwStep_LW_STEP : FieldRef := ⟨Reg.scoLwStep, 15, 0⟩
/-- SCO_CLOSED (07). -/
def Reg.scoClosed : Nat := 0x4305C
def Reg.scoClosed_CL_START : FieldRef := ⟨Reg.scoClosed, 31, 16⟩
def Reg.scoClosed_CL_LEN : FieldRef := ⟨Reg.scoClosed, 15, 0⟩
/-- SCO_OD_THR0 (07). -/
def Reg.scoOdThr0 : Nat := 0x43060
def Reg.scoOdThr0_T3 : FieldRef := ⟨Reg.scoOdThr0, 31, 24⟩
def Reg.scoOdThr0_T2 : FieldRef := ⟨Reg.scoOdThr0, 23, 16⟩
def Reg.scoOdThr0_T1 : FieldRef := ⟨Reg.scoOdThr0, 15, 8⟩
def Reg.scoOdThr0_T0 : FieldRef := ⟨Reg.scoOdThr0, 7, 0⟩
/-- SCO_OD_THR1 (07). -/
def Reg.scoOdThr1 : Nat := 0x43064
def Reg.scoOdThr1_T6 : FieldRef := ⟨Reg.scoOdThr1, 23, 16⟩
def Reg.scoOdThr1_T5 : FieldRef := ⟨Reg.scoOdThr1, 15, 8⟩
def Reg.scoOdThr1_T4 : FieldRef := ⟨Reg.scoOdThr1, 7, 0⟩
/-- SCO_OD_ADDR (07). -/
def Reg.scoOdAddr : Nat := 0x43068
def Reg.scoOdAddr_BANK : FieldRef := ⟨Reg.scoOdAddr, 17, 17⟩
def Reg.scoOdAddr_BAND : FieldRef := ⟨Reg.scoOdAddr, 16, 14⟩
def Reg.scoOdAddr_CH : FieldRef := ⟨Reg.scoOdAddr, 13, 12⟩
def Reg.scoOdAddr_PI : FieldRef := ⟨Reg.scoOdAddr, 11, 6⟩
def Reg.scoOdAddr_TI : FieldRef := ⟨Reg.scoOdAddr, 5, 0⟩
/-- SCO_OD_DATA (07). -/
def Reg.scoOdData : Nat := 0x4306C
def Reg.scoOdData_NODE : FieldRef := ⟨Reg.scoOdData, 10, 0⟩
/-- SCO_PANEL_TEMP (07). -/
def Reg.scoPanelTemp : Nat := 0x43070
def Reg.scoPanelTemp_VALID : FieldRef := ⟨Reg.scoPanelTemp, 16, 16⟩
def Reg.scoPanelTemp_TEMP : FieldRef := ⟨Reg.scoPanelTemp, 15, 0⟩
/-- SCO_UNDERRUN (07). -/
def Reg.scoUnderrun : Nat := 0x43074
def Reg.scoUnderrun_COUNT : FieldRef := ⟨Reg.scoUnderrun, 31, 0⟩
/-- SCO_ABORTED (07). -/
def Reg.scoAborted : Nat := 0x43078
def Reg.scoAborted_COUNT : FieldRef := ⟨Reg.scoAborted, 31, 0⟩
/-- SCO_LINE_FAIL (07). -/
def Reg.scoLineFail : Nat := 0x4307C
def Reg.scoLineFail_COUNT : FieldRef := ⟨Reg.scoLineFail, 31, 0⟩
/-- SCO_SECDED (07). -/
def Reg.scoSecded : Nat := 0x43080
def Reg.scoSecded_COUNT : FieldRef := ⟨Reg.scoSecded, 31, 0⟩
/-- SCO_WAIT (07). -/
def Reg.scoWait : Nat := 0x43084
def Reg.scoWait_COUNT : FieldRef := ⟨Reg.scoWait, 31, 0⟩
/-- SCO_SIG_J (07). -/
def Reg.scoSigJ : Nat := 0x43088
def Reg.scoSigJ_J : FieldRef := ⟨Reg.scoSigJ, 31, 0⟩
/-- SCO_RSIG (07). -/
def Reg.scoRsig : Nat := 0x4308C
def Reg.scoRsig_RSIG : FieldRef := ⟨Reg.scoRsig, 31, 0⟩
/-- SCO_TSIG (07). -/
def Reg.scoTsig : Nat := 0x43090
def Reg.scoTsig_TSIG : FieldRef := ⟨Reg.scoTsig, 31, 0⟩
/-- FRS_CTRL (08). -/
def Reg.frsCtrl : Nat := 0x42040
def Reg.frsCtrl_FORCE_ALL : FieldRef := ⟨Reg.frsCtrl, 0, 0⟩
/-- FRS_STATUS (08). -/
def Reg.frsStatus : Nat := 0x42044
def Reg.frsStatus_GLOBAL : FieldRef := ⟨Reg.frsStatus, 31, 31⟩
def Reg.frsStatus_TICK_LOCAL : FieldRef := ⟨Reg.frsStatus, 30, 30⟩
def Reg.frsStatus_VEIL_DARK : FieldRef := ⟨Reg.frsStatus, 29, 29⟩
def Reg.frsStatus_CRIT_STALE : FieldRef := ⟨Reg.frsStatus, 28, 16⟩
def Reg.frsStatus_STALE : FieldRef := ⟨Reg.frsStatus, 12, 0⟩
/-- FRS_SUMMARY (08). -/
def Reg.frsSummary : Nat := 0x42048
def Reg.frsSummary_FAULT : FieldRef := ⟨Reg.frsSummary, 10, 10⟩
def Reg.frsSummary_CRIT : FieldRef := ⟨Reg.frsSummary, 9, 9⟩
def Reg.frsSummary_ANY : FieldRef := ⟨Reg.frsSummary, 8, 8⟩
def Reg.frsSummary_HOST_CRIT : FieldRef := ⟨Reg.frsSummary, 7, 4⟩
def Reg.frsSummary_HOST_STALE : FieldRef := ⟨Reg.frsSummary, 3, 0⟩
/-- FRS_MS (08). -/
def Reg.frsMs : Nat := 0x4204C
def Reg.frsMs_TICKS : FieldRef := ⟨Reg.frsMs, 31, 0⟩
/-- FRS_QUERY (08). -/
def Reg.frsQuery : Nat := 0x42050
def Reg.frsQuery_HOST : FieldRef := ⟨Reg.frsQuery, 17, 16⟩
def Reg.frsQuery_CONTEXT : FieldRef := ⟨Reg.frsQuery, 15, 0⟩
/-- FRS_QUERY_AGE (08). -/
def Reg.frsQueryAge : Nat := 0x42054
def Reg.frsQueryAge_VALID : FieldRef := ⟨Reg.frsQueryAge, 31, 31⟩
def Reg.frsQueryAge_RANGE : FieldRef := ⟨Reg.frsQueryAge, 30, 30⟩
def Reg.frsQueryAge_STALE : FieldRef := ⟨Reg.frsQueryAge, 29, 29⟩
def Reg.frsQueryAge_AGE : FieldRef := ⟨Reg.frsQueryAge, 23, 0⟩
/-- FRS_QUERY_BOUND (08). -/
def Reg.frsQueryBound : Nat := 0x42058
def Reg.frsQueryBound_VEIL : FieldRef := ⟨Reg.frsQueryBound, 17, 16⟩
def Reg.frsQueryBound_BOUND : FieldRef := ⟨Reg.frsQueryBound, 15, 0⟩
/-- FRS_VEILED (08). -/
def Reg.frsVeiled : Nat := 0x4205C
def Reg.frsVeiled_WORDS : FieldRef := ⟨Reg.frsVeiled, 31, 0⟩
/-- FRS_COPY_ERR (08). -/
def Reg.frsCopyErr : Nat := 0x42060
def Reg.frsCopyErr_COUNT : FieldRef := ⟨Reg.frsCopyErr, 31, 0⟩
/-- FRS_VEIL_CHECK (08). -/
def Reg.frsVeilCheck : Nat := 0x42064
def Reg.frsVeilCheck_COUNT : FieldRef := ⟨Reg.frsVeilCheck, 31, 0⟩
/-- FRS_TICK_LOST (08). -/
def Reg.frsTickLost : Nat := 0x42068
def Reg.frsTickLost_COUNT : FieldRef := ⟨Reg.frsTickLost, 31, 0⟩
/-- FRS_CRIT_COLOR (08). -/
def Reg.frsCritColor : Nat := 0x4206C
def Reg.frsCritColor_B : FieldRef := ⟨Reg.frsCritColor, 29, 20⟩
def Reg.frsCritColor_G : FieldRef := ⟨Reg.frsCritColor, 19, 10⟩
def Reg.frsCritColor_R : FieldRef := ⟨Reg.frsCritColor, 9, 0⟩
/-- CMD_WEIGHT (09). -/
def Reg.cmdWeight (h : Nat) : Nat := 0x14040 + 4096 * h
def Reg.cmdWeight_WEIGHT (h : Nat) : FieldRef := ⟨(Reg.cmdWeight h), 7, 0⟩
/-- CMD_BACKLOG (09). -/
def Reg.cmdBacklog (h : Nat) : Nat := 0x14044 + 4096 * h
def Reg.cmdBacklog_COUNT (h : Nat) : FieldRef := ⟨(Reg.cmdBacklog h), 31, 0⟩
/-- CMD_OVERLOAD (09). -/
def Reg.cmdOverload (h : Nat) : Nat := 0x14048 + 4096 * h
def Reg.cmdOverload_DEFICIT (h : Nat) : FieldRef := ⟨(Reg.cmdOverload h), 31, 0⟩
/-- CMD_OVL_CFG (09). -/
def Reg.cmdOvlCfg (h : Nat) : Nat := 0x1404C + 4096 * h
def Reg.cmdOvlCfg_WINDOWS (h : Nat) : FieldRef := ⟨(Reg.cmdOvlCfg h), 7, 0⟩
/-- CMD_FETCHED (09). -/
def Reg.cmdFetched (h : Nat) : Nat := 0x14050 + 4096 * h
def Reg.cmdFetched_COUNT (h : Nat) : FieldRef := ⟨(Reg.cmdFetched h), 31, 0⟩
/-- CMD_REJECTED (09). -/
def Reg.cmdRejected (h : Nat) : Nat := 0x14054 + 4096 * h
def Reg.cmdRejected_COUNT (h : Nat) : FieldRef := ⟨(Reg.cmdRejected h), 31, 0⟩
/-- CMD_ABORTED (09). -/
def Reg.cmdAborted (h : Nat) : Nat := 0x14058 + 4096 * h
def Reg.cmdAborted_COUNT (h : Nat) : FieldRef := ⟨(Reg.cmdAborted h), 31, 0⟩
/-- RING_BASE_LO (09). -/
def Reg.ringBaseLo (h i : Nat) : Nat := 0x14200 + 4096 * h + 32 * i
def Reg.ringBaseLo_ADDR (h i : Nat) : FieldRef := ⟨(Reg.ringBaseLo h i), 31, 12⟩
/-- RING_BASE_HI (09). -/
def Reg.ringBaseHi (h i : Nat) : Nat := 0x14204 + 4096 * h + 32 * i
def Reg.ringBaseHi_ADDR (h i : Nat) : FieldRef := ⟨(Reg.ringBaseHi h i), 31, 0⟩
/-- CPL_BASE_LO (09). -/
def Reg.cplBaseLo (h i : Nat) : Nat := 0x14208 + 4096 * h + 32 * i
def Reg.cplBaseLo_ADDR (h i : Nat) : FieldRef := ⟨(Reg.cplBaseLo h i), 31, 12⟩
/-- CPL_BASE_HI (09). -/
def Reg.cplBaseHi (h i : Nat) : Nat := 0x1420C + 4096 * h + 32 * i
def Reg.cplBaseHi_ADDR (h i : Nat) : FieldRef := ⟨(Reg.cplBaseHi h i), 31, 0⟩
/-- RING_CTRL (09). -/
def Reg.ringCtrl (h i : Nat) : Nat := 0x14210 + 4096 * h + 32 * i
def Reg.ringCtrl_VECTOR (h i : Nat) : FieldRef := ⟨(Reg.ringCtrl h i), 31, 24⟩
def Reg.ringCtrl_LOG2 (h i : Nat) : FieldRef := ⟨(Reg.ringCtrl h i), 20, 16⟩
def Reg.ringCtrl_DISCARD (h i : Nat) : FieldRef := ⟨(Reg.ringCtrl h i), 2, 2⟩
def Reg.ringCtrl_HALTED (h i : Nat) : FieldRef := ⟨(Reg.ringCtrl h i), 1, 1⟩
def Reg.ringCtrl_RUN (h i : Nat) : FieldRef := ⟨(Reg.ringCtrl h i), 0, 0⟩
/-- RING_HEAD (09). -/
def Reg.ringHead (h i : Nat) : Nat := 0x14214 + 4096 * h + 32 * i
def Reg.ringHead_HEAD (h i : Nat) : FieldRef := ⟨(Reg.ringHead h i), 31, 0⟩
/-- RING_TAIL (09). -/
def Reg.ringTail (h i : Nat) : Nat := 0x14218 + 4096 * h + 32 * i
def Reg.ringTail_TAIL (h i : Nat) : FieldRef := ⟨(Reg.ringTail h i), 31, 0⟩
/-- RING_PENDING (09). -/
def Reg.ringPending (h i : Nat) : Nat := 0x1421C + 4096 * h + 32 * i
def Reg.ringPending_COUNT (h i : Nat) : FieldRef := ⟨(Reg.ringPending h i), 16, 0⟩
/-- TXN_STATUS (09). -/
def Reg.txnStatus (h : Nat) : Nat := 0x18040 + 4096 * h
def Reg.txnStatus_WAITING (h : Nat) : FieldRef := ⟨(Reg.txnStatus h), 24, 16⟩
def Reg.txnStatus_CLOSING (h : Nat) : FieldRef := ⟨(Reg.txnStatus h), 8, 0⟩
/-- TXN_LAST_SEAL (09). -/
def Reg.txnLastSeal (h : Nat) : Nat := 0x18044 + 4096 * h
def Reg.txnLastSeal_STAMP (h : Nat) : FieldRef := ⟨(Reg.txnLastSeal h), 31, 0⟩
/-- TXN_LAST_CUT (09). -/
def Reg.txnLastCut (h : Nat) : Nat := 0x18048 + 4096 * h
def Reg.txnLastCut_TIME (h : Nat) : FieldRef := ⟨(Reg.txnLastCut h), 31, 0⟩
/-- TXN_APPLIED (09). -/
def Reg.txnApplied (h : Nat) : Nat := 0x1804C + 4096 * h
def Reg.txnApplied_COUNT (h : Nat) : FieldRef := ⟨(Reg.txnApplied h), 31, 0⟩
/-- TXN_ROLLBACK (09). -/
def Reg.txnRollback (h : Nat) : Nat := 0x18050 + 4096 * h
def Reg.txnRollback_COUNT (h : Nat) : FieldRef := ⟨(Reg.txnRollback h), 31, 0⟩
/-- TXN_LATE (09). -/
def Reg.txnLate (h : Nat) : Nat := 0x18054 + 4096 * h
def Reg.txnLate_COUNT (h : Nat) : FieldRef := ⟨(Reg.txnLate h), 31, 0⟩
/-- DOM_CTRL (10). -/
def Reg.domCtrl : Nat := 0x20040
def Reg.domCtrl_RSV_PCT : FieldRef := ⟨Reg.domCtrl, 6, 0⟩
/-- DOM_ARB (10). -/
def Reg.domArb : Nat := 0x20044
def Reg.domArb_WATCH : FieldRef := ⟨Reg.domArb, 23, 20⟩
def Reg.domArb_BAR2 : FieldRef := ⟨Reg.domArb, 19, 16⟩
def Reg.domArb_MAINT : FieldRef := ⟨Reg.domArb, 15, 12⟩
def Reg.domArb_PAGING : FieldRef := ⟨Reg.domArb, 11, 8⟩
def Reg.domArb_TWD : FieldRef := ⟨Reg.domArb, 7, 4⟩
def Reg.domArb_CODEC : FieldRef := ⟨Reg.domArb, 3, 0⟩
/-- DOM_LOW (10). -/
def Reg.domLow : Nat := 0x20048
def Reg.domLow_HIGH : FieldRef := ⟨Reg.domLow, 31, 16⟩
def Reg.domLow_LOW : FieldRef := ⟨Reg.domLow, 15, 0⟩
/-- DOM_SCRUB (10). -/
def Reg.domScrub : Nat := 0x2004C
def Reg.domScrub_CE_THR : FieldRef := ⟨Reg.domScrub, 23, 16⟩
def Reg.domScrub_PERIOD : FieldRef := ⟨Reg.domScrub, 15, 0⟩
/-- DOM_FREE (10). -/
def Reg.domFree : Nat := 0x20050
def Reg.domFree_COUNT : FieldRef := ⟨Reg.domFree, 20, 0⟩
/-- DOM_RETIRING (10). -/
def Reg.domRetiring : Nat := 0x20054
def Reg.domRetiring_COUNT : FieldRef := ⟨Reg.domRetiring, 20, 0⟩
/-- DOM_SPILLED (10). -/
def Reg.domSpilled : Nat := 0x20058
def Reg.domSpilled_COUNT : FieldRef := ⟨Reg.domSpilled, 20, 0⟩
/-- DOM_FRAMES (10). -/
def Reg.domFrames : Nat := 0x2005C
def Reg.domFrames_RETIRED : FieldRef := ⟨Reg.domFrames, 27, 16⟩
def Reg.domFrames_SPARES : FieldRef := ⟨Reg.domFrames, 11, 0⟩
/-- DOM_CE (10). -/
def Reg.domCe : Nat := 0x20060
def Reg.domCe_COUNT : FieldRef := ⟨Reg.domCe, 31, 0⟩
/-- DOM_UE (10). -/
def Reg.domUe : Nat := 0x20064
def Reg.domUe_COUNT : FieldRef := ⟨Reg.domUe, 31, 0⟩
/-- DOM_BAR2_MISS (10). -/
def Reg.domBar2Miss : Nat := 0x20068
def Reg.domBar2Miss_COUNT : FieldRef := ⟨Reg.domBar2Miss, 31, 0⟩
/-- DOM_MAP_QUERY (10). -/
def Reg.domMapQuery : Nat := 0x2006C
def Reg.domMapQuery_PAGE : FieldRef := ⟨Reg.domMapQuery, 15, 0⟩
/-- DOM_MAP_ENTRY (10). -/
def Reg.domMapEntry : Nat := 0x20070
def Reg.domMapEntry_VALID : FieldRef := ⟨Reg.domMapEntry, 31, 31⟩
def Reg.domMapEntry_LENT : FieldRef := ⟨Reg.domMapEntry, 30, 30⟩
def Reg.domMapEntry_WITHDRAWN : FieldRef := ⟨Reg.domMapEntry, 29, 29⟩
def Reg.domMapEntry_FRAME : FieldRef := ⟨Reg.domMapEntry, 15, 0⟩
/-- DOM_SPILL_LO (10). -/
def Reg.domSpillLo (i : Nat) : Nat := 0x20100 + 16 * i
def Reg.domSpillLo_ADDR (i : Nat) : FieldRef := ⟨(Reg.domSpillLo i), 31, 16⟩
/-- DOM_SPILL_HI (10). -/
def Reg.domSpillHi (i : Nat) : Nat := 0x20104 + 16 * i
def Reg.domSpillHi_ADDR (i : Nat) : FieldRef := ⟨(Reg.domSpillHi i), 31, 0⟩
/-- DOM_SPILL_SIZE (10). -/
def Reg.domSpillSize (i : Nat) : Nat := 0x20108 + 16 * i
def Reg.domSpillSize_SLOTS (i : Nat) : FieldRef := ⟨(Reg.domSpillSize i), 20, 0⟩
/-- DOM_SPILL_USED (10). -/
def Reg.domSpillUsed (i : Nat) : Nat := 0x2010C + 16 * i
def Reg.domSpillUsed_COUNT (i : Nat) : FieldRef := ⟨(Reg.domSpillUsed i), 20, 0⟩
/-- DOM_WIN_OBJ (10). -/
def Reg.domWinObj (i j : Nat) : Nat := 0x20200 + 64 * i + 8 * j
def Reg.domWinObj_KIND (i j : Nat) : FieldRef := ⟨(Reg.domWinObj i j), 31, 30⟩
def Reg.domWinObj_HOST (i j : Nat) : FieldRef := ⟨(Reg.domWinObj i j), 29, 28⟩
def Reg.domWinObj_STAGED (i j : Nat) : FieldRef := ⟨(Reg.domWinObj i j), 24, 24⟩
def Reg.domWinObj_TXN (i j : Nat) : FieldRef := ⟨(Reg.domWinObj i j), 23, 16⟩
def Reg.domWinObj_HANDLE (i j : Nat) : FieldRef := ⟨(Reg.domWinObj i j), 15, 0⟩
/-- DOM_WIN_OFF (10). -/
def Reg.domWinOff (i j : Nat) : Nat := 0x20204 + 64 * i + 8 * j
def Reg.domWinOff_OFF (i j : Nat) : FieldRef := ⟨(Reg.domWinOff i j), 31, 25⟩
/-- STK_CE (10). -/
def Reg.stkCe (s : Nat) : Nat := 0x21040 + 4096 * s
def Reg.stkCe_COUNT (s : Nat) : FieldRef := ⟨(Reg.stkCe s), 31, 0⟩
/-- STK_UE (10). -/
def Reg.stkUe (s : Nat) : Nat := 0x21044 + 4096 * s
def Reg.stkUe_COUNT (s : Nat) : FieldRef := ⟨(Reg.stkUe s), 31, 0⟩
/-- STK_READ (10). -/
def Reg.stkRead (s : Nat) : Nat := 0x21048 + 4096 * s
def Reg.stkRead_MIB (s : Nat) : FieldRef := ⟨(Reg.stkRead s), 31, 0⟩
/-- STK_RENDER (10). -/
def Reg.stkRender (s : Nat) : Nat := 0x2104C + 4096 * s
def Reg.stkRender_MIB (s : Nat) : FieldRef := ⟨(Reg.stkRender s), 31, 0⟩
/-- TWD_OP (11). -/
def Reg.twdOp (h : Nat) : Nat := 0x1C040 + 4096 * h
def Reg.twdOp_GO (h : Nat) : FieldRef := ⟨(Reg.twdOp h), 31, 31⟩
def Reg.twdOp_BG_KEEP (h : Nat) : FieldRef := ⟨(Reg.twdOp h), 16, 16⟩
def Reg.twdOp_TXN (h : Nat) : FieldRef := ⟨(Reg.twdOp h), 15, 8⟩
def Reg.twdOp_OP (h : Nat) : FieldRef := ⟨(Reg.twdOp h), 1, 0⟩
/-- TWD_TAG (11). -/
def Reg.twdTag (h : Nat) : Nat := 0x1C044 + 4096 * h
def Reg.twdTag_TAG (h : Nat) : FieldRef := ⟨(Reg.twdTag h), 31, 0⟩
/-- TWD_SIZE (11). -/
def Reg.twdSize (h : Nat) : Nat := 0x1C048 + 4096 * h
def Reg.twdSize_H (h : Nat) : FieldRef := ⟨(Reg.twdSize h), 31, 16⟩
def Reg.twdSize_W (h : Nat) : FieldRef := ⟨(Reg.twdSize h), 15, 0⟩
/-- TWD_VALUE (11). -/
def Reg.twdValue (h : Nat) : Nat := 0x1C04C + 4096 * h
def Reg.twdValue_VALUE (h : Nat) : FieldRef := ⟨(Reg.twdValue h), 31, 0⟩
/-- TWD_FG (11). -/
def Reg.twdFg (h : Nat) : Nat := 0x1C050 + 4096 * h
def Reg.twdFg_FG (h : Nat) : FieldRef := ⟨(Reg.twdFg h), 31, 0⟩
/-- TWD_BG (11). -/
def Reg.twdBg (h : Nat) : Nat := 0x1C054 + 4096 * h
def Reg.twdBg_BG (h : Nat) : FieldRef := ⟨(Reg.twdBg h), 31, 0⟩
/-- TWD_DST (11). -/
def Reg.twdDst (h : Nat) : Nat := 0x1C058 + 4096 * h
def Reg.twdDst_KIND (h : Nat) : FieldRef := ⟨(Reg.twdDst h), 31, 30⟩
def Reg.twdDst_FORMAT (h : Nat) : FieldRef := ⟨(Reg.twdDst h), 23, 20⟩
def Reg.twdDst_HANDLE (h : Nat) : FieldRef := ⟨(Reg.twdDst h), 15, 0⟩
/-- TWD_DST_XY (11). -/
def Reg.twdDstXy (h : Nat) : Nat := 0x1C05C + 4096 * h
def Reg.twdDstXy_Y (h : Nat) : FieldRef := ⟨(Reg.twdDstXy h), 31, 16⟩
def Reg.twdDstXy_X (h : Nat) : FieldRef := ⟨(Reg.twdDstXy h), 15, 0⟩
/-- TWD_DST_OFFSET (11). -/
def Reg.twdDstOffset (h : Nat) : Nat := 0x1C060 + 4096 * h
def Reg.twdDstOffset_OFFSET (h : Nat) : FieldRef := ⟨(Reg.twdDstOffset h), 31, 0⟩
/-- TWD_DST_PITCH (11). -/
def Reg.twdDstPitch (h : Nat) : Nat := 0x1C064 + 4096 * h
def Reg.twdDstPitch_PITCH (h : Nat) : FieldRef := ⟨(Reg.twdDstPitch h), 16, 0⟩
/-- TWD_SRC (11). -/
def Reg.twdSrc (h : Nat) : Nat := 0x1C068 + 4096 * h
def Reg.twdSrc_KIND (h : Nat) : FieldRef := ⟨(Reg.twdSrc h), 31, 30⟩
def Reg.twdSrc_HOST (h : Nat) : FieldRef := ⟨(Reg.twdSrc h), 25, 24⟩
def Reg.twdSrc_FORMAT (h : Nat) : FieldRef := ⟨(Reg.twdSrc h), 23, 20⟩
def Reg.twdSrc_HANDLE (h : Nat) : FieldRef := ⟨(Reg.twdSrc h), 15, 0⟩
/-- TWD_SRC_XY (11). -/
def Reg.twdSrcXy (h : Nat) : Nat := 0x1C06C + 4096 * h
def Reg.twdSrcXy_Y (h : Nat) : FieldRef := ⟨(Reg.twdSrcXy h), 31, 16⟩
def Reg.twdSrcXy_X (h : Nat) : FieldRef := ⟨(Reg.twdSrcXy h), 15, 0⟩
/-- TWD_SRC_OFFSET (11). -/
def Reg.twdSrcOffset (h : Nat) : Nat := 0x1C070 + 4096 * h
def Reg.twdSrcOffset_OFFSET (h : Nat) : FieldRef := ⟨(Reg.twdSrcOffset h), 31, 0⟩
/-- TWD_SRC_PITCH (11). -/
def Reg.twdSrcPitch (h : Nat) : Nat := 0x1C074 + 4096 * h
def Reg.twdSrcPitch_PITCH (h : Nat) : FieldRef := ⟨(Reg.twdSrcPitch h), 16, 0⟩
/-- TWD_STATUS (11). -/
def Reg.twdStatus (h : Nat) : Nat := 0x1C078 + 4096 * h
def Reg.twdStatus_BUSY (h : Nat) : FieldRef := ⟨(Reg.twdStatus h), 31, 31⟩
def Reg.twdStatus_WAIT_ORDER (h : Nat) : FieldRef := ⟨(Reg.twdStatus h), 30, 30⟩
def Reg.twdStatus_WAIT_LEAVE (h : Nat) : FieldRef := ⟨(Reg.twdStatus h), 29, 29⟩
def Reg.twdStatus_WAIT_MEM (h : Nat) : FieldRef := ⟨(Reg.twdStatus h), 28, 28⟩
def Reg.twdStatus_ROWS (h : Nat) : FieldRef := ⟨(Reg.twdStatus h), 14, 0⟩
/-- TWD_DONE (11). -/
def Reg.twdDone (h : Nat) : Nat := 0x1C07C + 4096 * h
def Reg.twdDone_OP (h : Nat) : FieldRef := ⟨(Reg.twdDone h), 9, 8⟩
def Reg.twdDone_STATUS (h : Nat) : FieldRef := ⟨(Reg.twdDone h), 7, 0⟩
/-- TWD_DONE_TAG (11). -/
def Reg.twdDoneTag (h : Nat) : Nat := 0x1C080 + 4096 * h
def Reg.twdDoneTag_TAG (h : Nat) : FieldRef := ⟨(Reg.twdDoneTag h), 31, 0⟩
/-- TWD_DONE_TIME (11). -/
def Reg.twdDoneTime (h : Nat) : Nat := 0x1C084 + 4096 * h
def Reg.twdDoneTime_TIME (h : Nat) : FieldRef := ⟨(Reg.twdDoneTime h), 31, 0⟩
/-- TWD_OPS (11). -/
def Reg.twdOps (h : Nat) : Nat := 0x1C088 + 4096 * h
def Reg.twdOps_COUNT (h : Nat) : FieldRef := ⟨(Reg.twdOps h), 31, 0⟩
/-- TWD_NOOP (11). -/
def Reg.twdNoop (h : Nat) : Nat := 0x1C08C + 4096 * h
def Reg.twdNoop_COUNT (h : Nat) : FieldRef := ⟨(Reg.twdNoop h), 31, 0⟩
/-- TWD_LEAVE (11). -/
def Reg.twdLeave (h : Nat) : Nat := 0x1C090 + 4096 * h
def Reg.twdLeave_UNITS (h : Nat) : FieldRef := ⟨(Reg.twdLeave h), 7, 0⟩
/-- PNL_CTRL (12). -/
def Reg.pnlCtrl : Nat := 0x48040
def Reg.pnlCtrl_LINK_DARK : FieldRef := ⟨Reg.pnlCtrl, 0, 0⟩
/-- PRT_CTRL (12). -/
def Reg.prtCtrl (p : Nat) : Nat := 0x49040 + 4096 * p
def Reg.prtCtrl_PARITY_EN (p : Nat) : FieldRef := ⟨(Reg.prtCtrl p), 8, 8⟩
def Reg.prtCtrl_BC_PREF (p : Nat) : FieldRef := ⟨(Reg.prtCtrl p), 0, 0⟩
/-- PRT_HEALTH (12). -/
def Reg.prtHealth (p : Nat) : Nat := 0x49044 + 4096 * p
def Reg.prtHealth_CE_THR (p : Nat) : FieldRef := ⟨(Reg.prtHealth p), 11, 0⟩
/-- PRT_STATUS (12). -/
def Reg.prtStatus (p : Nat) : Nat := 0x49048 + 4096 * p
def Reg.prtStatus_IN_SERVICE (p : Nat) : FieldRef := ⟨(Reg.prtStatus p), 31, 31⟩
def Reg.prtStatus_PARITY (p : Nat) : FieldRef := ⟨(Reg.prtStatus p), 30, 30⟩
def Reg.prtStatus_BC_LOST (p : Nat) : FieldRef := ⟨(Reg.prtStatus p), 29, 29⟩
def Reg.prtStatus_BC_SEL (p : Nat) : FieldRef := ⟨(Reg.prtStatus p), 28, 28⟩
def Reg.prtStatus_RATE_MAX (p : Nat) : FieldRef := ⟨(Reg.prtStatus p), 27, 26⟩
def Reg.prtStatus_N (p : Nat) : FieldRef := ⟨(Reg.prtStatus p), 23, 20⟩
def Reg.prtStatus_PARITY_LANE (p : Nat) : FieldRef := ⟨(Reg.prtStatus p), 19, 16⟩
def Reg.prtStatus_SPARES (p : Nat) : FieldRef := ⟨(Reg.prtStatus p), 15, 0⟩
/-- PRT_MAP0 (12). -/
def Reg.prtMap0 (p : Nat) : Nat := 0x4904C + 4096 * p
def Reg.prtMap0_L7_L0 (p : Nat) : FieldRef := ⟨(Reg.prtMap0 p), 31, 0⟩
/-- PRT_MAP1 (12). -/
def Reg.prtMap1 (p : Nat) : Nat := 0x49050 + 4096 * p
def Reg.prtMap1_L11_L8 (p : Nat) : FieldRef := ⟨(Reg.prtMap1 p), 15, 0⟩
/-- PRT_REPORT_J (12). -/
def Reg.prtReportJ (p : Nat) : Nat := 0x49054 + 4096 * p
def Reg.prtReportJ_J (p : Nat) : FieldRef := ⟨(Reg.prtReportJ p), 31, 0⟩
/-- PRT_REPORT_TSIG (12). -/
def Reg.prtReportTsig (p : Nat) : Nat := 0x49058 + 4096 * p
def Reg.prtReportTsig_TSIG (p : Nat) : FieldRef := ⟨(Reg.prtReportTsig p), 31, 0⟩
/-- PRT_TSIG_BAD (12). -/
def Reg.prtTsigBad (p : Nat) : Nat := 0x4905C + 4096 * p
def Reg.prtTsigBad_COUNT (p : Nat) : FieldRef := ⟨(Reg.prtTsigBad p), 31, 0⟩
/-- PRT_LINES_DAMAGED (12). -/
def Reg.prtLinesDamaged (p : Nat) : Nat := 0x49060 + 4096 * p
def Reg.prtLinesDamaged_COUNT (p : Nat) : FieldRef := ⟨(Reg.prtLinesDamaged p), 31, 0⟩
/-- PRT_LINES_REBUILT (12). -/
def Reg.prtLinesRebuilt (p : Nat) : Nat := 0x49064 + 4096 * p
def Reg.prtLinesRebuilt_COUNT (p : Nat) : FieldRef := ⟨(Reg.prtLinesRebuilt p), 31, 0⟩
/-- PRT_BC_GARBAGE (12). -/
def Reg.prtBcGarbage (p : Nat) : Nat := 0x49068 + 4096 * p
def Reg.prtBcGarbage_COUNT (p : Nat) : FieldRef := ⟨(Reg.prtBcGarbage p), 31, 0⟩
/-- LNK_CTRL (12). -/
def Reg.lnkCtrl (l : Nat) : Nat := 0x50040 + 4096 * l
def Reg.lnkCtrl_PATTERN (l : Nat) : FieldRef := ⟨(Reg.lnkCtrl l), 11, 8⟩
def Reg.lnkCtrl_LOOP (l : Nat) : FieldRef := ⟨(Reg.lnkCtrl l), 5, 4⟩
/-- LNK_STATUS (12). -/
def Reg.lnkStatus (l : Nat) : Nat := 0x50044 + 4096 * l
def Reg.lnkStatus_KIND (l : Nat) : FieldRef := ⟨(Reg.lnkStatus l), 31, 30⟩
def Reg.lnkStatus_PHYS (l : Nat) : FieldRef := ⟨(Reg.lnkStatus l), 23, 20⟩
def Reg.lnkStatus_LOGICAL (l : Nat) : FieldRef := ⟨(Reg.lnkStatus l), 19, 16⟩
def Reg.lnkStatus_ROLE (l : Nat) : FieldRef := ⟨(Reg.lnkStatus l), 15, 14⟩
def Reg.lnkStatus_ALIGN (l : Nat) : FieldRef := ⟨(Reg.lnkStatus l), 13, 12⟩
def Reg.lnkStatus_FAILS (l : Nat) : FieldRef := ⟨(Reg.lnkStatus l), 1, 0⟩
/-- LNK_TXEQ (12). -/
def Reg.lnkTxeq (l : Nat) : Nat := 0x50048 + 4096 * l
def Reg.lnkTxeq_SWING (l : Nat) : FieldRef := ⟨(Reg.lnkTxeq l), 19, 17⟩
def Reg.lnkTxeq_C_POST (l : Nat) : FieldRef := ⟨(Reg.lnkTxeq l), 16, 12⟩
def Reg.lnkTxeq_C_MAIN (l : Nat) : FieldRef := ⟨(Reg.lnkTxeq l), 11, 5⟩
def Reg.lnkTxeq_C_PRE (l : Nat) : FieldRef := ⟨(Reg.lnkTxeq l), 4, 0⟩
/-- LNK_RXEQ (12). -/
def Reg.lnkRxeq (l : Nat) : Nat := 0x5004C + 4096 * l
def Reg.lnkRxeq_CTLE_LIVE (l : Nat) : FieldRef := ⟨(Reg.lnkRxeq l), 19, 16⟩
def Reg.lnkRxeq_ADAPT (l : Nat) : FieldRef := ⟨(Reg.lnkRxeq l), 9, 9⟩
def Reg.lnkRxeq_FREEZE (l : Nat) : FieldRef := ⟨(Reg.lnkRxeq l), 8, 8⟩
def Reg.lnkRxeq_CTLE (l : Nat) : FieldRef := ⟨(Reg.lnkRxeq l), 3, 0⟩
/-- LNK_DFE (12). -/
def Reg.lnkDfe (l i : Nat) : Nat := 0x50050 + 4096 * l + 4 * i
def Reg.lnkDfe_TAPS (l i : Nat) : FieldRef := ⟨(Reg.lnkDfe l i), 31, 0⟩
/-- LNK_CE (12). -/
def Reg.lnkCe (l : Nat) : Nat := 0x5005C + 4096 * l
def Reg.lnkCe_COUNT (l : Nat) : FieldRef := ⟨(Reg.lnkCe l), 31, 0⟩
/-- LNK_UE (12). -/
def Reg.lnkUe (l : Nat) : Nat := 0x50060 + 4096 * l
def Reg.lnkUe_COUNT (l : Nat) : FieldRef := ⟨(Reg.lnkUe l), 31, 0⟩
/-- LNK_LOCK_LOSS (12). -/
def Reg.lnkLockLoss (l : Nat) : Nat := 0x50064 + 4096 * l
def Reg.lnkLockLoss_COUNT (l : Nat) : FieldRef := ⟨(Reg.lnkLockLoss l), 31, 0⟩
/-- LNK_PRBS_ERR (12). -/
def Reg.lnkPrbsErr (l : Nat) : Nat := 0x50068 + 4096 * l
def Reg.lnkPrbsErr_COUNT (l : Nat) : FieldRef := ⟨(Reg.lnkPrbsErr l), 31, 0⟩
/-- LNK_PRBS_MBITS (12). -/
def Reg.lnkPrbsMbits (l : Nat) : Nat := 0x5006C + 4096 * l
def Reg.lnkPrbsMbits_COUNT (l : Nat) : FieldRef := ⟨(Reg.lnkPrbsMbits l), 31, 0⟩
/-- BCN_STATUS (13). -/
def Reg.bcnStatus : Nat := 0x80040
def Reg.bcnStatus_UNVERIFIED : FieldRef := ⟨Reg.bcnStatus, 31, 24⟩
def Reg.bcnStatus_FAULTED : FieldRef := ⟨Reg.bcnStatus, 23, 16⟩
def Reg.bcnStatus_WAIT_LEAVE : FieldRef := ⟨Reg.bcnStatus, 12, 12⟩
def Reg.bcnStatus_STARTED : FieldRef := ⟨Reg.bcnStatus, 11, 0⟩
/-- BCN_DIAG (13). -/
def Reg.bcnDiag : Nat := 0x80044
def Reg.bcnDiag_ACC_EN : FieldRef := ⟨Reg.bcnDiag, 24, 24⟩
def Reg.bcnDiag_PERIOD : FieldRef := ⟨Reg.bcnDiag, 19, 16⟩
def Reg.bcnDiag_DIAG_LEN : FieldRef := ⟨Reg.bcnDiag, 11, 0⟩
/-- BCN_INRUSH (13). -/
def Reg.bcnInrush : Nat := 0x80048
def Reg.bcnInrush_UNITS : FieldRef := ⟨Reg.bcnInrush, 7, 0⟩
/-- STR_CTRL (13). -/
def Reg.strCtrl (z i : Nat) : Nat := 0x81100 + 4096 * z + 32 * i
def Reg.strCtrl_ENABLE (z i : Nat) : FieldRef := ⟨(Reg.strCtrl z i), 31, 31⟩
def Reg.strCtrl_NP (z i : Nat) : FieldRef := ⟨(Reg.strCtrl z i), 20, 16⟩
def Reg.strCtrl_DUTY (z i : Nat) : FieldRef := ⟨(Reg.strCtrl z i), 15, 0⟩
/-- STR_ITH (13). -/
def Reg.strIth (z i : Nat) : Nat := 0x81104 + 4096 * z + 32 * i
def Reg.strIth_OC (z i : Nat) : FieldRef := ⟨(Reg.strIth z i), 29, 20⟩
def Reg.strIth_HI (z i : Nat) : FieldRef := ⟨(Reg.strIth z i), 19, 10⟩
def Reg.strIth_LO (z i : Nat) : FieldRef := ⟨(Reg.strIth z i), 9, 0⟩
/-- STR_VLIM (13). -/
def Reg.strVlim (z i : Nat) : Nat := 0x81108 + 4096 * z + 32 * i
def Reg.strVlim_VOV (z i : Nat) : FieldRef := ⟨(Reg.strVlim z i), 25, 16⟩
def Reg.strVlim_VMIN (z i : Nat) : FieldRef := ⟨(Reg.strVlim z i), 9, 0⟩
/-- STR_STATE (13). -/
def Reg.strState (z i : Nat) : Nat := 0x8110C + 4096 * z + 32 * i
def Reg.strState_REARM (z i : Nat) : FieldRef := ⟨(Reg.strState z i), 31, 31⟩
def Reg.strState_NOVERDICT (z i : Nat) : FieldRef := ⟨(Reg.strState z i), 15, 8⟩
def Reg.strState_FAILS (z i : Nat) : FieldRef := ⟨(Reg.strState z i), 5, 4⟩
def Reg.strState_ACC (z i : Nat) : FieldRef := ⟨(Reg.strState z i), 3, 3⟩
def Reg.strState_STATE (z i : Nat) : FieldRef := ⟨(Reg.strState z i), 2, 0⟩
/-- STR_MEAS (13). -/
def Reg.strMeas (z i : Nat) : Nat := 0x81110 + 4096 * z + 32 * i
def Reg.strMeas_VSNS (z i : Nat) : FieldRef := ⟨(Reg.strMeas z i), 25, 16⟩
def Reg.strMeas_RISE (z i : Nat) : FieldRef := ⟨(Reg.strMeas z i), 11, 0⟩
/-- BLF_CTRL (14). -/
def Reg.blfCtrl : Nat := 0x90040
def Reg.blfCtrl_TSRC : FieldRef := ⟨Reg.blfCtrl, 9, 9⟩
def Reg.blfCtrl_WAVE : FieldRef := ⟨Reg.blfCtrl, 8, 8⟩
/-- BLF_SLOT (14). -/
def Reg.blfSlot : Nat := 0x90044
def Reg.blfSlot_SLOT : FieldRef := ⟨Reg.blfSlot, 15, 0⟩
/-- BLF_BANK (14). -/
def Reg.blfBank : Nat := 0x90048
def Reg.blfBank_SWAP : FieldRef := ⟨Reg.blfBank, 31, 31⟩
def Reg.blfBank_BLANK : FieldRef := ⟨Reg.blfBank, 1, 1⟩
def Reg.blfBank_SHOWN : FieldRef := ⟨Reg.blfBank, 0, 0⟩
/-- BLF_CRC0 (14). -/
def Reg.blfCrc0 : Nat := 0x9004C
def Reg.blfCrc0_CRC : FieldRef := ⟨Reg.blfCrc0, 31, 0⟩
/-- BLF_CRC1 (14). -/
def Reg.blfCrc1 : Nat := 0x90050
def Reg.blfCrc1_CRC : FieldRef := ⟨Reg.blfCrc1, 31, 0⟩
/-- BLF_STATUS (14). -/
def Reg.blfStatus : Nat := 0x90054
def Reg.blfStatus_RUNNING : FieldRef := ⟨Reg.blfStatus, 31, 31⟩
def Reg.blfStatus_TEMP_VALID : FieldRef := ⟨Reg.blfStatus, 30, 30⟩
def Reg.blfStatus_BAND : FieldRef := ⟨Reg.blfStatus, 26, 24⟩
def Reg.blfStatus_VOP : FieldRef := ⟨Reg.blfStatus, 23, 16⟩
def Reg.blfStatus_VLCD : FieldRef := ⟨Reg.blfStatus, 15, 0⟩
/-- BLF_TEMP (14). -/
def Reg.blfTemp : Nat := 0x90058
def Reg.blfTemp_TEMP : FieldRef := ⟨Reg.blfTemp, 15, 0⟩
/-- BLF_THR0 (14). -/
def Reg.blfThr0 : Nat := 0x9005C
def Reg.blfThr0_T3 : FieldRef := ⟨Reg.blfThr0, 31, 24⟩
def Reg.blfThr0_T2 : FieldRef := ⟨Reg.blfThr0, 23, 16⟩
def Reg.blfThr0_T1 : FieldRef := ⟨Reg.blfThr0, 15, 8⟩
def Reg.blfThr0_T0 : FieldRef := ⟨Reg.blfThr0, 7, 0⟩
/-- BLF_THR1 (14). -/
def Reg.blfThr1 : Nat := 0x90060
def Reg.blfThr1_T6 : FieldRef := ⟨Reg.blfThr1, 23, 16⟩
def Reg.blfThr1_T5 : FieldRef := ⟨Reg.blfThr1, 15, 8⟩
def Reg.blfThr1_T4 : FieldRef := ⟨Reg.blfThr1, 7, 0⟩
/-- BLF_VCOMP0 (14). -/
def Reg.blfVcomp0 : Nat := 0x90064
def Reg.blfVcomp0_B3_B0 : FieldRef := ⟨Reg.blfVcomp0, 31, 0⟩
/-- BLF_VCOMP1 (14). -/
def Reg.blfVcomp1 : Nat := 0x90068
def Reg.blfVcomp1_B7_B4 : FieldRef := ⟨Reg.blfVcomp1, 31, 0⟩
/-- BLF_FW_VAL (14). -/
def Reg.blfFwVal : Nat := 0x9006C
def Reg.blfFwVal_VAL : FieldRef := ⟨Reg.blfFwVal, 15, 0⟩
/-- BLF_SWAP_REJ (14). -/
def Reg.blfSwapRej : Nat := 0x90070
def Reg.blfSwapRej_COUNT : FieldRef := ⟨Reg.blfSwapRej, 31, 0⟩
/-- BLF_GMAP (14). -/
def Reg.blfGmap (i : Nat) : Nat := 0x90100 + 4 * i
def Reg.blfGmap_EN (i : Nat) : FieldRef := ⟨(Reg.blfGmap i), 31, 31⟩
def Reg.blfGmap_BLINK (i : Nat) : FieldRef := ⟨(Reg.blfGmap i), 30, 30⟩
def Reg.blfGmap_CELL (i : Nat) : FieldRef := ⟨(Reg.blfGmap i), 9, 0⟩
/-- BLF_FMAP (14). -/
def Reg.blfFmap (i : Nat) : Nat := 0x90140 + 4 * i
def Reg.blfFmap_EN (i : Nat) : FieldRef := ⟨(Reg.blfFmap i), 31, 31⟩
def Reg.blfFmap_CELL (i : Nat) : FieldRef := ⟨(Reg.blfFmap i), 9, 0⟩
/-- BLF_FRAME (14). -/
def Reg.blfFrame (i j : Nat) : Nat := 0x90200 + 128 * i + 4 * j
def Reg.blfFrame_CELLS (i j : Nat) : FieldRef := ⟨(Reg.blfFrame i j), 31, 0⟩
/-- SXT_NOW (15). -/
def Reg.sxtNow : Nat := 0xA040
def Reg.sxtNow_NS : FieldRef := ⟨Reg.sxtNow, 31, 0⟩
/-- SXT_FRAC (15). -/
def Reg.sxtFrac : Nat := 0xA044
def Reg.sxtFrac_FRAC : FieldRef := ⟨Reg.sxtFrac, 31, 0⟩
/-- SXT_WRAPS (15). -/
def Reg.sxtWraps : Nat := 0xA048
def Reg.sxtWraps_WRAPS : FieldRef := ⟨Reg.sxtWraps, 31, 0⟩
/-- SXT_INC_LO (15). -/
def Reg.sxtIncLo : Nat := 0xA04C
def Reg.sxtIncLo_FRAC : FieldRef := ⟨Reg.sxtIncLo, 31, 0⟩
/-- SXT_INC_HI (15). -/
def Reg.sxtIncHi : Nat := 0xA050
def Reg.sxtIncHi_NS : FieldRef := ⟨Reg.sxtIncHi, 7, 0⟩
/-- SXT_ADJ (15). -/
def Reg.sxtAdj : Nat := 0xA054
def Reg.sxtAdj_OFFSET : FieldRef := ⟨Reg.sxtAdj, 31, 0⟩
/-- SXT_SET_LO (15). -/
def Reg.sxtSetLo : Nat := 0xA058
def Reg.sxtSetLo_NS : FieldRef := ⟨Reg.sxtSetLo, 31, 0⟩
/-- SXT_SET_HI (15). -/
def Reg.sxtSetHi : Nat := 0xA05C
def Reg.sxtSetHi_WRAPS : FieldRef := ⟨Reg.sxtSetHi, 31, 0⟩
/-- SXT_CTRL (15). -/
def Reg.sxtCtrl : Nat := 0xA060
def Reg.sxtCtrl_SNAP : FieldRef := ⟨Reg.sxtCtrl, 2, 2⟩
def Reg.sxtCtrl_SET : FieldRef := ⟨Reg.sxtCtrl, 1, 1⟩
def Reg.sxtCtrl_HOLD : FieldRef := ⟨Reg.sxtCtrl, 0, 0⟩
/-- SXT_SNAP_NS (15). -/
def Reg.sxtSnapNs : Nat := 0xA064
def Reg.sxtSnapNs_NS : FieldRef := ⟨Reg.sxtSnapNs, 31, 0⟩
/-- SXT_SNAP_FRAC (15). -/
def Reg.sxtSnapFrac : Nat := 0xA068
def Reg.sxtSnapFrac_FRAC : FieldRef := ⟨Reg.sxtSnapFrac, 31, 0⟩
/-- SXT_SNAP_WRAPS (15). -/
def Reg.sxtSnapWraps : Nat := 0xA06C
def Reg.sxtSnapWraps_WRAPS : FieldRef := ⟨Reg.sxtSnapWraps, 31, 0⟩
/-- SXT_EPOCH_LO (15). -/
def Reg.sxtEpochLo : Nat := 0xA070
def Reg.sxtEpochLo_NS : FieldRef := ⟨Reg.sxtEpochLo, 31, 0⟩
/-- SXT_EPOCH_HI (15). -/
def Reg.sxtEpochHi : Nat := 0xA074
def Reg.sxtEpochHi_WRAPS : FieldRef := ⟨Reg.sxtEpochHi, 31, 0⟩
/-- SXT_STATUS (15). -/
def Reg.sxtStatus : Nat := 0xA078
def Reg.sxtStatus_STATE : FieldRef := ⟨Reg.sxtStatus, 31, 30⟩
def Reg.sxtStatus_SLEWING : FieldRef := ⟨Reg.sxtStatus, 29, 29⟩
def Reg.sxtStatus_LOCKED_ONCE : FieldRef := ⟨Reg.sxtStatus, 28, 28⟩
/-- SXT_OFFSET (15). -/
def Reg.sxtOffset : Nat := 0xA07C
def Reg.sxtOffset_NS : FieldRef := ⟨Reg.sxtOffset, 31, 0⟩
/-- SXT_PATH (15). -/
def Reg.sxtPath : Nat := 0xA080
def Reg.sxtPath_NS : FieldRef := ⟨Reg.sxtPath, 31, 0⟩
/-- SXT_SERVO (15). -/
def Reg.sxtServo : Nat := 0xA084
def Reg.sxtServo_STEP_EN : FieldRef := ⟨Reg.sxtServo, 31, 31⟩
def Reg.sxtServo_STEP_MS : FieldRef := ⟨Reg.sxtServo, 23, 16⟩
def Reg.sxtServo_LOCK_NS : FieldRef := ⟨Reg.sxtServo, 15, 0⟩
/-- ACT_TARGET (15). -/
def Reg.actTarget (i : Nat) : Nat := 0xA100 + 16 * i
def Reg.actTarget_NS (i : Nat) : FieldRef := ⟨(Reg.actTarget i), 31, 0⟩
/-- ACT_CTRL (15). -/
def Reg.actCtrl (i : Nat) : Nat := 0xA104 + 16 * i
def Reg.actCtrl_ARM (i : Nat) : FieldRef := ⟨(Reg.actCtrl i), 31, 31⟩
def Reg.actCtrl_STRICT (i : Nat) : FieldRef := ⟨(Reg.actCtrl i), 30, 30⟩
def Reg.actCtrl_LATE (i : Nat) : FieldRef := ⟨(Reg.actCtrl i), 29, 29⟩
def Reg.actCtrl_GPIO (i : Nat) : FieldRef := ⟨(Reg.actCtrl i), 23, 20⟩
def Reg.actCtrl_ACTION (i : Nat) : FieldRef := ⟨(Reg.actCtrl i), 17, 16⟩
def Reg.actCtrl_WIDTH (i : Nat) : FieldRef := ⟨(Reg.actCtrl i), 15, 0⟩
/-- ACT_PERIOD (15). -/
def Reg.actPeriod (i : Nat) : Nat := 0xA108 + 16 * i
def Reg.actPeriod_NS (i : Nat) : FieldRef := ⟨(Reg.actPeriod i), 31, 0⟩
/-- ACT_LATE (15). -/
def Reg.actLate (i : Nat) : Nat := 0xA10C + 16 * i
def Reg.actLate_NS (i : Nat) : FieldRef := ⟨(Reg.actLate i), 31, 0⟩
/-- CAP_CTRL (15). -/
def Reg.capCtrl (i : Nat) : Nat := 0xA140 + 8 * i
def Reg.capCtrl_EN (i : Nat) : FieldRef := ⟨(Reg.capCtrl i), 31, 31⟩
def Reg.capCtrl_OVERRUN (i : Nat) : FieldRef := ⟨(Reg.capCtrl i), 30, 30⟩
def Reg.capCtrl_EDGE (i : Nat) : FieldRef := ⟨(Reg.capCtrl i), 29, 28⟩
def Reg.capCtrl_GPIO (i : Nat) : FieldRef := ⟨(Reg.capCtrl i), 3, 0⟩
/-- CAP_TIME (15). -/
def Reg.capTime (i : Nat) : Nat := 0xA144 + 8 * i
def Reg.capTime_NS (i : Nat) : FieldRef := ⟨(Reg.capTime i), 31, 0⟩
/-- ETH_CTRL (15). -/
def Reg.ethCtrl : Nat := 0xB040
def Reg.ethCtrl_VID : FieldRef := ⟨Reg.ethCtrl, 27, 16⟩
def Reg.ethCtrl_PCP : FieldRef := ⟨Reg.ethCtrl, 15, 13⟩
def Reg.ethCtrl_VLAN_EN : FieldRef := ⟨Reg.ethCtrl, 12, 12⟩
def Reg.ethCtrl_WS_EN : FieldRef := ⟨Reg.ethCtrl, 11, 11⟩
def Reg.ethCtrl_ROLE : FieldRef := ⟨Reg.ethCtrl, 10, 10⟩
def Reg.ethCtrl_P2P : FieldRef := ⟨Reg.ethCtrl, 9, 9⟩
def Reg.ethCtrl_TRANSPORT : FieldRef := ⟨Reg.ethCtrl, 8, 7⟩
def Reg.ethCtrl_FEC : FieldRef := ⟨Reg.ethCtrl, 6, 6⟩
def Reg.ethCtrl_SPEED : FieldRef := ⟨Reg.ethCtrl, 5, 5⟩
/-- ETH_PTP (15). -/
def Reg.ethPtp : Nat := 0xB044
def Reg.ethPtp_DOMAIN : FieldRef := ⟨Reg.ethPtp, 7, 0⟩
/-- ETH_IPV4 (15). -/
def Reg.ethIpv4 : Nat := 0xB048
def Reg.ethIpv4_ADDR : FieldRef := ⟨Reg.ethIpv4, 31, 0⟩
/-- ETH_MAC_LO (15). -/
def Reg.ethMacLo : Nat := 0xB04C
def Reg.ethMacLo_MAC : FieldRef := ⟨Reg.ethMacLo, 31, 0⟩
/-- ETH_MAC_HI (15). -/
def Reg.ethMacHi : Nat := 0xB050
def Reg.ethMacHi_MAC : FieldRef := ⟨Reg.ethMacHi, 15, 0⟩
/-- ETH_ASYM (15). -/
def Reg.ethAsym : Nat := 0xB054
def Reg.ethAsym_NS : FieldRef := ⟨Reg.ethAsym, 31, 0⟩
/-- ETH_WS (15). -/
def Reg.ethWs : Nat := 0xB058
def Reg.ethWs_PERIOD : FieldRef := ⟨Reg.ethWs, 7, 0⟩
/-- ETH_WS_DA_LO (15). -/
def Reg.ethWsDaLo : Nat := 0xB05C
def Reg.ethWsDaLo_DA : FieldRef := ⟨Reg.ethWsDaLo, 31, 0⟩
/-- ETH_WS_DA_HI (15). -/
def Reg.ethWsDaHi : Nat := 0xB060
def Reg.ethWsDaHi_DA : FieldRef := ⟨Reg.ethWsDaHi, 15, 0⟩
/-- ETH_STATUS (15). -/
def Reg.ethStatus : Nat := 0xB064
def Reg.ethStatus_LINK : FieldRef := ⟨Reg.ethStatus, 31, 31⟩
def Reg.ethStatus_HELM : FieldRef := ⟨Reg.ethStatus, 30, 30⟩
def Reg.ethStatus_PORT_STATE : FieldRef := ⟨Reg.ethStatus, 3, 0⟩
/-- ETH_RX_PTP (15). -/
def Reg.ethRxPtp : Nat := 0xB068
def Reg.ethRxPtp_COUNT : FieldRef := ⟨Reg.ethRxPtp, 31, 0⟩
/-- ETH_TX_PTP (15). -/
def Reg.ethTxPtp : Nat := 0xB06C
def Reg.ethTxPtp_COUNT : FieldRef := ⟨Reg.ethTxPtp, 31, 0⟩
/-- ETH_PTP_BAD (15). -/
def Reg.ethPtpBad : Nat := 0xB070
def Reg.ethPtpBad_COUNT : FieldRef := ⟨Reg.ethPtpBad, 31, 0⟩
/-- ETH_OTHER (15). -/
def Reg.ethOther : Nat := 0xB074
def Reg.ethOther_COUNT : FieldRef := ⟨Reg.ethOther, 31, 0⟩
/-- ETH_FCS (15). -/
def Reg.ethFcs : Nat := 0xB078
def Reg.ethFcs_COUNT : FieldRef := ⟨Reg.ethFcs, 31, 0⟩
/-- ETH_INSERT_ERR (15). -/
def Reg.ethInsertErr : Nat := 0xB07C
def Reg.ethInsertErr_COUNT : FieldRef := ⟨Reg.ethInsertErr, 31, 0⟩
/-- ETH_WS_RX (15). -/
def Reg.ethWsRx : Nat := 0xB080
def Reg.ethWsRx_COUNT : FieldRef := ⟨Reg.ethWsRx, 31, 0⟩
/-- ETH_EPOCH_MISMATCH (15). -/
def Reg.ethEpochMismatch : Nat := 0xB084
def Reg.ethEpochMismatch_COUNT : FieldRef := ⟨Reg.ethEpochMismatch, 31, 0⟩
/-- ETH_HELM_DROP (15). -/
def Reg.ethHelmDrop : Nat := 0xB088
def Reg.ethHelmDrop_COUNT : FieldRef := ⟨Reg.ethHelmDrop, 31, 0⟩
/-- GPIO_CFG (15). -/
def Reg.gpioCfg (i : Nat) : Nat := 0xA180 + 4 * i
def Reg.gpioCfg_LEVEL (i : Nat) : FieldRef := ⟨(Reg.gpioCfg i), 8, 8⟩
def Reg.gpioCfg_FUNC (i : Nat) : FieldRef := ⟨(Reg.gpioCfg i), 1, 0⟩
/-- GPIO_IN (15). -/
def Reg.gpioIn : Nat := 0xA1C0
def Reg.gpioIn_LEVEL : FieldRef := ⟨Reg.gpioIn, 15, 0⟩
/-- HST_LINK (16). -/
def Reg.hstLink (h : Nat) : Nat := 0x10040 + 4096 * h
def Reg.hstLink_DL_UP (h : Nat) : FieldRef := ⟨(Reg.hstLink h), 31, 31⟩
def Reg.hstLink_FLIT (h : Nat) : FieldRef := ⟨(Reg.hstLink h), 30, 30⟩
def Reg.hstLink_SPEED (h : Nat) : FieldRef := ⟨(Reg.hstLink h), 26, 24⟩
def Reg.hstLink_WIDTH (h : Nat) : FieldRef := ⟨(Reg.hstLink h), 20, 16⟩
/-- HST_RESET (16). -/
def Reg.hstReset (h : Nat) : Nat := 0x10044 + 4096 * h
def Reg.hstReset_CAUSE (h : Nat) : FieldRef := ⟨(Reg.hstReset h), 2, 0⟩
/-- HST_RESET_TIME (16). -/
def Reg.hstResetTime (h : Nat) : Nat := 0x10048 + 4096 * h
def Reg.hstResetTime_TIME (h : Nat) : FieldRef := ⟨(Reg.hstResetTime h), 31, 0⟩
/-- HST_RESETS (16). -/
def Reg.hstResets (h : Nat) : Nat := 0x1004C + 4096 * h
def Reg.hstResets_COUNT (h : Nat) : FieldRef := ⟨(Reg.hstResets h), 31, 0⟩
/-- HST_FLOG_BASE_LO (16). -/
def Reg.hstFlogBaseLo (h : Nat) : Nat := 0x10050 + 4096 * h
def Reg.hstFlogBaseLo_ADDR (h : Nat) : FieldRef := ⟨(Reg.hstFlogBaseLo h), 31, 12⟩
/-- HST_FLOG_BASE_HI (16). -/
def Reg.hstFlogBaseHi (h : Nat) : Nat := 0x10054 + 4096 * h
def Reg.hstFlogBaseHi_ADDR (h : Nat) : FieldRef := ⟨(Reg.hstFlogBaseHi h), 31, 0⟩
/-- HST_FLOG_CTRL (16). -/
def Reg.hstFlogCtrl (h : Nat) : Nat := 0x10058 + 4096 * h
def Reg.hstFlogCtrl_EN (h : Nat) : FieldRef := ⟨(Reg.hstFlogCtrl h), 31, 31⟩
def Reg.hstFlogCtrl_LOG2 (h : Nat) : FieldRef := ⟨(Reg.hstFlogCtrl h), 4, 0⟩
/-- HST_FLOG_WR (16). -/
def Reg.hstFlogWr (h : Nat) : Nat := 0x1005C + 4096 * h
def Reg.hstFlogWr_WR (h : Nat) : FieldRef := ⟨(Reg.hstFlogWr h), 31, 0⟩
/-- HST_FLOG_RD (16). -/
def Reg.hstFlogRd (h : Nat) : Nat := 0x10060 + 4096 * h
def Reg.hstFlogRd_RD (h : Nat) : FieldRef := ⟨(Reg.hstFlogRd h), 31, 0⟩
/-- HST_FLOG_LOST (16). -/
def Reg.hstFlogLost (h : Nat) : Nat := 0x10064 + 4096 * h
def Reg.hstFlogLost_COUNT (h : Nat) : FieldRef := ⟨(Reg.hstFlogLost h), 31, 0⟩
/-- HST_VLOG_BASE_LO (16). -/
def Reg.hstVlogBaseLo (h : Nat) : Nat := 0x10068 + 4096 * h
def Reg.hstVlogBaseLo_ADDR (h : Nat) : FieldRef := ⟨(Reg.hstVlogBaseLo h), 31, 12⟩
/-- HST_VLOG_BASE_HI (16). -/
def Reg.hstVlogBaseHi (h : Nat) : Nat := 0x1006C + 4096 * h
def Reg.hstVlogBaseHi_ADDR (h : Nat) : FieldRef := ⟨(Reg.hstVlogBaseHi h), 31, 0⟩
/-- HST_VLOG_CTRL (16). -/
def Reg.hstVlogCtrl (h : Nat) : Nat := 0x10070 + 4096 * h
def Reg.hstVlogCtrl_EN (h : Nat) : FieldRef := ⟨(Reg.hstVlogCtrl h), 31, 31⟩
def Reg.hstVlogCtrl_LOG2 (h : Nat) : FieldRef := ⟨(Reg.hstVlogCtrl h), 4, 0⟩
/-- HST_VLOG_WR (16). -/
def Reg.hstVlogWr (h : Nat) : Nat := 0x10074 + 4096 * h
def Reg.hstVlogWr_WR (h : Nat) : FieldRef := ⟨(Reg.hstVlogWr h), 31, 0⟩
/-- HST_VLOG_RD (16). -/
def Reg.hstVlogRd (h : Nat) : Nat := 0x10078 + 4096 * h
def Reg.hstVlogRd_RD (h : Nat) : FieldRef := ⟨(Reg.hstVlogRd h), 31, 0⟩
/-- HST_VLOG_LOST (16). -/
def Reg.hstVlogLost (h : Nat) : Nat := 0x1007C + 4096 * h
def Reg.hstVlogLost_COUNT (h : Nat) : FieldRef := ⟨(Reg.hstVlogLost h), 31, 0⟩
/-- HST_DMA_ERR (16). -/
def Reg.hstDmaErr (h : Nat) : Nat := 0x10080 + 4096 * h
def Reg.hstDmaErr_COUNT (h : Nat) : FieldRef := ⟨(Reg.hstDmaErr h), 31, 0⟩
/-- PAR_CTRL (17). -/
def Reg.parCtrl : Nat := 0xC040
def Reg.parCtrl_GPIO_IN : FieldRef := ⟨Reg.parCtrl, 31, 28⟩
def Reg.parCtrl_GPIO_OUT : FieldRef := ⟨Reg.parCtrl, 27, 24⟩
def Reg.parCtrl_ALIVE_EN : FieldRef := ⟨Reg.parCtrl, 2, 2⟩
def Reg.parCtrl_INPUT : FieldRef := ⟨Reg.parCtrl, 1, 1⟩
def Reg.parCtrl_PREFER : FieldRef := ⟨Reg.parCtrl, 0, 0⟩
/-- PAR_STATUS (17). -/
def Reg.parStatus : Nat := 0xC044
def Reg.parStatus_ROLE : FieldRef := ⟨Reg.parStatus, 31, 30⟩
def Reg.parStatus_STATE : FieldRef := ⟨Reg.parStatus, 29, 27⟩
def Reg.parStatus_LOCK : FieldRef := ⟨Reg.parStatus, 26, 26⟩
def Reg.parStatus_ALIVE : FieldRef := ⟨Reg.parStatus, 25, 25⟩
def Reg.parStatus_TX_LANES : FieldRef := ⟨Reg.parStatus, 23, 20⟩
def Reg.parStatus_RX_LANES : FieldRef := ⟨Reg.parStatus, 19, 16⟩
/-- PAR_CMD (17). -/
def Reg.parCmd : Nat := 0xC048
def Reg.parCmd_SWAP : FieldRef := ⟨Reg.parCmd, 0, 0⟩
/-- PAR_HB (17). -/
def Reg.parHb : Nat := 0xC04C
def Reg.parHb_SKEW_LIM : FieldRef := ⟨Reg.parHb, 31, 16⟩
def Reg.parHb_HB_WAIT : FieldRef := ⟨Reg.parHb, 15, 0⟩
/-- PAR_DIV (17). -/
def Reg.parDiv : Nat := 0xC050
def Reg.parDiv_CONVERGE : FieldRef := ⟨Reg.parDiv, 15, 8⟩
def Reg.parDiv_RUN : FieldRef := ⟨Reg.parDiv, 7, 0⟩
/-- PAR_SKEW (17). -/
def Reg.parSkew : Nat := 0xC054
def Reg.parSkew_NS : FieldRef := ⟨Reg.parSkew, 31, 0⟩
/-- PAR_LAT (17). -/
def Reg.parLat : Nat := 0xC058
def Reg.parLat_NS : FieldRef := ⟨Reg.parLat, 31, 0⟩
/-- PAR_RSIG_J (17). -/
def Reg.parRsigJ : Nat := 0xC05C
def Reg.parRsigJ_J : FieldRef := ⟨Reg.parRsigJ, 31, 0⟩
/-- PAR_RSIG_PEER (17). -/
def Reg.parRsigPeer : Nat := 0xC060
def Reg.parRsigPeer_RSIG : FieldRef := ⟨Reg.parRsigPeer, 31, 0⟩
/-- PAR_PEER_SN_LO (17). -/
def Reg.parPeerSnLo : Nat := 0xC064
def Reg.parPeerSnLo_SN : FieldRef := ⟨Reg.parPeerSnLo, 31, 0⟩
/-- PAR_PEER_SN_HI (17). -/
def Reg.parPeerSnHi : Nat := 0xC068
def Reg.parPeerSnHi_SN : FieldRef := ⟨Reg.parPeerSnHi, 31, 0⟩
/-- PAR_MISMATCH (17). -/
def Reg.parMismatch : Nat := 0xC06C
def Reg.parMismatch_COUNT : FieldRef := ⟨Reg.parMismatch, 31, 0⟩
/-- PAR_COMPARED (17). -/
def Reg.parCompared : Nat := 0xC070
def Reg.parCompared_COUNT : FieldRef := ⟨Reg.parCompared, 31, 0⟩
/-- PAR_RETRY (17). -/
def Reg.parRetry : Nat := 0xC074
def Reg.parRetry_COUNT : FieldRef := ⟨Reg.parRetry, 31, 0⟩
/-- PAR_VIOL (17). -/
def Reg.parViol : Nat := 0xC078
def Reg.parViol_COUNT : FieldRef := ⟨Reg.parViol, 31, 0⟩
/-- PAR_FAILOVER (17). -/
def Reg.parFailover : Nat := 0xC07C
def Reg.parFailover_COUNT : FieldRef := ⟨Reg.parFailover, 31, 0⟩
/-- PWR_CTRL (18). -/
def Reg.pwrCtrl : Nat := 0x5040
def Reg.pwrCtrl_MIN_RESET : FieldRef := ⟨Reg.pwrCtrl, 0, 0⟩
/-- PWR_STATUS (18). -/
def Reg.pwrStatus : Nat := 0x5044
def Reg.pwrStatus_WARN : FieldRef := ⟨Reg.pwrStatus, 31, 31⟩
def Reg.pwrStatus_HOLDOFF : FieldRef := ⟨Reg.pwrStatus, 30, 30⟩
def Reg.pwrStatus_OV : FieldRef := ⟨Reg.pwrStatus, 29, 29⟩
def Reg.pwrStatus_VHOLD_LOW : FieldRef := ⟨Reg.pwrStatus, 28, 28⟩
def Reg.pwrStatus_RAILS : FieldRef := ⟨Reg.pwrStatus, 9, 0⟩
/-- PWR_WARN_LAST (18). -/
def Reg.pwrWarnLast : Nat := 0x5048
def Reg.pwrWarnLast_RAIL : FieldRef := ⟨Reg.pwrWarnLast, 31, 28⟩
def Reg.pwrWarnLast_MIN : FieldRef := ⟨Reg.pwrWarnLast, 15, 0⟩
/-- PWR_WARN_TIME (18). -/
def Reg.pwrWarnTime : Nat := 0x504C
def Reg.pwrWarnTime_TIME : FieldRef := ⟨Reg.pwrWarnTime, 31, 0⟩
/-- PWR_WARN_DUR (18). -/
def Reg.pwrWarnDur : Nat := 0x5050
def Reg.pwrWarnDur_NS : FieldRef := ⟨Reg.pwrWarnDur, 31, 0⟩
/-- PWR_WARNS (18). -/
def Reg.pwrWarns : Nat := 0x5054
def Reg.pwrWarns_COUNT : FieldRef := ⟨Reg.pwrWarns, 31, 0⟩
/-- PWR_DOM_ON (18). -/
def Reg.pwrDomOn (i : Nat) : Nat := 0x5060 + 4 * i
def Reg.pwrDomOn_ON (i : Nat) : FieldRef := ⟨(Reg.pwrDomOn i), 31, 0⟩
/-- PWR_RAIL (18). -/
def Reg.pwrRail (i : Nat) : Nat := 0x5080 + 4 * i
def Reg.pwrRail_MIN (i : Nat) : FieldRef := ⟨(Reg.pwrRail i), 31, 16⟩
def Reg.pwrRail_NOW (i : Nat) : FieldRef := ⟨(Reg.pwrRail i), 15, 0⟩
/-- RST_CTRL (18). -/
def Reg.rstCtrl : Nat := 0x6040
def Reg.rstCtrl_OUT_ON_WARM : FieldRef := ⟨Reg.rstCtrl, 8, 8⟩
def Reg.rstCtrl_WARM : FieldRef := ⟨Reg.rstCtrl, 0, 0⟩
/-- RST_CAUSE (18). -/
def Reg.rstCause : Nat := 0x6044
def Reg.rstCause_COLD : FieldRef := ⟨Reg.rstCause, 31, 28⟩
def Reg.rstCause_WARM : FieldRef := ⟨Reg.rstCause, 27, 24⟩
def Reg.rstCause_WARMS_10S : FieldRef := ⟨Reg.rstCause, 7, 0⟩
/-- RST_COUNT (18). -/
def Reg.rstCount : Nat := 0x6048
def Reg.rstCount_COLD : FieldRef := ⟨Reg.rstCount, 31, 16⟩
def Reg.rstCount_WARM : FieldRef := ⟨Reg.rstCount, 15, 0⟩
/-- RST_STEP (18). -/
def Reg.rstStep : Nat := 0x604C
def Reg.rstStep_HALTED : FieldRef := ⟨Reg.rstStep, 31, 31⟩
def Reg.rstStep_NOCLK : FieldRef := ⟨Reg.rstStep, 23, 16⟩
def Reg.rstStep_STEP : FieldRef := ⟨Reg.rstStep, 3, 0⟩
/-- RST_WDOG (18). -/
def Reg.rstWdog : Nat := 0x6050
def Reg.rstWdog_EN : FieldRef := ⟨Reg.rstWdog, 31, 31⟩
def Reg.rstWdog_TIMEOUT : FieldRef := ⟨Reg.rstWdog, 15, 0⟩
/-- RST_WDOG_KICK (18). -/
def Reg.rstWdogKick : Nat := 0x6054
def Reg.rstWdogKick_KEY : FieldRef := ⟨Reg.rstWdogKick, 15, 0⟩
/-- RST_WDOG_LEFT (18). -/
def Reg.rstWdogLeft : Nat := 0x6058
def Reg.rstWdogLeft_MS : FieldRef := ⟨Reg.rstWdogLeft, 15, 0⟩
/-- CLK_STATUS (18). -/
def Reg.clkStatus : Nat := 0x7040
def Reg.clkStatus_REF_OK : FieldRef := ⟨Reg.clkStatus, 31, 31⟩
def Reg.clkStatus_OSC : FieldRef := ⟨Reg.clkStatus, 30, 30⟩
/-- CLK_MEAS_SEL (18). -/
def Reg.clkMeasSel : Nat := 0x7044
def Reg.clkMeasSel_DOMAIN : FieldRef := ⟨Reg.clkMeasSel, 7, 0⟩
/-- CLK_MEAS (18). -/
def Reg.clkMeas : Nat := 0x7048
def Reg.clkMeas_VALID : FieldRef := ⟨Reg.clkMeas, 31, 31⟩
def Reg.clkMeas_KHZ : FieldRef := ⟨Reg.clkMeas, 23, 0⟩
/-- CLK_LOSS (18). -/
def Reg.clkLoss : Nat := 0x704C
def Reg.clkLoss_COUNT : FieldRef := ⟨Reg.clkLoss, 31, 0⟩
/-- CLK_GOOD (18). -/
def Reg.clkGood (i : Nat) : Nat := 0x7060 + 4 * i
def Reg.clkGood_GOOD (i : Nat) : FieldRef := ⟨(Reg.clkGood i), 31, 0⟩
/-- ADM_BUDGET (18). -/
def Reg.admBudget : Nat := 0x4040
def Reg.admBudget_UNITS : FieldRef := ⟨Reg.admBudget, 9, 0⟩
/-- ADM_STATUS (18). -/
def Reg.admStatus : Nat := 0x4044
def Reg.admStatus_BLOCKED : FieldRef := ⟨Reg.admStatus, 31, 31⟩
def Reg.admStatus_CUT : FieldRef := ⟨Reg.admStatus, 30, 30⟩
def Reg.admStatus_EFFECTIVE : FieldRef := ⟨Reg.admStatus, 25, 16⟩
def Reg.admStatus_IN_USE : FieldRef := ⟨Reg.admStatus, 9, 0⟩
/-- ADM_QUEUE (18). -/
def Reg.admQueue : Nat := 0x4048
def Reg.admQueue_HEAD : FieldRef := ⟨Reg.admQueue, 15, 8⟩
def Reg.admQueue_WAITING : FieldRef := ⟨Reg.admQueue, 7, 0⟩
/-- ADM_GRANTS (18). -/
def Reg.admGrants : Nat := 0x404C
def Reg.admGrants_COUNT : FieldRef := ⟨Reg.admGrants, 31, 0⟩
/-- ADM_WAIT_PEAK (18). -/
def Reg.admWaitPeak : Nat := 0x4050
def Reg.admWaitPeak_US : FieldRef := ⟨Reg.admWaitPeak, 31, 0⟩
/-- THM_STATUS (19). -/
def Reg.thmStatus : Nat := 0x8040
def Reg.thmStatus_LEVEL : FieldRef := ⟨Reg.thmStatus, 31, 30⟩
def Reg.thmStatus_HOT_ZONE : FieldRef := ⟨Reg.thmStatus, 20, 16⟩
def Reg.thmStatus_FAILED : FieldRef := ⟨Reg.thmStatus, 6, 0⟩
/-- THM_THR_DIE (19). -/
def Reg.thmThrDie : Nat := 0x8044
def Reg.thmThrDie_T_L3 : FieldRef := ⟨Reg.thmThrDie, 23, 16⟩
def Reg.thmThrDie_T_L2 : FieldRef := ⟨Reg.thmThrDie, 15, 8⟩
def Reg.thmThrDie_T_L1 : FieldRef := ⟨Reg.thmThrDie, 7, 0⟩
/-- THM_LATCH (19). -/
def Reg.thmLatch : Nat := 0x8048
def Reg.thmLatch_LATCH : FieldRef := ⟨Reg.thmLatch, 31, 31⟩
def Reg.thmLatch_ZONE : FieldRef := ⟨Reg.thmLatch, 4, 0⟩
/-- THM_THR_STK (19). -/
def Reg.thmThrStk : Nat := 0x804C
def Reg.thmThrStk_T_L3 : FieldRef := ⟨Reg.thmThrStk, 23, 16⟩
def Reg.thmThrStk_T_L2 : FieldRef := ⟨Reg.thmThrStk, 15, 8⟩
def Reg.thmThrStk_T_L1 : FieldRef := ⟨Reg.thmThrStk, 7, 0⟩
/-- THM_LEVEL_UPS (19). -/
def Reg.thmLevelUps : Nat := 0x8050
def Reg.thmLevelUps_COUNT : FieldRef := ⟨Reg.thmLevelUps, 31, 0⟩
/-- THM_ZONE (19). -/
def Reg.thmZone (i : Nat) : Nat := 0x8100 + 4 * i
def Reg.thmZone_TEMP (i : Nat) : FieldRef := ⟨(Reg.thmZone i), 31, 16⟩
def Reg.thmZone_LEVEL (i : Nat) : FieldRef := ⟨(Reg.thmZone i), 15, 14⟩
def Reg.thmZone_FAIL_HI (i : Nat) : FieldRef := ⟨(Reg.thmZone i), 13, 13⟩
def Reg.thmZone_FAIL_LO (i : Nat) : FieldRef := ⟨(Reg.thmZone i), 12, 12⟩
/-- THM_SENSOR (19). -/
def Reg.thmSensor (i : Nat) : Nat := 0x8200 + 4 * i
def Reg.thmSensor_FAILED (i : Nat) : FieldRef := ⟨(Reg.thmSensor i), 31, 31⟩
def Reg.thmSensor_READING (i : Nat) : FieldRef := ⟨(Reg.thmSensor i), 15, 0⟩
/-- CAL_CTRL (19). -/
def Reg.calCtrl : Nat := 0x9040
def Reg.calCtrl_START : FieldRef := ⟨Reg.calCtrl, 31, 31⟩
def Reg.calCtrl_DRY_RUN : FieldRef := ⟨Reg.calCtrl, 8, 8⟩
def Reg.calCtrl_TARGETS : FieldRef := ⟨Reg.calCtrl, 3, 0⟩
/-- CAL_STATUS (19). -/
def Reg.calStatus : Nat := 0x9044
def Reg.calStatus_BUSY : FieldRef := ⟨Reg.calStatus, 31, 31⟩
def Reg.calStatus_WAIT_LEAVE : FieldRef := ⟨Reg.calStatus, 30, 30⟩
def Reg.calStatus_TARGET : FieldRef := ⟨Reg.calStatus, 29, 28⟩
def Reg.calStatus_RESULT : FieldRef := ⟨Reg.calStatus, 23, 16⟩
/-- CAL_DONE_TIME (19). -/
def Reg.calDoneTime : Nat := 0x9048
def Reg.calDoneTime_TIME : FieldRef := ⟨Reg.calDoneTime, 31, 0⟩
/-- CAL_REF (19). -/
def Reg.calRef : Nat := 0x904C
def Reg.calRef_DEV_PPM : FieldRef := ⟨Reg.calRef, 15, 0⟩
/-- CAL_DELTA (19). -/
def Reg.calDelta : Nat := 0x9050
def Reg.calDelta_BELFRY : FieldRef := ⟨Reg.calDelta, 31, 24⟩
def Reg.calDelta_BEACON : FieldRef := ⟨Reg.calDelta, 23, 16⟩
def Reg.calDelta_THERMAL : FieldRef := ⟨Reg.calDelta, 15, 8⟩
def Reg.calDelta_RAILS : FieldRef := ⟨Reg.calDelta, 7, 0⟩
/-- CAL_QUERY (19). -/
def Reg.calQuery : Nat := 0x9054
def Reg.calQuery_TARGET : FieldRef := ⟨Reg.calQuery, 17, 16⟩
def Reg.calQuery_INDEX : FieldRef := ⟨Reg.calQuery, 8, 0⟩
/-- CAL_QUERY_OUT (19). -/
def Reg.calQueryOut : Nat := 0x9058
def Reg.calQueryOut_VALID : FieldRef := ⟨Reg.calQueryOut, 31, 31⟩
def Reg.calQueryOut_DRY : FieldRef := ⟨Reg.calQueryOut, 15, 8⟩
def Reg.calQueryOut_LIVE : FieldRef := ⟨Reg.calQueryOut, 7, 0⟩
/-- CAL_UNITS (19). -/
def Reg.calUnits : Nat := 0x905C
def Reg.calUnits_UNITS : FieldRef := ⟨Reg.calUnits, 7, 0⟩
/-- HLM_STATUS (20). -/
def Reg.hlmStatus : Nat := 0x1040
def Reg.hlmStatus_CORES : FieldRef := ⟨Reg.hlmStatus, 31, 28⟩
def Reg.hlmStatus_STATE : FieldRef := ⟨Reg.hlmStatus, 23, 20⟩
def Reg.hlmStatus_BOOT_SLOT : FieldRef := ⟨Reg.hlmStatus, 16, 16⟩
/-- HLM_SLOT (20). -/
def Reg.hlmSlot (i : Nat) : Nat := 0x1044 + 4 * i
def Reg.hlmSlot_STATE (i : Nat) : FieldRef := ⟨(Reg.hlmSlot i), 31, 28⟩
def Reg.hlmSlot_PENDING (i : Nat) : FieldRef := ⟨(Reg.hlmSlot i), 27, 27⟩
def Reg.hlmSlot_SVN (i : Nat) : FieldRef := ⟨(Reg.hlmSlot i), 23, 16⟩
/-- HLM_SLOT_VER (20). -/
def Reg.hlmSlotVer (i : Nat) : Nat := 0x104C + 4 * i
def Reg.hlmSlotVer_VERSION (i : Nat) : FieldRef := ⟨(Reg.hlmSlotVer i), 31, 0⟩
/-- HLM_BOOTS (20). -/
def Reg.hlmBoots : Nat := 0x1054
def Reg.hlmBoots_COUNT : FieldRef := ⟨Reg.hlmBoots, 31, 0⟩
/-- MBX_CMD (20). -/
def Reg.mbxCmd (i : Nat) : Nat := 0x1100 + 128 * i
def Reg.mbxCmd_GO (i : Nat) : FieldRef := ⟨(Reg.mbxCmd i), 31, 31⟩
def Reg.mbxCmd_PARAM (i : Nat) : FieldRef := ⟨(Reg.mbxCmd i), 23, 16⟩
def Reg.mbxCmd_VECTOR (i : Nat) : FieldRef := ⟨(Reg.mbxCmd i), 15, 8⟩
def Reg.mbxCmd_OP (i : Nat) : FieldRef := ⟨(Reg.mbxCmd i), 7, 0⟩
/-- MBX_STATUS (20). -/
def Reg.mbxStatus (i : Nat) : Nat := 0x1104 + 128 * i
def Reg.mbxStatus_BUSY (i : Nat) : FieldRef := ⟨(Reg.mbxStatus i), 31, 31⟩
def Reg.mbxStatus_STATUS (i : Nat) : FieldRef := ⟨(Reg.mbxStatus i), 23, 16⟩
def Reg.mbxStatus_INFO (i : Nat) : FieldRef := ⟨(Reg.mbxStatus i), 15, 0⟩
/-- MBX_ARG (20). -/
def Reg.mbxArg (i j : Nat) : Nat := 0x1110 + 128 * i + 4 * j
def Reg.mbxArg_ARG (i j : Nat) : FieldRef := ⟨(Reg.mbxArg i j), 31, 0⟩
/-- MBX_RSP (20). -/
def Reg.mbxRsp (i j : Nat) : Nat := 0x1150 + 128 * i + 4 * j
def Reg.mbxRsp_RSP (i j : Nat) : FieldRef := ⟨(Reg.mbxRsp i j), 31, 0⟩
/-- KEP_SERIAL_LO (20). -/
def Reg.kepSerialLo : Nat := 0x2040
def Reg.kepSerialLo_SN : FieldRef := ⟨Reg.kepSerialLo, 31, 0⟩
/-- KEP_SERIAL_HI (20). -/
def Reg.kepSerialHi : Nat := 0x2044
def Reg.kepSerialHi_SN : FieldRef := ⟨Reg.kepSerialHi, 31, 0⟩
/-- KEP_STATE (20). -/
def Reg.kepState : Nat := 0x2048
def Reg.kepState_PROVISIONED : FieldRef := ⟨Reg.kepState, 31, 31⟩
def Reg.kepState_PENDING : FieldRef := ⟨Reg.kepState, 30, 30⟩
def Reg.kepState_JTAG_LOCKED : FieldRef := ⟨Reg.kepState, 29, 29⟩
def Reg.kepState_OWNER : FieldRef := ⟨Reg.kepState, 25, 24⟩
def Reg.kepState_BIFUR : FieldRef := ⟨Reg.kepState, 17, 16⟩
/-- KEP_SVN (20). -/
def Reg.kepSvn : Nat := 0x204C
def Reg.kepSvn_LEFT : FieldRef := ⟨Reg.kepSvn, 15, 8⟩
def Reg.kepSvn_FW_SVN : FieldRef := ⟨Reg.kepSvn, 7, 0⟩
/-- KEP_SUBSYS (20). -/
def Reg.kepSubsys : Nat := 0x2050
def Reg.kepSubsys_SUBSYS_ID : FieldRef := ⟨Reg.kepSubsys, 31, 16⟩
def Reg.kepSubsys_SUBSYS_VID : FieldRef := ⟨Reg.kepSubsys, 15, 0⟩
/-- KEP_MR (20). -/
def Reg.kepMr (i j : Nat) : Nat := 0x2100 + 64 * i + 4 * j
def Reg.kepMr_BYTES (i j : Nat) : FieldRef := ⟨(Reg.kepMr i j), 31, 0⟩
/-- WCH_CTRL (20). -/
def Reg.wchCtrl : Nat := 0x3040
def Reg.wchCtrl_EN : FieldRef := ⟨Reg.wchCtrl, 6, 0⟩
/-- WCH_PERIOD (20). -/
def Reg.wchPeriod : Nat := 0x3044
def Reg.wchPeriod_CLUSTER_S : FieldRef := ⟨Reg.wchPeriod, 31, 16⟩
def Reg.wchPeriod_OTHER_S : FieldRef := ⟨Reg.wchPeriod, 15, 0⟩
/-- WCH_STATUS (20). -/
def Reg.wchStatus : Nat := 0x3048
def Reg.wchStatus_ACTIVE : FieldRef := ⟨Reg.wchStatus, 31, 31⟩
def Reg.wchStatus_WAIT_LEAVE : FieldRef := ⟨Reg.wchStatus, 30, 30⟩
def Reg.wchStatus_SWEEP : FieldRef := ⟨Reg.wchStatus, 29, 29⟩
def Reg.wchStatus_CLASS : FieldRef := ⟨Reg.wchStatus, 18, 16⟩
def Reg.wchStatus_TARGET : FieldRef := ⟨Reg.wchStatus, 15, 0⟩
/-- WCH_PASS (20). -/
def Reg.wchPass : Nat := 0x304C
def Reg.wchPass_COUNT : FieldRef := ⟨Reg.wchPass, 31, 0⟩
/-- WCH_FAIL (20). -/
def Reg.wchFail : Nat := 0x3050
def Reg.wchFail_COUNT : FieldRef := ⟨Reg.wchFail, 31, 0⟩
/-- WCH_LEAVE (20). -/
def Reg.wchLeave : Nat := 0x3054
def Reg.wchLeave_CLUSTER : FieldRef := ⟨Reg.wchLeave, 15, 12⟩
def Reg.wchLeave_ENGINE : FieldRef := ⟨Reg.wchLeave, 11, 8⟩
def Reg.wchLeave_FRAME : FieldRef := ⟨Reg.wchLeave, 7, 4⟩
def Reg.wchLeave_LANE : FieldRef := ⟨Reg.wchLeave, 3, 0⟩

end Sys2Proof.Machine
end

