-- ==== Sys2Proof/Machine/Sparse.lean ====
section
/-! DEFINITION. Sparse tables in one canonical form: keys strictly rising and no entry equal to what an unlisted key reads as. Registers, scene memory, object tables, rings and every other indexed part of State are kept so; equal tables are equal data. -/

namespace Sys2Proof.Machine

/-- What a key reads as: its entry, or the default of an unlisted key. -/
def sget {α : Type} (d : Nat → α) : Sparse α → Nat → α
  | [], k => d k
  | (j, v) :: r, k => if j = k then v else sget d r k

/-- Inserts an entry before the first larger key. -/
def sinsert {α : Type} : Sparse α → Nat → α → Sparse α
  | [], k, v => [(k, v)]
  | (j, w) :: r, k, v => if k < j then (k, v) :: (j, w) :: r else (j, w) :: sinsert r k v

/-- Removes a key's entry. -/
def serase {α : Type} (l : Sparse α) (k : Nat) : Sparse α := l.filter (fun e => e.1 != k)

/-- Writes a key: a value equal to the default of an unlisted key removes the entry. -/
def sput {α : Type} [DecidableEq α] (d : Nat → α) (l : Sparse α) (k : Nat) (v : α) : Sparse α :=
  if v = d k then serase l k else sinsert (serase l k) k v

/-- Keys strictly rising from `lo` on and no entry equal to its default. -/
def swfFrom {α : Type} [DecidableEq α] (d : Nat → α) : Nat → Sparse α → Bool
  | _, [] => true
  | lo, (k, v) :: r => decide (lo ≤ k) && decide (v ≠ d k) && swfFrom d (k + 1) r

/-- The canonical form of a sparse table. -/
def swf {α : Type} [DecidableEq α] (d : Nat → α) (l : Sparse α) : Bool := swfFrom d 0 l

/-- Changes one key by a function. -/
def smod {α : Type} [DecidableEq α] (d : Nat → α) (l : Sparse α) (k : Nat) (f : α → α) : Sparse α := sput d l k (f (sget d l k))

/-- Adds a number to a strictly rising list of numbers (a set). -/
def setInsert (l : List Nat) (k : Nat) : List Nat :=
  match l with
  | [] => [k]
  | j :: r => if k < j then k :: j :: r else if k = j then j :: r else j :: setInsert r k

/-- Removes a number from a set. -/
def setErase (l : List Nat) (k : Nat) : List Nat := l.filter (fun j => j != k)

end Sys2Proof.Machine
end

