-- ==== Sys2Proof/Machine/State.lean ====
section
/-! DEFINITION. The state of the OL-8128: plain data holding every register, table, queue, buffer, counter and pin the spec gives the block, the queue of waiting commands, the outcomes, and the state after a cold reset. -/

namespace Sys2Proof.Machine

/-! ## Messages out of the device -/

/-- What a row of the Elwen schedule carries (R334): one control block on every lane, or the payload of each lane that carries data. -/
inductive RowBody where
  | control (bytes : List Byte)
  | data (lanes : List (Nat × List Byte))
  deriving DecidableEq, Repr

/-- What leaves the device, newest first in `State.out`: answers to reads, writes and read requests on host links, messages on the panel, pair, time and sideband ports, and pin levels. -/
inductive Output where
  /-- The answer to a register read of a host (R31 to R33). -/
  | readData (h page off : Nat) (v : BitVec 32)
  /-- The answer to a sideband read: the register and the PEC byte (R574); none: not acknowledged. -/
  | sideband (v : Option (BitVec 32 × Byte))
  /-- A read request to host memory (R248, R251, R286, R545). -/
  | hostRead (h addr len : Nat)
  /-- A write to host memory: completions, READBACK blocks, log entries, spilled granules (R438). -/
  | hostWrite (h addr : Nat) (bytes : List Byte)
  /-- An MSI-X message (R55, R254, R444). -/
  | msix (h vec : Nat)
  /-- The completion of a BAR2 read (R298, R300); poisoned when a word is uncorrectable (R289). -/
  | bar2Data (h : Nat) (bytes : List Byte) (poisoned : Bool)
  /-- An error answer to a request: 0 Unsupported Request, 1 Completer Abort (R443, R452, R453). -/
  | linkError (h : Nat) (code : Nat)
  /-- A row sent on a panel port (R333 to R335): port, its place in the schedule (ROW before it wraps), what it carries. -/
  | row (port row : Nat) (body : RowBody)
  /-- A line of pixels sent identically on ports P and Q (R20): line and words. -/
  | line (y : Nat) (words : List (BitVec 32))
  /-- A control block sent on the pair link (Table 17.1). -/
  | pairBlock (bytes : List Byte)
  /-- A frame sent on the time port. -/
  | frame (bytes : List Byte)
  /-- A frame handed to Helm (R423). -/
  | toHelm (bytes : List Byte)
  /-- A data object written to a host's DOE mailbox (R458). -/
  | doe (h : Nat) (bytes : List Byte)
  /-- A Beacon pulse fired: zone, string, subframe j, index k, start and end on the 2.5 ns grid (R373). -/
  | pulse (z s j k high low : Nat)
  /-- GATE of a string switches while its DIM is high, an instant in ns after DIM went high (R370). -/
  | gate (z s at_ : Nat) (level : Bool)
  /-- A pin driven: the name as the spec's ball list has it. -/
  | pin (name : String) (level : Bool)
  /-- A symbol period of a transmit lane after its equalizer: lane (0 to 31, 36 to 39) and the levels in units of mV / 192, a codeword or as many symbols of a pattern (R331, R359, R362). -/
  | drive (lane : Nat) (levels : List Int)
  deriving DecidableEq, Repr

/-! ## The common core: registers, time, host links, logs -/

/-- Scrambler and precoder of a transmit lane (R331), and its last two levels, the second not driven yet (R359). -/
structure TxCode where
  sc    : Nat
  pprev : Nat
  last  : Int
  held  : Int
  deriving DecidableEq, Repr

/-- A lane's coder before its first codeword. -/
def TxCode.rest : TxCode := ⟨0, 0, 0, 0⟩

/-- Pattern generator and checker of a lane (R362): the generator's register, the bits that the checker has received for its seed, its register once seeded, and the bits checked since LNK_PRBS_MBITS last counted. -/
structure Prbs where
  gen    : Nat
  seed   : List Nat
  check  : Option Nat
  bits   : Nat
  deriving DecidableEq, Repr

/-- Pattern units at rest. -/
def Prbs.rest : Prbs := ⟨0x7FFFFFFF, [], none, 0⟩

/-- The alignment hunt of a receive lane (Table 12.4): the bit offset examined, the candidate at which CONFIRM began, headers examined and those of them that are 01 or 10, advances by one block, codewords decoded in a row. -/
structure Hunt where
  o     : Nat
  from_ : Nat
  seen  : Nat
  valid : Nat
  adv   : Nat
  run   : Nat
  deriving DecidableEq, Repr

/-- A hunt at its first candidate. -/
def Hunt.rest : Hunt := ⟨0, 0, 0, 0, 0, 0⟩

/-- The serial lanes below the row layer: the tick at which the codeword and row schedule began (R332), the rows of ports P and Q that wait for their place in it (port, ROW before it wraps, content), the blocks that wait for a row of the pair link (data header, bytes) and the lanes that its codeword uses (bit k: XTk), the codewords of LINK_DARK that an ended port still sends (cause, count), and by lane the coders, the pattern units and the hunts. -/
structure Wire where
  since : Option Nat
  rows  : List (Nat × Nat × RowBody)
  pair  : List (Bool × List Byte)
  stripe : Nat
  tails : Sparse (Option (Nat × Nat))
  codes : Sparse TxCode
  prbs  : Sparse Prbs
  hunts : Sparse Hunt
  deriving DecidableEq, Repr

/-- One log entry while it waits in an on-chip queue: Table 2.8 without the sequence number. -/
structure LogEntry where
  time   : Nat
  page   : Nat
  cls    : Nat
  code   : Nat
  inst   : Nat
  detail : List Byte
  deriving DecidableEq, Repr

/-- The on-chip queue of one log and its sequence counter (R448, R449). -/
structure LogQ where
  waiting : List LogEntry
  seq     : Nat
  deriving DecidableEq, Repr

/-- One host's function and link (R442 to R460): Bus Master Enable, D3hot, link state, MSI-X. -/
structure Link where
  bme      : Bool
  d3hot    : Bool
  up       : Bool
  everUp   : Bool
  /-- Vectors that are not masked, with MSI-X enabled (R445). -/
  unmasked : List Nat
  /-- The Pending Bit Array (R445). -/
  pba      : List Nat
  /-- Tick at which a link reset in progress began (R456). -/
  resetAt  : Option Nat
  deriving DecidableEq, Repr

/-- The reset state of a link: PCI Express reset values. -/
def Link.cold : Link := ⟨false, false, false, false, [], [], none⟩

/-- The common core of State: what every unit's events, faults and register accesses touch. -/
structure Base where
  /-- Every 32-bit register that is not at its cold value, by key (page × 4096 + offset; the copy of host h of a register of R46 at + (h + 1) × 2²²). -/
  regs   : Sparse (BitVec 32)
  /-- Elapsed 1.6 ns device ticks since power-up (the model's own count of real time; an always-on tick is 4 of them). -/
  ticks  : Nat
  /-- The Sextant accumulator: 32 bits of wraps, 32 bits of nanoseconds, 32 bits of fraction (R408). -/
  acc    : Nat
  /-- The own state of every page that is not OFF (Table 2.4), by page; derived states follow from these (R38 to R40). -/
  own    : Sparse Nat
  /-- Hosts that the bifurcation in force creates: 1, 2 or 4 (R439). -/
  nhosts : Nat
  /-- The owner host (R441). -/
  owner  : Nat
  /-- The links of hosts 0 to 3. -/
  links  : Sparse Link
  /-- The fault log (2h) and violation log (2h + 1) queues. -/
  logs   : Sparse LogQ
  /-- Everything sent, newest first. -/
  out    : List Output
  /-- The model's own counter of free values drawn (not the spec's). -/
  fresh  : Nat
  /-- Pages whose unit reset the root's unit reset has started and that have not completed it (Table 2.3). -/
  rootWaits : List Nat
  /-- The serial lanes below the row layer. -/
  wire   : Wire
  deriving DecidableEq, Repr

/-! ## Configuration transactions (R48 to R53) -/

/-- The staged copies of RWS registers and the state of the single configuration transaction. -/
structure Cfg where
  /-- Staged values of the open or sealed transaction, by key. -/
  staged  : Sparse (Option (BitVec 32))
  /-- Values applied at the last cut that wait for slot 0 (R198, R233, R359). -/
  slot0   : Sparse (Option (BitVec 32))
  /-- Sextant nanosecond of the seal, and whether any next cut applies it (R51, R432). -/
  sealAt  : Nat
  anyCut  : Bool
  /-- The seal's target (64-bit E) when WHEN was 1, CFG_CTRL.STRICT at the seal, and whether the target has been found past. -/
  target  : Option Nat
  strict  : Bool
  late    : Bool
  deriving DecidableEq, Repr

/-! ## The scene (chapter "Contexts, layers and watch regions") -/

/-- A context (Table 4.1); `oid` tells one object from a later one under the same handle. -/
structure Ctx where
  oid    : Nat
  veil   : Nat
  bound  : Nat
  shared : Bool
  age0   : Nat
  deriving DecidableEq, Repr

/-- A layer (Table 4.2) with the granule lists of its colour plane and ZT16 plane (R277). X, Y and DEPTH hold their 16-bit two's complement values. -/
structure Layer where
  oid     : Nat
  ctx     : Nat
  kind    : Nat
  format  : Nat
  visible : Bool
  pin     : Bool
  opacity : Nat
  x       : Nat
  y       : Nat
  width   : Nat
  height  : Nat
  depth   : Nat
  stack   : Nat
  fg      : Nat
  bg      : Nat
  gc      : List Nat
  gz      : List Nat
  deriving DecidableEq, Repr

/-- A watch region (Table 4.6); `lhost` is the host whose layer LAYER names (R115). -/
structure Region where
  oid      : Nat
  ctx      : Nat
  layer    : Nat
  lhost    : Nat
  critical : Bool
  x        : Nat
  y        : Nat
  w        : Nat
  h        : Nat
  deriving DecidableEq, Repr

/-- Contexts, layers and regions by key (host × 65536 + handle, R90). -/
structure Scene where
  ctxs    : Sparse (Option Ctx)
  layers  : Sparse (Option Layer)
  regions : Sparse (Option Region)
  deriving DecidableEq, Repr

/-- One change of a transaction: the object under a key becomes this one, or leaves the scene. -/
inductive SceneOp where
  | ctx (key : Nat) (v : Option Ctx)
  | layer (key : Nat) (v : Option Layer)
  | region (key : Nat) (v : Option Region)
  deriving DecidableEq, Repr

/-- A staged age (R228): context key, context object, age in ms. -/
structure StagedAge where
  key : Nat
  oid : Nat
  age : Nat
  deriving DecidableEq, Repr

/-- The object kinds of the scene, as READBACK numbers them. -/
inductive ObjKind where
  | ctx | layer | region
  deriving DecidableEq, Repr

/-- An OPEN or CLOSING transaction (Table 9.7). -/
structure Txn where
  closing  : Bool
  /-- A command other than READBACK has been accepted (R262). -/
  accepted : Bool
  ops      : List SceneOp
  ages     : List StagedAge
  /-- LIVE objects held (R111). -/
  holds    : List (ObjKind × Nat)
  /-- Granules taken for the transaction's planes and staged copies. -/
  grans    : List Nat
  /-- Context, layer and region entries taken for staged objects. -/
  newCtx   : Nat
  newLayer : Nat
  newReg   : Nat
  /-- The TX_COMMIT or SCHED_COMMIT that closed it: the id of its descriptor. -/
  commit   : Option Nat
  /-- SCHED_COMMIT: the 32-bit TARGET and SCHED_STRICT. -/
  sched    : Option (Nat × Bool)
  /-- The 64-bit E at which a scheduled seal is due, once its target has been found future (R205). -/
  due      : Option Nat
  /-- Found past at its processing point, or held back past its target by the limit of 256 (R205, R261). -/
  past     : Bool
  /-- Order of the processing points (R264). -/
  pord     : Nat
  /-- Staged copies whose original has not been read with its error check yet: original, copy (R280, R289). -/
  copies   : List (Nat × Nat)
  deriving DecidableEq, Repr

/-- A sealed transaction waiting for its cut (R203, R204). -/
structure Sealed where
  host     : Nat
  handle   : Nat
  ops      : List SceneOp
  ages     : List StagedAge
  grans    : List Nat
  stamp    : Nat
  /-- 64-bit E of the seal, 0 for a scheduled seal and 1 otherwise (R264), and the order of sealing. -/
  sealE    : Nat
  kind     : Nat
  order    : Nat
  /-- Applied at the first cut after a SET load, whatever its stamp (R432). -/
  anyCut   : Bool
  late     : Option Nat
  commit   : Nat
  deriving DecidableEq, Repr

/-- The committed scene, the open and the sealed transactions. -/
structure Scenes where
  live    : Scene
  /-- OPEN and CLOSING transactions by host × 256 + handle. -/
  txns    : Sparse (Option Txn)
  /-- Sealed transactions in sequencer order. -/
  sealed  : List Sealed
  /-- Seals made so far, and object identities given out. -/
  orders  : Nat
  oids    : Nat
  /-- Objects RETIRING until the end of scan-out of the subframe that begins at the applying cut (R108, R281): kind, key, object. -/
  retiring : List (ObjKind × Nat × Nat)
  deriving DecidableEq, Repr

/-! ## Command rings (chapter "Command rings, transactions and scheduling") -/

/-- How far a fetched descriptor has come. -/
inductive DescState where
  /-- Fetched, not processed. -/
  | fetched
  /-- Processed; completes later. -/
  | accepted
  /-- Completed with this status, INFO and, for an applied commit, TIME; its completion is not written yet (R257, R270). -/
  | done (status info : Nat) (time : Option Nat)
  deriving DecidableEq, Repr

/-- A descriptor in flight: number n, id in fetch order over all rings, bytes, freshness-tick count of its doorbell stamp (R227), context for R257. -/
structure Desc where
  n     : Nat
  id    : Nat
  bytes : List Byte
  stamp : Nat
  st    : DescState
  ctx   : Option Nat
  /-- Its completion has been dropped by DISCARD (R270). -/
  drop  : Bool
  /-- Admitted under R119 and waiting for FREE_ZERO granules (R279). -/
  admitted : Bool
  deriving DecidableEq, Repr

/-- A ring's state beyond its registers: descriptors in flight in ring order, doorbell stamps (published count, tick count), fetches issued, completions held (R270). -/
structure Ring where
  flight  : List Desc
  stamps  : List (Nat × Nat)
  held    : Bool
  deriving DecidableEq, Repr

/-- The rings of all hosts (16h + r), credits (R266), the backlog sampled at the last window and the windows of growth (R268). -/
structure Rings where
  rings  : Sparse Ring
  nextId : Nat
  credit : Sparse Int
  rr     : Sparse Nat
  prev   : Sparse Nat
  grow   : Sparse Nat
  quiet  : Sparse Bool
  /-- Freshness ticks since the last overload window. -/
  window : Nat
  deriving DecidableEq, Repr

/-! ## Scene memory (chapter "Scene memory and the Dome") -/

/-- The states of the granule table (R277). -/
inductive GState where
  | freeZero | freeDirty | held | retiring
  deriving DecidableEq, Repr

/-- Where a held granule's bytes are (R277, R288). -/
inductive Residency where
  | resident
  | spilled (crc : Nat)
  | lost
  deriving DecidableEq, Repr

/-- A granule table entry (R277): state, owning host, object kind (0 colour plane, 1 ZT16 plane, 2 upload), handle, index in the object's list, residency, and the last use for R284. A granule of the pool lies under its number g; a spilled granule holds no DRAM and lies under 2²¹ × (1 + host of the spill area) + slot. -/
structure Granule where
  st    : GState
  host  : Nat
  kind  : Nat
  hand  : Nat
  index : Nat
  res   : Residency
  used  : Nat
  deriving DecidableEq, Repr

/-- An unlisted granule: FREE_ZERO. -/
def Granule.free0 : Granule := ⟨.freeZero, 0, 0, 0, 0, .resident, 0⟩

/-- An upload (R251): the transaction that created it, its size and granules, and whether a failed read left it undefined. -/
structure Upload where
  txn   : Nat
  size  : Nat
  grans : List Nat
  deriving DecidableEq, Repr

/-- A retirement in progress (R293, R294): failing frame, its logical page, cause (0 corrected errors, 1 uncorrectable), whether the copy is complete. -/
structure Retirement where
  frame  : Nat
  page   : Nat
  cause  : Nat
  /-- The spare logical page whose frame is lent; none: R294. -/
  spare  : Option Nat
  /-- 16-byte words (address / 16) found uncorrectable. -/
  ue     : List Nat
  copied : Bool
  /-- R294: granules moved, old and new. -/
  moves  : List (Nat × Nat)
  deriving DecidableEq, Repr

/-- The Dome: memory contents by logical byte address of the granule pool, poisoned 16-byte words, the granule table, uploads, the page map, lent and withdrawn pages, spill slots in use, and the scrub and retirement state. -/
structure Dome where
  mem       : Sparse Byte
  poison    : List Nat
  grans     : Sparse Granule
  uploads   : Sparse (Option Upload)
  map       : Sparse Nat
  lent      : List Nat
  withdrawn : List Nat
  retired   : List Nat
  /-- Retirements that wait for their copy, and switches that wait for the next subframe start. -/
  retire    : List Retirement
  /-- The next frame of the patrol scrub, and the device tick of the last burst (R292). -/
  scrubAt   : Nat
  scrubTick : Nat
  /-- Spilled granules that a BAR2 access missed (R300). -/
  want      : List Nat
  /-- Spilling has begun and not stopped (R284). -/
  spilling  : Bool
  downStack : List Nat
  /-- The model's use counter for "least recently used" (R284). -/
  clock     : Nat
  /-- The largest corner magnitude in each spilled granule of a ZT16 plane, by its number (R74; DESIGN CHOICE, log 50: the spec names no such entry of the granule table). -/
  peaks     : Sparse Nat
  /-- Bytes read in the current subframe: by stack, and by Spire gathers at 8 + stack (R304). -/
  reads     : Sparse Nat
  deriving DecidableEq, Repr

/-! ## The codec (chapter "The Osesh Layer Codec") -/

/-- A DECODE accepted and not completed (R124, R149). -/
structure Decode where
  id      : Nat
  host    : Nat
  ring    : Nat
  txn     : Nat
  layer   : Nat
  plane   : Nat
  keep    : Bool
  upload  : Nat
  off     : Nat
  len     : Nat
  tx0     : Nat
  ty0     : Nat
  tcols   : Nat
  trows   : Nat
  started : Bool
  /-- The stream's own error code once its header has been checked (R142); 0 = intact. -/
  bad     : Option Nat
  damaged : Nat
  memErr  : Bool
  logged  : Nat
  deriving DecidableEq, Repr

/-- A job: up to 32 consecutive tiles of one tile row of a DECODE (R149). -/
structure Job where
  dec : Nat
  ty  : Nat
  tx  : Nat
  n   : Nat
  deriving DecidableEq, Repr

/-- An engine: its job, whether it waits for leave, and since when it is idle with its grant held (R153). -/
structure Engine where
  job  : Option Job
  idle : Option Nat
  deriving DecidableEq, Repr

/-- The codec group. -/
structure Codec where
  decodes : List Decode
  waiting : List Job
  engines : Sparse Engine
  credit  : Sparse Int
  /-- Uploads released while a DECODE of another transaction reads them, by the DECODE's id (R147, R252). -/
  kept    : Sparse (Option Upload)
  /-- Jobs taken back from an engine, which restart on another (R155). -/
  shun    : List (Job × Nat)
  /-- Clocks of each engine that ENG_BUSY has not counted yet (R157). -/
  clocks  : Sparse Nat
  deriving DecidableEq, Repr

/-! ## The 2D engines -/

/-- A captured operation (R308): the parameter registers at GO, the source version fixed at GO (R306). -/
structure TwdOp where
  op     : Nat
  txn    : Nat
  bgKeep : Bool
  tag    : Nat
  w      : Nat
  h      : Nat
  value  : Nat
  fg     : Nat
  bg     : Nat
  dKind  : Nat
  dFmt   : Nat
  dHand  : Nat
  dx     : Nat
  dy     : Nat
  dOff   : Nat
  dPitch : Nat
  sKind  : Nat
  sFmt   : Nat
  sHost  : Nat
  sHand  : Nat
  sx     : Nat
  sy     : Nat
  sOff   : Nat
  sPitch : Nat
  /-- The source's granule list and width in tiles, when it is a plane. -/
  sGrans : List Nat
  sTw    : Nat
  /-- Ids of the commands accepted before GO that it waits for (R319). -/
  after  : List Nat
  /-- The host's DECODEs accepted before GO: none of them waits for the operation (R319). -/
  prior  : List Nat
  /-- The destination granules have been taken (R311), some original copied for it was uncorrectable (R323), and writing has begun. -/
  staged : Bool
  origBad : Bool
  writing : Bool
  deriving DecidableEq, Repr

/-! ## The admission unit -/

/-- A request for leave: requester id of Table 18.4, a tag telling requests of one id apart, units, and the tick of its arrival. -/
structure Leave where
  rid   : Nat
  tag   : Nat
  units : Nat
  at_   : Nat
  deriving DecidableEq, Repr

/-- The admission unit: waiting requests in order of arrival, grants held (R496, R497). -/
structure Adm where
  queue  : List Leave
  grants : List Leave
  deriving DecidableEq, Repr

/-! ## The freshness guard -/

/-- A context as the guard has it in force (R222, R233): object identity, veil mode, bound, AGE, stale in the current subframe, entry bad in both copies (R238). -/
structure GCtx where
  oid   : Nat
  veil  : Nat
  bound : Nat
  age   : Nat
  stale : Bool
  bad   : Bool
  deriving DecidableEq, Repr

/-- A watch region as the guard has it in force: its context's key, CRITICAL, the veiled rectangle of R116 (columns x0 to x1 − 1, rows y0 to y1 − 1), stale in the current subframe. -/
structure GReg where
  ctx      : Nat
  critical : Bool
  x0       : Nat
  x1       : Nat
  y0       : Nat
  y1       : Nat
  stale    : Bool
  deriving DecidableEq, Repr

/-- What a cut hands to the guard for the next slot 0 (R229, R233): contexts, regions with their rectangles, ages in the order they apply, the keys of contexts and regions that the cut's commits touched. -/
structure GuardNext where
  ctxs    : Sparse (Option Ctx)
  regs    : Sparse (Option GReg)
  ages    : List StagedAge
  tctx    : List Nat
  treg    : List Nat
  deriving DecidableEq, Repr

/-- A veil as it is drawn in one subframe (R234): the stale regions (with the veil mode of their contexts), whole-panel hatch, blink phase, border colour. -/
structure Veil where
  regions : List (GReg × Nat)
  global  : Bool
  blink   : Bool
  crit    : Nat
  deriving DecidableEq, Repr

/-- The freshness guard: tables in force, the hand-over of the last cut, region entries bad in both copies, ticks (elapsed-time accumulator in 2⁻³² ns since the last tick, FRS_MS, always-on ticks since the last tick, local ticking, good Sextant ticks in a row), the veil of this and the previous subframe, veil-check failures in this frame, and the unit reset in progress with its test result. -/
structure Guard where
  ctxs    : Sparse (Option GCtx)
  regs    : Sparse (Option GReg)
  next    : Option GuardNext
  badRegs : List Nat
  /-- Region entries that a unit reset discarded and no REGION_SET has written since (R240). -/
  gone    : List Nat
  accum   : Nat
  lastAt  : Nat
  goodRun : Nat
  /-- Device ticks at which the last Sextant tick was due, while it ticks locally. -/
  sxtAt   : Nat
  veil    : Veil
  prev    : Veil
  checks  : Nat
  reset   : Option Bool
  checked : Bool
  /-- DMAX and KMAX of the last cut at which the Compass was not FAULT: a Compass fault leaves the widening of rectangles as it was (R241). -/
  dmax    : Nat
  kmax    : Nat
  deriving DecidableEq, Repr

/-! ## The Compass -/

/-- Live geometry words found bad (word offset in the page; bit 0 first copy, bit 1 second copy), those bad in both copies already logged, whether the frame's check has been made, and a unit reset in progress. -/
structure Compass where
  bad     : Sparse Nat
  logged  : List Nat
  checked : Bool
  reset   : Bool
  deriving DecidableEq, Repr

/-! ## The Spire -/

/-- A span handed to a cluster: line, span index, tick at which it was handed out, the cluster it was last taken from (R174, R177). -/
structure Span where
  y  : Nat
  i  : Nat
  at_ : Nat
  from_ : Option Nat
  deriving DecidableEq, Repr

/-- The Spire: geometry and flat mode as fixed at the cut (R158), the subframe being rendered, progress of each quadrant, spans in flight and collected, the scan-out store, demand, faults of this frame, and the waits of R178 to R185. The layers of the frame are those of the committed scene, which changes only at cuts. -/
structure Spire where
  geom     : Sparse (BitVec 32)
  flat     : Bool
  rendering : Bool
  complete : Bool
  /-- The subframe rendered (32 bits). -/
  k        : Nat
  /-- Next span of each quadrant (line × 256 + index), abandoned spans to hand out again, the span each cluster works on. -/
  nextSpan : Sparse Nat
  again    : List Span
  work     : Sparse (Option Span)
  /-- Spans collected and not written (line × 256 + index), lines written by each quadrant, lines counted as delayed (R196). -/
  got      : Sparse (List (BitVec 32))
  wrote    : Sparse Nat
  delayed  : List Nat
  /-- The scan-out store: words (buffer × 132,710,400 + y × WIDTH + x), and the CRCs stored beside them (buffer × 16,384 + y). -/
  words    : Sparse (BitVec 32)
  crcs     : Sparse Nat
  demand   : Nat
  demandHigh : Bool
  /-- Samples of cells not yet making a unit of 2²⁰ (SPE_SAMPLES). -/
  samples  : Sparse Nat
  /-- 128-byte lines that read as uncorrectable in this subframe (R168). -/
  ueLines  : List Nat
  /-- Faults of each cluster in this frame (R177). -/
  faults   : Sparse Nat
  /-- Clusters out of dispatch (ENABLE 0, TEST, unit reset), clusters in unit reset, and pages whose unit reset waits for the next cut (R184, R185). -/
  off      : List Nat
  resets   : List Nat
  waitCut  : List Nat
  /-- AUTOCAP ends at the next cut; the sweep of R180 (0 none, 1 running, 2 done without a failure, 3 done with a failure, 4 abandoned by a warm reset until the Watch is released); the array has been FAULT for the present run of aborts. -/
  autoEnd  : Bool
  sweep    : Nat
  runFull  : Bool
  /-- Demand of the last aborted subframe (R180). -/
  lost     : Nat
  deriving DecidableEq, Repr

/-! ## Subframes and scan-out -/

/-- How the subframes follow each other: on the wall timeline, on a re-anchored timeline at a reduced rate (R200), or in the dark gap before the return to the wall timeline. -/
inductive LineMode where
  | wall | reduced | gap
  deriving DecidableEq, Repr

/-- The signatures of one subframe (R209, R210). -/
structure Sigs where
  j    : Nat
  rsig : Nat
  tsig : Nat
  deriving DecidableEq, Repr

/-- The scan-out engine. -/
structure Sco where
  /-- Subframes are placed (step 3 of the cold release has passed), and the first one has started. -/
  armed   : Bool
  running : Bool
  /-- The timeline in force: E of its origin, number of the current subframe on it, rate code of F in force, mode. -/
  origin  : Int
  idx     : Int
  rate    : Nat
  mode    : LineMode
  /-- E at which the current subframe started (a load of E comes before its subframe). -/
  startAt : Int
  /-- CMP_SIZE as it governs scan-out (R198). -/
  size    : BitVec 32
  /-- DARK CAUSE of the current subframe; none when it is lit. -/
  dark    : Option Nat
  /-- The current subframe counts as dark for the Beacon (R219). -/
  beaconDark : Bool
  /-- The current subframe is sent as the standby of a pair (R464). -/
  standby : Bool
  /-- No cut has come since the timeline began; the frame is aborted; some subframe of the frame lay in a gap. -/
  fresh   : Bool
  aborted : Bool
  gapped  : Bool
  /-- The next line to send, the running CRC of TSIG, whether the subframe's TIMING row has been sent. -/
  line    : Nat
  tsig    : Nat
  timing  : Bool
  /-- The overdrive reference of the subframe is 0 (R211). -/
  refZero : Bool
  /-- The commit cut of the slot-7 subframe is due. -/
  cutDue  : Bool
  /-- What the last cut decided for the next slot 0: a re-anchored timeline with this rate, or the gap. -/
  decided : Option (Nat × LineMode)
  /-- A return to the wall timeline begins at the next subframe start (R416). -/
  leave   : Bool
  /-- A unit reset sends dark subframes up to the next slot 0 (R220); the first lit subframe after it has reference 0. -/
  reset   : Bool
  refCut  : Bool
  /-- Overdrive nodes, by ((bank × 8 + band) × 3 + channel) × 1,089 + 33 × pi + ti. -/
  odt     : Sparse Nat
  /-- Failed lines whose fault has been logged in this subframe (R208). -/
  logged  : Nat
  /-- Signatures of the last four lit subframes, newest first. -/
  sigs    : List Sigs
  /-- Words of the current subframe written STALE so far. -/
  stale   : Nat
  deriving DecidableEq, Repr

/-- Values of a port that take effect together at a subframe start (R339, R354): active physical lanes in logical order, parity spare, back-channel lane. -/
structure PortSet where
  map : List Nat
  par : Option Nat
  bc  : Nat
  deriving DecidableEq, Repr

/-- The life of a panel port (R347). -/
inductive PortPhase where
  /-- In electrical idle. -/
  | idle
  /-- Awaits leave. -/
  | asks
  /-- Sends dark subframes until its lanes are locked. -/
  | training
  | service
  /-- Ends at the next subframe start. -/
  | ending
  deriving DecidableEq, Repr

/-- A panel port: phase, consecutive STATUS messages showing every lane LOCKED, values in force, values for the next subframe start and for the one after, the map that waits for a lower rate (R355), lanes reported LOCKED since they entered service (R353), LOCK of the last STATUS, last temperature report and its tick, ticks of the TSIG faults of the last second, BC_GARBAGE set in this light-field frame, a unit reset to be followed by bring-up, the tick of the last back-channel selection that a lane's lock made (R350). -/
structure Port where
  phase   : PortPhase
  good    : Nat
  now     : PortSet
  next    : Option PortSet
  later   : Option PortSet
  fewer   : Option (List Nat)
  seen    : List Nat
  lock    : Nat
  temp    : Option (Int × Nat)
  faults  : List Nat
  garbage : Bool
  restart : Bool
  bcAt    : Option Nat
  deriving DecidableEq, Repr

/-- A port in electrical idle. -/
def Port.off : Port := ⟨.idle, 0, ⟨[], none, 0⟩, none, none, none, [], 0, none, [], false, false, none⟩

/-- A serial lane: retraining (none; some none: awaits leave; some t: until tick t), consecutive locked reports or subframe starts, consecutive UE and CE counts of R353, a unit reset in progress, a LOOP block to repeat (R364). -/
structure Lane where
  retrain : Option (Option Nat)
  run     : Nat
  ue      : Nat
  ce      : Nat
  reset   : Bool
  loop    : Option (Nat × Nat)
  /-- FAULT until a retraining returns it (R357), whatever its UNIT_STATE reads meanwhile. -/
  dead    : Bool
  /-- Tick at which LNK_RXEQ.FREEZE was last set (R360). -/
  froze   : Nat
  deriving DecidableEq, Repr

/-- A lane at rest. -/
def Lane.rest : Lane := ⟨none, 0, 0, 0, false, none, false, 0⟩

/-- The panel link: ports, lanes 0 to 43 (pages 0x050 to 0x07B), LINK_DARK being sent (its cause), waiting for the next slot 0 to end. -/
structure Panel where
  ports    : Sparse Port
  lanes    : Sparse Lane
  linkDark : Option Nat
  resume   : Bool
  /-- The tick of the cold release, until a first temperature report has come or has been missed for a second (R213). -/
  noTemp   : Option Nat
  deriving DecidableEq, Repr

/-! ## The Sextant and the time port -/

/-- An action timer that is armed: the instant (64-bit E) at which it fires, and its first target. -/
structure ActTimer where
  due   : Nat
  first : Nat
  deriving DecidableEq, Repr

/-- A pulse of a timer: the ball, the tick at which it ends, the level to which the ball returns. -/
structure ActPulse where
  gpio : Nat
  till : Nat
  back : Bool
  deriving DecidableEq, Repr

/-- The Sextant beyond its registers: live increment, slew still to apply in 2⁻³² ns, armed timers, pulses, levels that TIMER and ALIVE_OUT balls have been given since their function was chosen, tick of the last valid offset, and of the time port: link wanted or up, light-field frames since the last wall-status message, its SEQ, PTP_BAD set in this light-field frame. -/
structure Sextant where
  inc     : Nat
  slew    : Int
  timers  : Sparse (Option ActTimer)
  pulses  : Sparse (Option ActPulse)
  driven  : Sparse (Option Bool)
  validAt : Nat
  frames  : Nat
  seq     : Nat
  ptpBad  : Bool
  deriving DecidableEq, Repr


/-! ## The Beacon and the Belfry -/

/-- A Beacon string beyond its registers: frame of its own soft start (R377), accumulator in steps (R381), ITH_OC trips in this light-field frame (R379), the frame of its last diagnostic pulse, the lengths of the pulses it fires in this subframe, whether its pulse for a verdict has been used and whether it gave one (R378, R380), whether a VOV or an ITH_OC trip ended a pulse of this subframe, and a re-arm whose pin test is not complete (R384). -/
structure Str where
  ramp    : Option Nat
  acc     : Nat
  trips   : Nat
  diag    : Option Nat
  plan    : List Nat
  judged  : Bool
  verdict : Bool
  vov     : Bool
  oc      : Bool
  retest  : Bool
  deriving DecidableEq, Repr

/-- A string at rest. -/
def Str.rest : Str := ⟨none, 0, 0, none, [], false, false, false, false, false⟩

/-- The start-up of a zone (R376). -/
inductive ZonePhase where
  | off
  /-- Waits for its turn. -/
  | waits
  | pinTest
  | asks
  | ramp (f : Nat)
  | started
  deriving DecidableEq, Repr

/-- A zone: its phase, whether its window and its closed interval of this subframe have been used, a unit reset in progress. -/
structure Zone where
  phase  : ZonePhase
  opened : Bool
  closed : Bool
  reset  : Bool
  deriving DecidableEq, Repr

/-- A zone at rest. -/
def Zone.rest : Zone := ⟨.off, false, false, false⟩

/-- The Beacon: zones, strings (8z + s), ball pairs whose short test is due (balls as 4 × (8z + s) + role), the light-field frames counted since reset, the frame of the last zone grant, the pair the Watch wants tested. -/
structure Beacon where
  zones : Sparse Zone
  strs  : Sparse Str
  tests : List (Nat × Nat)
  frame : Nat
  grant : Option Nat
  watch : Option (Nat × Nat)
  deriving DecidableEq, Repr

/-- The phases of the Belfry (Table 14.2). -/
inductive BlfPhase where
  | off
  | ramp
  | run
  /-- The electrodes are joined. -/
  | joined
  deriving DecidableEq, Repr

/-- The Belfry beyond its registers: phase and the tick at which it began (for `run`: the tick at which the current cycle began), WAVE, SLOT and cells of the cycle, FRS_SUMMARY bits seen in this cycle, a CRC mismatch found in this cycle, a stop wanted at the cycle's end, a restart after the discharge, the tick of the last BLF_TEMP write, VLCD_LOW holds, the tick of its last fault, guard and firmware values of the cycle. -/
structure Belfry where
  phase   : BlfPhase
  at_     : Nat
  wave    : Bool
  slot    : Nat
  cells   : List Nat
  seen    : Nat
  bad     : Bool
  stop    : Bool
  restart : Bool
  tempAt  : Option Nat
  low     : Bool
  lowAt   : Option Nat
  deriving DecidableEq, Repr

/-! ## The pair link -/

/-- A message kept until it is acknowledged: SEQ, the block, times resent (R468). -/
structure PairMsg where
  seq   : Nat
  block : List Byte
  again : Nat
  deriving DecidableEq, Repr

/-- A role exchange in progress (R482, R483): the J at which roles apply, and whether both sides have agreed. -/
structure RoleSwap where
  j      : Nat
  agreed : Bool
  deriving DecidableEq, Repr

/-- The pair unit beyond its registers: whether the link is up (HELLO sent) and since when no lane works in some direction; SEQ of the next message to send and to receive; the replay buffer; own render signatures of the last four subframes and partner signatures not compared yet (J, RSIG, aborted); J, role and condition bits of the last heartbeat; consecutive subframes without one; whether this subframe's HB_WAIT has been judged; E of the last ALIVE_IN edge; SEQ and E of a HELLO not acknowledged yet; consecutive mismatches and matches; ticks of recent violations and DIVERGE faults; CFG_MISMATCH set in this frame; a role exchange; the partner's PREFER; whether the last comparison matched. -/
structure Pair where
  up      : Bool
  noLane  : Option Nat
  txSeq   : Nat
  rxSeq   : Nat
  replay  : List PairMsg
  own     : List (Nat × Nat × Bool)
  peer    : List (Nat × Nat × Bool)
  hbJ     : Option Nat
  peerRole : Nat
  peerOk  : Nat
  missing : Nat
  judged  : Bool
  aliveE  : Option Nat
  hello   : Option (Nat × Nat)
  bad     : Nat
  good    : Nat
  viols   : List Nat
  faults  : List Nat
  cfgSet  : Bool
  swap    : Option RoleSwap
  peerPrefer : Bool
  matched : Bool
  deriving DecidableEq, Repr

/-- The pair unit at rest. -/
def Pair.off : Pair := ⟨false, none, 0, 0, [], [], [], none, 0, 0, 0, false, none, none, 0, 0, [], [], false, none, false, false⟩

/-! ## Host mailboxes of the links -/

/-- A DOE mailbox (R458, R459): DOE Error is set. An object is taken and answered in one step. -/
structure Doe where
  error : Bool
  deriving DecidableEq, Repr

/-! ## Power, reset, clocks -/

/-- A dark sequence in progress: tick of its trigger, the code that RST_CAUSE.COLD takes (none: thermal shutdown), the zone of a thermal shutdown. -/
structure Dark where
  at_   : Nat
  cause : Option Nat
  zone  : Nat
  deriving DecidableEq, Repr

/-- Power, reset and clocks beyond their registers. VAON has not been removed since the last cold release (R512). Pins: POR_N, RESET_N, WARM_N, PWRFAIL_N, RESET_OUT_N. -/
structure Power where
  vaon    : Bool
  por     : Bool
  resetN  : Bool
  warmN   : Bool
  pwrfail : Bool
  resetOut : Bool
  /-- Rails at over-voltage (R491), and clock domains whose clock-good did not arrive by its timeout (R505). -/
  ovs     : List Nat
  noclk   : List Nat
  /-- Tick at which WARM_N last rose (R502). -/
  warmUp  : Nat
  /-- Tick since which every condition of R513 has held. -/
  goodAt  : Nat
  /-- Ticks at which rails entered warning; tick at which the hold-off of R27 ends; tick of the last over-voltage fault. -/
  warnAt  : Sparse Nat
  holdoff : Option Nat
  ovAt    : Option Nat
  dark    : Option Dark
  /-- Cold reset is held: no release has begun. -/
  held    : Bool
  /-- Tick at which the last release step released its units. -/
  stepAt  : Nat
  /-- Tick at which RESET_OUT_N goes high. -/
  outAt   : Option Nat
  /-- Tick at which a warm reset in progress began; ticks of warm resets in the last 10 s. -/
  warm    : Option Nat
  warms   : List Nat
  /-- Tick at which the watchdog was last restarted. -/
  wdogAt  : Nat
  /-- A frequency count in progress: tick of its start. -/
  meas    : Option Nat
  /-- Straps sampled at step 0: SB_ADDR. -/
  sbAddr  : Nat
  deriving DecidableEq, Repr

/-- The always-on island is unpowered: VAON has been removed, and no cold release has begun since (R512, log 54). -/
def Power.off (p : Power) : Bool := !p.vaon && !p.por

/-! ## Temperature and calibration -/

/-- The thermal monitor's counts of consecutive samples: entering and leaving a level (4 × zone + level), levels entered (bit k: level k), disagreement and shutdown by zone; tick of the last DISAGREE fault. -/
structure Thermal where
  rise  : Sparse Nat
  fall  : Sparse Nat
  lv    : Sparse Nat
  dis   : Sparse Nat
  shut  : Sparse Nat
  disAt : Option Nat
  deriving DecidableEq, Repr

/-- A calibration run: targets, DRY_RUN, the tick at which its leave was granted. -/
structure CalRun where
  targets : Nat
  dry     : Bool
  granted : Option Nat
  deriving DecidableEq, Repr

/-- The calibration unit: the run in progress, trims in force and of the last run (512 × target + index), the trims in force before the last application and its tick (R533). -/
structure Cal where
  run    : Option CalRun
  live   : Sparse Int
  shadow : Sparse Int
  before : Sparse Int
  since  : Nat
  deriving DecidableEq, Repr

/-! ## Helm, Keep, Watch -/

/-- What a firmware slot holds: VERSION, SVN, whether it passes checks 1 to 6 of R545, and the SHA3-512 digest of its bytes 0 to 2,719. -/
structure Image where
  version : Nat
  svn     : Nat
  valid   : Bool
  digest  : List Byte
  deriving DecidableEq, Repr

/-- Helm and the Keep beyond their registers: the images of slots 0 and 1, mailbox commands in progress (the OP), the slot an FW_STAGE writes, the provisioning record in force and a change that waits, tick at which firmware last wrote BLF_FW_VAL, whether the boot that is due follows a warm reset, whether a trial has failed since the last boot, tick of the last link reset of a host (R551). -/
structure Helm where
  images : Sparse (Option Image)
  busy   : Sparse Nat
  record : Option (List Byte)
  change : Option (Option (List Byte))
  fwAt   : Nat
  warm   : Bool
  fell   : Bool
  linkAt : Option Nat
  deriving DecidableEq, Repr

/-- A Watch test: class, target (page, pair or frame), tick of its start or of its request, whether it runs (its leave is granted), the subframe starts seen since (classes 0 and 1), and the verdict that the next subframe start applies (true: the unit returns). -/
structure WatchTest where
  cls    : Nat
  target : Nat
  at_    : Nat
  runs   : Bool
  subs   : Nat
  done   : Option Bool
  deriving DecidableEq, Repr

/-- The Watch: the test in progress, the tick of the last test of each class, spare frames withdrawn from the pool, tick of the last repair (R551), and the last unit in each rotation (R557: position in the quadrant by quadrant, position in the spare pool under 4). -/
structure Watch where
  test  : Option WatchTest
  last  : Sparse Nat
  gone  : List Nat
  repairAt : Option Nat
  rot   : Sparse Nat
  deriving DecidableEq, Repr

/-! ## The whole state -/

/-- The whole state of the device. -/
structure State where
  pending : List Instr
  base    : Base
  cfg     : Cfg
  scenes  : Scenes
  rings   : Rings
  dome    : Dome
  codec   : Codec
  twd     : Sparse (Option TwdOp)
  adm     : Adm
  guard   : Guard
  cmp     : Compass
  spr     : Spire
  sco     : Sco
  pnl     : Panel
  sxt     : Sextant
  bcn     : Beacon
  blf     : Belfry
  par     : Pair
  doe     : Sparse Doe
  pwr     : Power
  thm     : Thermal
  cal     : Cal
  /-- Queries of R46 that have been started and have no result yet: 4 × host + 0 probe, 1 FRS, 2 DOM map, 3 CAL. -/
  queries : List Nat
  hlm     : Helm
  wch     : Watch
  deriving DecidableEq, Repr

/-- A change of the common core. -/
def State.onBase (s : State) (f : Base → Base) : State := { s with base := f s.base }

/-- Reasons for a fault. -/
inductive Fault where
  /-- Raised by no meaning: the spec gives every command of the table an effect, and a device error (a memory word, a lane, a cluster) is part of that effect, not a stop. Safe. -/
  | machineCheck
  deriving DecidableEq, Repr

/-- Reasons for a refusal. -/
inductive Refusal where
  /-- Raised by an arm of exec whose command has no meaning yet, with the command's mnemonic. Safe. -/
  | notModelled (mnemonic : String)
  deriving DecidableEq, Repr

/-- What a step answers. -/
abbrev Out := Host.Outcome State Fault Refusal

/-! ## Reset -/

/-- The common core after power-up: every register at its cold value (domain 0 is on in PWR_DOM_ON, R494; HLM_SLOT[0] holds the factory image, R546) but RST_COUNT, which counts the power-up (R518); the units of the always-on island work (R505, R516), every other unit is OFF; one link, host 0 the owner (R441), until the release samples the straps. -/
def Base.reset : Base :=
  { regs := [(0x6048, 0x00010000)], ticks := 0, acc := 0, own := [(4, 2), (5, 2), (6, 2), (7, 2), (8, 2)],
    nhosts := 1, owner := 0, links := [], logs := [], out := [], fresh := 0, rootWaits := [], wire := ⟨none, [], [], 0, [], [], [], []⟩ }

/-- The device right after power-up, before the cold release: every register at its cold value, nothing in any queue. -/
def State.reset : State :=
  { pending := []
    base := Base.reset
    cfg := ⟨[], [], 0, false, none, false, false⟩
    scenes := ⟨⟨[], [], []⟩, [], [], 0, 0, []⟩
    rings := ⟨[], 0, [], [], [], [], [], 0⟩
    dome := ⟨[], [], [], [], [], [], [], [], [], 0, 0, [], false, [], 0, [], []⟩
    codec := ⟨[], [], [], [], [], [], []⟩
    twd := []
    adm := ⟨[], []⟩
    guard := {
      ctxs := [], regs := [], next := none, badRegs := [], gone := [], accum := 0, lastAt := 0, goodRun := 0, sxtAt := 0,
      veil := ⟨[], false, false, 0⟩, prev := ⟨[], false, false, 0⟩, checks := 0, reset := none, checked := false, dmax := 0, kmax := 0 }
    cmp := ⟨[], [], false, false⟩
    spr := {
      geom := [], flat := false, rendering := false, complete := false, k := 0, nextSpan := [], again := [], work := [], got := [],
      wrote := [], delayed := [], words := [], crcs := [], demand := 0, demandHigh := false, samples := [], ueLines := [], faults := [],
      off := [], resets := [], waitCut := [], autoEnd := false, sweep := 0, runFull := false, lost := 0 }
    sco := {
      armed := false, running := false, origin := 0, idx := 0, rate := 0, mode := .wall, startAt := 0, size := 0x21C03C00,
      dark := some 1, beaconDark := true, standby := false, fresh := true, aborted := false, gapped := false, line := 0, tsig := 0, timing := false,
      refZero := true, cutDue := false, decided := none, leave := false, reset := false, refCut := true, odt := [], logged := 0,
      sigs := [], stale := 0 }
    pnl := ⟨[], [], none, false, none⟩
    sxt := ⟨0x019999999A, 0, [], [], [], 0, 0, 0, false⟩
    bcn := ⟨[], [], [], 0, none, none⟩
    blf := ⟨.off, 0, false, 3052, [], 0, false, false, false, none, false, none⟩
    par := Pair.off
    doe := []
    pwr := {
      vaon := true, por := false, resetN := true, warmN := true, pwrfail := true, resetOut := false, ovs := [], noclk := [], warmUp := 0, goodAt := 0,
      warnAt := [], holdoff := none, ovAt := none, dark := none, held := true, stepAt := 0, outAt := none, warm := none, warms := [],
      wdogAt := 0, meas := none, sbAddr := 0 }
    thm := ⟨[], [], [], [], [], none⟩
    cal := ⟨none, [], [], [], 0⟩
    queries := []
    hlm := ⟨[(0, some ⟨0, 0, true, List.replicate 64 0⟩)], [], none, none, 0, false, false, none⟩
    wch := ⟨none, [], [], none, []⟩ }

end Sys2Proof.Machine
end

