-- ==== Sys2Proof/Machine/Ops.lean ====
section
/-! DEFINITION. The named operations over the common core of State: registers and their fields, Sextant time, messages out, host links and log queues. -/

namespace Sys2Proof.Machine

/-! ## Registers -/

/-- Bits `msb..lsb` of a register. -/
def getBits (w : BitVec 32) (msb lsb : Nat) : Nat := bits w.toNat msb lsb

/-- A register with bits `msb..lsb` replaced. -/
def setBits (w : BitVec 32) (msb lsb v : Nat) : BitVec 32 :=
  BitVec.ofNat 32 (w.toNat - bits w.toNat msb lsb * 2 ^ lsb + v % 2 ^ (msb + 1 - lsb) * 2 ^ lsb)

/-- The value of the register at a key: its entry, or its cold value. -/
def Base.word (b : Base) (key : Nat) : BitVec 32 := sget coldWord b.regs key

/-- Writes the register at a key. -/
def Base.setWord (b : Base) (key : Nat) (v : BitVec 32) : Base := { b with regs := sput coldWord b.regs key v }

/-- The value of a field. -/
def Base.get (b : Base) (f : FieldRef) : Nat := getBits (b.word f.key) f.msb f.lsb

/-- Writes a field and keeps the register's other bits. -/
def Base.put (b : Base) (f : FieldRef) (v : Nat) : Base := b.setWord f.key (setBits (b.word f.key) f.msb f.lsb v)

/-- A one-bit field as a Bool. -/
def Base.flag (b : Base) (f : FieldRef) : Bool := b.get f == 1

/-- Writes a one-bit field. -/
def Base.putFlag (b : Base) (f : FieldRef) (v : Bool) : Base := b.put f (if v then 1 else 0)

/-- Adds to a counter field, saturating at its greatest value. -/
def Base.count (b : Base) (f : FieldRef) (n : Nat) : Base := b.put f (min (2 ^ (f.msb + 1 - f.lsb) - 1) (b.get f + n))

/-- The key of the header register at an offset of a page (Table 2.2). -/
def hdr (p off : Nat) : Nat := p * 4096 + off

/-- UNIT_CTRL.ENABLE of a page. -/
def Base.enabled (b : Base) (p : Nat) : Bool := b.flag ⟨hdr p 0x20, 0, 0⟩

/-- The key of host h's copy of a register of R46. -/
def hostCopy (h key : Nat) : Nat := key + (h + 1) * 2 ^ 22

/-! ## Time -/

/-- The 64-bit Sextant nanosecond count E: wraps and nanoseconds (R408). -/
def Base.E (b : Base) : Nat := b.acc / 2 ^ 32

/-- SXT_NOW: the low 32 bits of E. -/
def Base.now (b : Base) : Nat := b.E % 2 ^ 32

/-- `a` lies before `c` in 32-bit Sextant time, less than 2³¹ ns behind it (R51, R203). -/
def before32 (a c : Nat) : Bool := decide (0 < (c % 2 ^ 32 + 2 ^ 32 - a % 2 ^ 32) % 2 ^ 32 ∧ (c % 2 ^ 32 + 2 ^ 32 - a % 2 ^ 32) % 2 ^ 32 < 2 ^ 31)

/-- A 32-bit target is future at `now`: (target − now) mod 2³² < 2³¹ (R51, R205). -/
def future32 (target now : Nat) : Bool := decide ((target % 2 ^ 32 + 2 ^ 32 - now % 2 ^ 32) % 2 ^ 32 < 2 ^ 31)

/-- The 64-bit instant of a future 32-bit target. -/
def extend32 (target E : Nat) : Nat := E + (target % 2 ^ 32 + 2 ^ 32 - E % 2 ^ 32) % 2 ^ 32

/-- 32-bit difference. -/
def sub32 (a c : Nat) : Nat := (a % 2 ^ 32 + 2 ^ 32 - c % 2 ^ 32) % 2 ^ 32

/-- Whole microseconds between two device-tick counts of 1.6 ns. -/
def ticksToUs (t : Nat) : Nat := t * 16 / 10000

/-! ## Messages, links and logs -/

/-- Sends a message. -/
def Base.emit (b : Base) (o : Output) : Base := { b with out := o :: b.out }

/-- The link of a host. -/
def Base.link (b : Base) (h : Nat) : Link := sget (fun _ => Link.cold) b.links h

/-- Changes the link of a host. -/
def Base.setLink (b : Base) (h : Nat) (l : Link) : Base := { b with links := sput (fun _ => Link.cold) b.links h l }

/-- Requests may be sent on link h: link up, Bus Master Enable, D0 (R451). -/
def Base.canSend (b : Base) (h : Nat) : Bool := (b.link h).up && (b.link h).bme && !(b.link h).d3hot

/-- The device sends an MSI-X message, or sets the vector's pending bit while it cannot (R445, R451). -/
def Base.msix (b : Base) (h vec : Nat) : Base :=
  if b.canSend h && (b.link h).unmasked.contains vec then b.emit (.msix h vec)
  else b.setLink h { b.link h with pba := setInsert (b.link h).pba vec }

/-- Sends several messages. -/
def Base.msixAll (b : Base) : List (Nat × Nat) → Base
  | [] => b
  | (h, v) :: r => (b.msix h v).msixAll r

/-- A page is present (R33, R42). -/
def Base.present (b : Base) (p : Nat) : Bool :=
  (pageInfo p).isSome && (match pageHost p with | some h => decide (h < b.nhosts) | none => true)

/-- A page is visible to a host (R43). -/
def Base.visible (b : Base) (h p : Nat) : Bool :=
  b.present p && decide (h < b.nhosts) &&
    (h == b.owner || ((p != 2) && (match pageHost p with | some k => k == h | none => true)))

/-- Hosts that receive a page's events and fault-log entries: its UNIT_OWNER.HOSTS and the owner host (R55). -/
def Base.dests (b : Base) (p : Nat) : List Nat :=
  (List.range b.nhosts).filter (fun h => h == b.owner || (b.word (hdr p 0x2C)).toNat.testBit h)

/-- The queue of one log (2h: fault log, 2h + 1: violation log). -/
def Base.logq (b : Base) (i : Nat) : LogQ := sget (fun _ => ⟨[], 0⟩) b.logs i

/-- Sets the queue of one log. -/
def Base.setLogq (b : Base) (i : Nat) (q : LogQ) : Base := { b with logs := sput (fun _ => ⟨[], 0⟩) b.logs i q }

/-- EN of a log. -/
def Base.logEn (b : Base) (i : Nat) : Bool :=
  b.flag (if i % 2 = 0 then Reg.hstFlogCtrl_EN (i / 2) else Reg.hstVlogCtrl_EN (i / 2))

/-- The LOST counter of a log. -/
def logLost (i : Nat) : FieldRef := if i % 2 = 0 then Reg.hstFlogLost_COUNT (i / 2) else Reg.hstVlogLost_COUNT (i / 2)

/-- Draws a fresh free-value number (the model's own counter). -/
def Base.draw (b : Base) : Base := { b with fresh := b.fresh + 1 }

end Sys2Proof.Machine
end

