-- ==== Sys2Proof/Machine/Flags.lean ====
section
/-! DEFINITION. The status flags of every page: unit states and their aggregation (R37 to R41), pending events and their messages (R54 to R56), faults (R57), fault and violation log entries (R57, R271, R449). -/

namespace Sys2Proof.Machine

/-- Unit state codes of Table 2.4. -/
abbrev uOFF : Nat := 0
abbrev uREADY : Nat := 1
abbrev uBUSY : Nat := 2
abbrev uTEST : Nat := 3
abbrev uRETIRED : Nat := 4
abbrev uDEGRADED : Nat := 5
abbrev uFAULT : Nat := 6
abbrev uNOCLOCK : Nat := 7

/-! ## Unit states -/

/-- The own state of a page. -/
def Base.ownState (b : Base) (p : Nat) : Nat := sget (fun _ => 0) b.own p

/-- The parent chain of a page, nearest first, up to `n` steps. -/
def ancestors : Nat → Nat → List Nat
  | 0, _ => []
  | n + 1, p => match (pageInfo p).bind (·.parent) with
    | none => []
    | some q => q :: ancestors n q

/-- The page and its ancestors are all enabled (R39: a child is disabled through its own ENABLE or an ancestor's). -/
def Base.enabledChain (b : Base) (p : Nat) : Bool := b.enabled p && (ancestors 5 p).all b.enabled

/-- A group's parts for R39: which children by instance number, the full complement and the minimum of Table 2.5 (panel port: 12 TX and 2 back-channel lanes, the minima of R356 and R350; pair link: 4 of each kind with one of each needed). -/
def groupParts (cls : Nat) : List ((Nat → Bool) × Nat × Nat) :=
  match cls with
  | 0x0019 => [(fun _ => true, 1, 0)]
  | 0x001B => [(fun i => decide (i < 0x38), 4, 1), (fun i => decide (0x38 ≤ i), 4, 1)]
  | 0x001C => [(fun _ => true, 3, 3)]
  | 0x0020 => [(fun _ => true, 8, 8)]
  | 0x0030 => [(fun _ => true, 16, 1)]
  | 0x0043 => [(fun _ => true, 2, 1)]
  | 0x0044 => [(fun i => decide (i < 0x20), 12, 8), (fun i => decide (0x20 ≤ i), 2, 0)]
  | 0x0050 => [(fun _ => true, 12, 1)]
  | 0x0060 => [(fun _ => true, 4, 4)]
  | 0x0061 => [(fun _ => true, 16, 1)]
  | 0x0062 => [(fun _ => true, 4, 4)]
  | _ => []

/-- READY, BUSY, TEST and DEGRADED count as working (R39). -/
def working (s : Nat) : Bool := s == uREADY || s == uBUSY || s == uTEST || s == uDEGRADED

/-- The derivation of R39 from the children's states: instance, state, disabled. -/
def deriveState (own : Nat) (parts : List ((Nat → Bool) × Nat × Nat)) (kids : List (Nat × Nat × Bool)) : Nat :=
  let base := if own = uBUSY then uBUSY else uREADY
  if kids.all (fun k => k.2.2) then base
  else
    let judged := parts.map (fun q =>
      let mine := kids.filter (fun k => q.1 k.1)
      let dis := (mine.filter (fun k => k.2.2)).length
      let wk := (mine.filter (fun k => working k.2.1)).length
      (decide (wk < min q.2.2 (mine.length - dis)), decide (wk < q.2.1 - dis)))
    if judged.any (·.1) then uFAULT
    else if own = uDEGRADED || judged.any (·.2) || kids.any (fun k => k.2.1 == uDEGRADED) then uDEGRADED
    else base

/-- UNIT_STATE.STATE of a page (R38 to R40); the codec group is working while an engine is BUSY (R156). The first argument bounds the depth of the tree. -/
def Base.stateOf : Nat → Base → Nat → Nat
  | 0, b, p => b.ownState p
  | n + 1, b, p =>
    if (ancestors 5 p).any (fun q => b.ownState q == uRETIRED) then uRETIRED
    else
      let kids := (kidsOf p).filter b.present
      if p = 0 then
        let es := kids.map (Base.stateOf n b)
        if es.any (fun e => e == uFAULT || e == uNOCLOCK) then uFAULT else if es.contains uDEGRADED then uDEGRADED else uREADY
      else
        let cls : Nat := ((pageInfo p).map (·.cls)).getD 0
        let ks := kids.map (fun c => (((pageInfo c).map (·.inst)).getD 0, Base.stateOf n b c, Base.stateOf n b c == uOFF && !b.enabledChain c))
        let own := if cls == 0x0030 && b.ownState p == uREADY && ks.any (fun k => k.2.1 == uBUSY) then uBUSY else b.ownState p
        if kids = [] || own == uOFF || own == uTEST || own == uRETIRED || own == uFAULT || own == uNOCLOCK then own
        else deriveState own (groupParts cls) ks

/-- UNIT_STATE.STATE (the tree is at most five pages deep). -/
def Base.unitState (b : Base) (p : Nat) : Nat := b.stateOf 6 p

/-- UNIT_STATE.WORST: the highest state code in the subtree below the page. -/
def Base.worst : Nat → Base → Nat → Nat
  | 0, _, _ => 0
  | n + 1, b, p => ((kidsOf p).filter b.present).foldl (fun a c => max a (max (b.unitState c) (Base.worst n b c))) 0

/-- The whole UNIT_STATE register (Table 2.3). -/
def Base.stateWord (b : Base) (p : Nat) : Nat :=
  let es := ((kidsOf p).filter b.present).map b.unitState
  min 255 (es.filter (fun e => e == uFAULT || e == uNOCLOCK)).length * 2 ^ 24
    + (es.filter (· == uRETIRED)).length * 2 ^ 16 + (es.filter (· == uDEGRADED)).length * 2 ^ 8
    + b.worst 6 p * 16 + b.unitState p

/-! ## Events -/

/-- Enabled pending events of a page's own. -/
def Base.active (b : Base) (p : Nat) : Nat := (b.word (hdr p 0x18) &&& b.word (hdr p 0x1C)).toNat

/-- The log events of an HST page among its events (R444). -/
def logEvents (p act : Nat) : Nat := if 0x010 ≤ p ∧ p < 0x014 then act / 2 ^ 18 % 8 * 2 ^ 18 else 0

/-- The events of a page that reach host h on vector 0: FAULT, and on the host's own HST page the log events; and those on UNIT_CTRL.VECTOR: all others (R55, R444). -/
def onVector0 (p h act : Nat) : Bool := act.testBit 1 || (p % 4 == h && logEvents p act != 0)
def onVector (p act : Nat) : Bool := act / 2 ^ 16 * 2 ^ 16 != logEvents p act || act.testBit 0 || act.testBit 2

/-- The messages of R56, at most one per host and vector, for a page whose enabled events went from `old` to `new`; `again`: a write to UNIT_EVENT left some set. -/
def Base.eventMsgs (b : Base) (p old new : Nat) (again : Bool) : List (Nat × Nat) :=
  (b.dests p).flatMap (fun h =>
    (if onVector0 p h new && (again || !onVector0 p h old) then [(h, 0)] else [])
      ++ (if onVector p new && (again || !onVector p old) then [(h, b.get ⟨hdr p 0x20, 15, 8⟩)] else []))

/-- Writes UNIT_EVENT and sends the messages this causes. -/
def Base.setEvents (b : Base) (p : Nat) (w : BitVec 32) (again : Bool) : Base :=
  let b1 := b.setWord (hdr p 0x18) w
  b1.msixAll (b1.eventMsgs p (b.active p) (b1.active p) again)

/-- Sets event bits of a page (a mask), in one clock (R56). -/
def Base.raiseMask (b : Base) (p m : Nat) : Base := b.setEvents p (b.word (hdr p 0x18) ||| BitVec.ofNat 32 m) false

/-- Sets one event bit of a page. -/
def Base.raise (b : Base) (p bit : Nat) : Base := b.raiseMask p (2 ^ bit)

/-- A page signals a pending event (R54); the depth bound is that of the tree. -/
def Base.signals : Nat → Base → Nat → Bool
  | 0, b, p => b.active p != 0
  | n + 1, b, p => b.active p != 0 ||
      ((b.word (hdr p 0x1C)).toNat.testBit 7 && ((kidsOf p).filter b.present).any (Base.signals n b))

/-- UNIT_EVENT as read: the stored bits and CHILD (R54). -/
def Base.eventWord (b : Base) (p : Nat) : Nat :=
  (b.word (hdr p 0x18)).toNat + (if ((kidsOf p).filter b.present).any (b.signals 6) then 0x80 else 0)

/-! ## State changes -/

/-- Sets STATE events of the pages whose UNIT_STATE.STATE differs between `old` and the state. -/
def Base.stateEvents (old b : Base) : List Nat → Base
  | [] => b
  | p :: r => Base.stateEvents old (if old.unitState p = b.unitState p then b else b.raise p 0) r

/-- The pages below a page. -/
def below : Nat → Nat → List Nat
  | 0, _ => []
  | n + 1, p => (kidsOf p).flatMap (fun c => c :: below n c)

/-- Sets the own state of a page, which in NO_CLOCK stays so until a cold reset (R505); a change of UNIT_STATE.STATE there, in its ancestors and (for RETIRED) below it sets their STATE events. -/
def Base.setOwn (b : Base) (p st : Nat) : Base :=
  if b.ownState p = st || b.ownState p = uNOCLOCK then b
  else
    let b1 := { b with own := sput (fun _ => 0) b.own p st }
    Base.stateEvents b b1
      (p :: ancestors 5 p ++ (if st = uRETIRED || b.ownState p = uRETIRED then (below 4 p).filter b.present else []))

/-- The state in which a unit comes out of a cold reset: no STATE event, since its registers are at their cold values (log 22). -/
def Base.startOwn (b : Base) (p st : Nat) : Base :=
  if b.ownState p = uNOCLOCK then b else { b with own := sput (fun _ => 0) b.own p st }

/-- Changes UNIT_CTRL.ENABLE of a page (R39: the derived states of its ancestors follow). -/
def Base.setEnable (b : Base) (p : Nat) (v : Bool) : Base :=
  Base.stateEvents b (b.putFlag ⟨hdr p 0x20, 0, 0⟩ v) (ancestors 5 p)

/-! ## Log entries, faults, violations -/

/-- A log entry as it enters a queue; a full queue of 64 drops its oldest entry, counts it in LOST and sets LOG_LOST; a dropped entry takes a number only while EN is 1 (R448, R449). -/
def Base.logPush (b : Base) (i : Nat) (e : LogEntry) : Base :=
  let q := b.logq i
  if q.waiting.length < 64 then b.setLogq i { q with waiting := q.waiting ++ [e] }
  else
    (((b.setLogq i ⟨q.waiting.drop 1 ++ [e], if b.logEn i then (q.seq + 1) % 2 ^ 32 else q.seq⟩).count (logLost i) 1).raise (0x010 + i / 2) 20)

/-- Pushes one entry into the fault logs of several hosts. -/
def Base.logPushAll (b : Base) (e : LogEntry) : List Nat → Base
  | [] => b
  | h :: r => (b.logPush (2 * h) e).logPushAll e r

/-- A detail of 16 bytes, the missing ones 0. -/
def detail16 (d : List Byte) : List Byte := d.take 16 ++ List.replicate (16 - d.length) 0

/-- A fault in a unit (R57): FAULT event, UNIT_COUNT (with COUNT_SAT), the first-fault latch, and a fault-log entry to every host of R55. -/
def Base.fault (b : Base) (p code : Nat) (d : List Byte) : Base :=
  let cnt := b.get ⟨hdr p 0x28, 31, 0⟩
  let b1 := b.put ⟨hdr p 0x28, 31, 0⟩ (min (2 ^ 32 - 1) (cnt + 1))
  let b2 := if b1.get ⟨hdr p 0x24, 31, 31⟩ = 1 then b1 else b1.setWord (hdr p 0x24) (BitVec.ofNat 32 (2 ^ 31 + code % 2 ^ 16))
  let b3 := b2.raiseMask p (if cnt + 1 = 2 ^ 32 - 1 then 6 else 2)
  b3.logPushAll ⟨b.now, p, ((pageInfo p).map (·.cls)).getD 0, code, ((pageInfo p).map (·.inst)).getD 0, detail16 d⟩ (b3.dests p)

/-- Records an entry in the violation log of a host (R271); class and instance read 0 for a page absent or hidden from it. -/
def Base.violation (b : Base) (h p code : Nat) (d : List Byte) : Base :=
  if h < b.nhosts then
    let i := if b.visible h p then pageInfo p else none
    b.logPush (2 * h + 1) ⟨b.now, p, (i.map (·.cls)).getD 0, code, (i.map (·.inst)).getD 0, detail16 d⟩
  else b

/-- Violation codes of Table 9.9. -/
abbrev vRESERVED : Nat := 0x0101
abbrev vHIDDEN : Nat := 0x0102
abbrev vNOTPERM : Nat := 0x0103
abbrev vCFG : Nat := 0x0104
abbrev vDESC : Nat := 0x0110
abbrev vDOORBELL : Nat := 0x0111
abbrev vTILE : Nat := 0x0120
abbrev vLINK : Nat := 0x0130
abbrev vPOISON : Nat := 0x0140
abbrev vMAILBOX : Nat := 0x0150

/-- A refused register write (Table 9.9: bytes 0–1 offset, 4–7 value written). -/
def Base.refuse (b : Base) (h key code : Nat) (val : BitVec 32) : Base :=
  b.violation h (key / 4096 % 1024) code (leBytes 2 (key % 4096) ++ [0, 0] ++ leBytes 4 val.toNat)

/-- The entry's 32 bytes as written to a log ring (Table 2.8). -/
def LogEntry.bytes (e : LogEntry) (seq : Nat) : List Byte :=
  leBytes 4 e.time ++ leBytes 2 e.page ++ leBytes 2 e.cls ++ leBytes 2 e.code ++ leBytes 2 e.inst ++ leBytes 4 seq ++ e.detail

/-- Completion status codes of Table 9.14. -/
abbrev stOK : Nat := 0x00
abbrev stNOOP : Nat := 0x01
abbrev stLATE : Nat := 0x02
abbrev stQUOTA : Nat := 0x10
abbrev stFORMAT : Nat := 0x11
abbrev stRANGE : Nat := 0x12
abbrev stSTATE : Nat := 0x13
abbrev stTXN : Nat := 0x14
abbrev stOWNER : Nat := 0x15
abbrev stRESET : Nat := 0x20
abbrev stROLLBACK : Nat := 0x21
abbrev stSUPERSEDED : Nat := 0x22
abbrev stMEMORY : Nat := 0x30
abbrev stDECODE : Nat := 0x31
abbrev stDEVICE : Nat := 0x32

/-- The first status whose condition holds, in the order given (R92); none: the command is accepted. -/
def firstStatus : List (Bool × Nat) → Option Nat
  | [] => none
  | (c, st) :: r => if c then some st else firstStatus r

end Sys2Proof.Machine
end

