-- ==== Sys2Proof/Machine/Lane.lean ====
section
/-! DEFINITION. One serial lane below its rows: the codeword and its receiver (R329 to R331), the row schedule (R332, R333), the equalizer (R359), test patterns and their checker (R362). Lane codes of the panel link (chapter 12) and of the pair link (chapter 17). -/

namespace Sys2Proof.Machine

/-! ## Bits and symbols -/

/-- Bits of a number, most significant first. -/
def msbBits (w x : Nat) : List Nat := (List.range w).reverse.map (fun i => if x.testBit i then 1 else 0)

/-- The number that bits spell, most significant first. -/
def ofMsb (l : List Nat) : Nat := l.foldl (fun a b => 2 * a + b) 0

/-- The symbols of ten bits each. -/
def symbols10 : Nat → List Nat → List Nat
  | 0, _ => []
  | n + 1, l => ofMsb (l.take 10) :: symbols10 n (l.drop 10)

/-- The payload bits of a block (R330). -/
def payloadBits (bytes : List Byte) : List Nat := bytes.flatMap (fun b => msbBits 8 b.toNat)

/-- The bytes of 256 payload bits. -/
def payloadBytes (l : List Nat) : List Byte := (List.range 32).map (fun i => BitVec.ofNat 8 (ofMsb ((l.drop (8 * i)).take 8)))

/-! ## GF(2¹⁰) (R331) -/

/-- Product in GF(2¹⁰) with x¹⁰ + x³ + 1. -/
def gfMul (a b : Nat) : Nat :=
  (List.range 10).reverse.foldl (fun acc i =>
    let d := acc * 2
    let r := if d.testBit 10 then d ^^^ 0x409 else d
    if b.testBit i then r ^^^ a else r) 0

/-- αⁱ. -/
def gfPow : Nat → Nat
  | 0 => 1
  | n + 1 => gfMul (gfPow n) 2

/-- The inverse of a nonzero element: its power 1,022. -/
def gfInv (a : Nat) : Nat := (List.range 8).foldl (fun r _ => gfMul (gfMul r r) (gfMul a a)) (gfMul a a)

/-- A polynomial, lowest coefficient first, at a point. -/
def gfEval (p : List Nat) (x : Nat) : Nat := p.foldr (fun c acc => c ^^^ gfMul acc x) 0

/-- The coefficients g[0] … g[20] of (x + α⁰) … (x + α¹⁹). -/
def rsGen : List Nat :=
  (List.range 20).foldl (fun g i => (List.range (g.length + 1)).map (fun j =>
    (if j = 0 then 0 else g.getD (j - 1) 0) ^^^ gfMul (gfPow i) (g.getD j 0))) [1]

/-- The 20 parity symbols, p[0] (the coefficient of x¹⁹) first. -/
def rsParity (msg : List Nat) : List Nat :=
  let g := (rsGen.take 20).reverse
  msg.foldl (fun p m =>
    let fb := m ^^^ p.headD 0
    ((p.tail ++ [0]).zip g).map (fun (e : Nat × Nat) => e.1 ^^^ gfMul fb e.2)) (List.replicate 20 0)

/-! ## The transmitter (R331, R359) -/

/-- One payload bit through the scrambler x⁵⁸ + x³⁹ + 1. -/
def scramble (sc b : Nat) : Nat × Nat :=
  let o := (b + (if sc.testBit 38 then 1 else 0) + (if sc.testBit 57 then 1 else 0)) % 2
  (o, (sc * 2 + o) % 2 ^ 64)

/-- Several payload bits. -/
def scrambleAll : Nat → List Nat → List Nat × Nat
  | sc, [] => ([], sc)
  | sc, b :: bs =>
    let r := scramble sc b
    let t := scrambleAll r.2 bs
    (r.1 :: t.1, t.2)

/-- Gray value of a pair of bits. -/
def grayOf (b0 b1 : Nat) : Nat := 2 * b0 + (b0 + b1) % 2

/-- PAM4 levels of bit pairs: Gray mapping and 1/(1 + D) mod 4 precoding. -/
def pam4 : Nat → List Nat → List Int × Nat
  | p, b0 :: b1 :: r =>
    let q := (grayOf b0 b1 + 4 - p % 4) % 4
    let t := pam4 q r
    ((2 * (q : Int) - 3) :: t.1, t.2)
  | p, _ => ([], p)

/-- One codeword: 15 blocks of a header (1 data, 2 control) and 256 payload bits, as PAM4 levels, with the scrambler and precoder after it. -/
def sendCodeword (sc pprev : Nat) (blocks : List (Nat × List Nat)) : List Int × Nat × Nat :=
  let body := blocks.foldl (fun (a : List Nat × Nat) b =>
    let r := scrambleAll a.2 b.2
    (a.1 ++ msbBits 2 b.1 ++ r.1, r.2)) ([], sc)
  let lv := pam4 pprev (body.1 ++ (rsParity (symbols10 387 body.1)).flatMap (msbBits 10))
  (lv.1, body.2, lv.2)

/-- The equalizer's output in mV / 192 for each level that has a successor: taps C_PRE, C_MAIN, C_POST and amplitude A = 400 + 100 × SWING mV (R359). -/
def equalize (a pre main post : Int) : List Int → List Int
  | x :: y :: z :: r => a * (main * y - pre * z - post * x) :: equalize a pre main post (y :: z :: r)
  | _ => []

/-- The levels of a symbol period leave a lane through its equalizer; the last waits for its successor. -/
def Base.driveLane (b : Base) (l : Nat) (c : TxCode) (levels : List Int) : Base :=
  let n (f : FieldRef) : Int := b.get f
  let out := equalize (400 + 100 * n (Reg.lnkTxeq_SWING l)) (n (Reg.lnkTxeq_C_PRE l)) (n (Reg.lnkTxeq_C_MAIN l)) (n (Reg.lnkTxeq_C_POST l)) (c.last :: c.held :: levels)
  let ends := c.last :: c.held :: levels
  let c1 := { c with last := ends.getD (ends.length - 2) 0, held := ends.getD (ends.length - 1) 0 }
  { b.emit (.drive l out) with wire := { b.wire with codes := sput (fun _ => TxCode.rest) b.wire.codes l c1 } }

/-- A lane's coder. -/
def Base.code (b : Base) (l : Nat) : TxCode := sget (fun _ => TxCode.rest) b.wire.codes l

/-- A codeword of 15 blocks (header, bytes) leaves a lane. -/
def Base.sendBlocks (b : Base) (l : Nat) (blocks : List (Nat × List Byte)) : Base :=
  let c := b.code l
  let r := sendCodeword c.sc c.pprev (blocks.map (fun e => (e.1, payloadBits e.2)))
  b.driveLane l { c with sc := r.2.1, pprev := r.2.2 } r.1

/-- A lane in electrical idle drives nothing; scrambler and precoder keep their state. -/
def Base.idleLane (b : Base) (l : Nat) : Base :=
  { b with wire := { b.wire with codes := sput (fun _ => TxCode.rest) b.wire.codes l { b.code l with last := 0, held := 0 } } }

/-! ## The receiver (R329, R331) -/

/-- Gray values of level codes, after the level code before them. -/
def grays : Nat → List (BitVec 2) → List Nat
  | _, [] => []
  | p, q :: r => (q.toNat + p) % 4 :: grays q.toNat r

/-- The bit pair of a Gray value. -/
def grayBits (g : Nat) : List Nat := [if 2 ≤ g then 1 else 0, if g = 1 ∨ g = 2 then 1 else 0]

/-- The step of Berlekamp and Massey at symbol n: locator, last locator before its length changed, its discrepancy, length, distance. -/
def bmStep (syn : List Nat) (a : List Nat × List Nat × Nat × Nat × Nat) (n : Nat) : List Nat × List Nat × Nat × Nat × Nat :=
  let (c, p, b, len, m) := a
  let d := (List.range (len + 1)).foldl (fun x i => x ^^^ gfMul (c.getD i 0) (syn.getD (n - i) 0)) 0
  if d = 0 then (c, p, b, len, m + 1)
  else
    let q := gfMul d (gfInv b)
    let shifted := List.replicate m 0 ++ p.map (gfMul q)
    let c1 := (List.range (max c.length shifted.length)).map (fun i => c.getD i 0 ^^^ shifted.getD i 0)
    if 2 * len ≤ n then (c1, c, d, n + 1 - len, 1) else (c1, p, b, len, m + 1)

/-- Decodes a codeword of 407 symbols: its symbols with up to 10 errors corrected and how many were; none: uncorrectable. -/
def rsDecode (word : List Nat) : Option (List Nat × Nat) :=
  let syn := (List.range 20).map (fun i => gfEval word.reverse (gfPow i))
  if syn.all (· == 0) then some (word, 0)
  else
    let r := (List.range 20).foldl (bmStep syn) ([1], [1], 1, 0, 1)
    let loc := r.1
    let len := r.2.2.2.1
    let omega := (List.range 20).map (fun i => (List.range (i + 1)).foldl (fun x k => x ^^^ gfMul (loc.getD k 0) (syn.getD (i - k) 0)) 0)
    let diff := (List.range (loc.length - 1)).map (fun i => if i % 2 = 0 then loc.getD (i + 1) 0 else 0)
    let at_ := (List.range 407).filter (fun j => gfEval loc (gfPow ((1023 - (406 - j)) % 1023)) == 0)
    if 10 < len ∨ at_.length ≠ len then none
    else
      let fixed := (List.range word.length).map (fun j =>
        if at_.contains j then
          let y := gfPow ((1023 - (406 - j)) % 1023)
          word.getD j 0 ^^^ gfMul (gfInv y) (gfMul (gfEval omega y) (gfInv (gfEval diff y)))
        else word.getD j 0)
      if (List.range 20).all (fun i => gfEval fixed.reverse (gfPow i) == 0) then some (fixed, len) else none

/-- The 3,870 message bits of a received codeword after error correction, with the symbols corrected; none: uncorrectable. -/
def recvCodeword (p : Nat) (levels : List (BitVec 2)) : Option (List Nat × Nat) :=
  (rsDecode (symbols10 407 ((grays p levels).flatMap grayBits))).map (fun r => ((r.1.take 387).flatMap (msbBits 10), r.2))

/-- The scrambled payload bits of a codeword's message bits. -/
def rawPayload (bits : List Nat) : List Nat := (List.range 15).flatMap (fun k => (bits.drop (258 * k + 2)).take 256)

/-- Block k of a received codeword after the one before it, with the symbols corrected: decoded and descrambled (in_k = r_k ^ r_(k−39) ^ r_(k−58)). -/
def recvBlock (before levels : List (BitVec 2)) (k : Nat) : BackBlock × Nat :=
  let old := match recvCodeword 0 before with
    | some r => r.1
    | none => (grays 0 before).flatMap grayBits
  match recvCodeword ((before.map BitVec.toNat).getLastD 0) levels with
  | none => (.uncorrectable, 0)
  | some (bits, n) =>
    let h := 2 * bits.getD (258 * k) 0 + bits.getD (258 * k + 1) 0
    let hist := rawPayload old
    let raw := (hist.drop (hist.length - 58)) ++ rawPayload bits
    let clear := (List.range 256).map (fun i => (raw.getD (256 * k + i + 58) 0 + raw.getD (256 * k + i + 19) 0 + raw.getD (256 * k + i) 0) % 2)
    (if h = 1 then .dataBlock (payloadBytes clear) else if h = 2 then .control (payloadBytes clear) else .badHeader, n)

/-- A block as decoded, with the symbols that its codeword had corrected. -/
def decodeBlock (m : BackBlock) : BackBlock × Nat :=
  match m with
  | .codeword before levels k => recvBlock before levels k
  | .uncorrectable => (.uncorrectable, 0)
  | .badHeader => (.badHeader, 0)
  | .dataBlock bs => (.dataBlock bs, 0)
  | .control bs => (.control bs, 0)

/-! ## The row schedule (R328, R332, R333) -/

/-- Bits that a lane of 212.5 Gb/s has sent when the schedule has run for t ticks of 1.6 ns. -/
def laneBitsAt (t : Nat) : Nat := 340 * t

/-- The first row that has not begun after t ticks: 15 rows of 258 bits in each codeword of 4,070. -/
def rowAt (t : Nat) : Nat := 15 * (laneBitsAt t / 4070) + min 15 ((laneBitsAt t % 4070 + 257) / 258)

/-- The codewords that have ended after t ticks. -/
def codewordsAt (t : Nat) : Nat := laneBitsAt t / 4070

/-- Ticks of the schedule; it stands before the end of cold reset. -/
def Base.scheduleTicks (b : Base) : Nat := match b.wire.since with | some t => b.ticks - t | none => 0

/-- The first row from r on that no entry of a list takes; `n` bounds the search. -/
def freeRow (taken : List Nat) : Nat → Nat → Nat
  | 0, r => r
  | n + 1, r => if taken.contains r then freeRow taken n (r + 1) else r

/-- The first row of a port, at least `delay` ticks from now, that nothing else takes. -/
def Base.rowFor (b : Base) (p delay : Nat) : Nat :=
  let taken := (b.wire.rows.filter (fun e => e.1 == p)).map (fun e => e.2.1)
  freeRow taken (taken.length + 1) (rowAt (b.scheduleTicks + delay))

/-- A control block: TYPE and bytes 1 to 27, then ROW (R337). -/
def controlBlock (row : Nat) (body : List Byte) : List Byte := (body ++ List.replicate (28 - body.length) 0).take 28 ++ leBytes 4 row

/-- A row takes its place in a port's schedule. -/
def Base.placeRow (b : Base) (p row : Nat) (body : RowBody) : Base :=
  { b.emit (.row p row body) with wire := { b.wire with rows := b.wire.rows ++ [(p, row, body)] } }

/-- A control row on a port. -/
def Base.placeControl (b : Base) (p delay : Nat) (body : List Byte) : Base :=
  let r := b.rowFor p delay
  b.placeRow p r (.control (controlBlock r body))

/-! ## Patterns (R362) -/

/-- Register length and feedback taps of a pattern code. -/
def prbsTaps (pat : Nat) : Nat × List Nat :=
  match pat with
  | 1 => (7, [6, 5])
  | 2 => (13, [12, 11, 1, 0])
  | _ => (31, [30, 27])

/-- The next bit of a pattern. -/
def prbsBit (pat reg : Nat) : Nat := ((prbsTaps pat).2.filter (fun i => reg.testBit i)).length % 2

/-- The register after a bit. -/
def prbsShift (pat reg bit : Nat) : Nat := (2 * reg + bit) % 2 ^ (prbsTaps pat).1

/-- n bits of a pattern and the register after them. -/
def prbsBits (pat : Nat) : Nat → Nat → List Nat × Nat
  | 0, reg => ([], reg)
  | n + 1, reg =>
    let o := prbsBit pat reg
    let t := prbsBits pat n (prbsShift pat reg o)
    (o :: t.1, t.2)

/-- PAM4 levels of pattern bits: Gray-mapped, neither scrambled, coded nor precoded. -/
def patternLevels : List Nat → List Int
  | b0 :: b1 :: r => (2 * (grayOf b0 b1 : Int) - 3) :: patternLevels r
  | _ => []

/-- One received bit in the checker: it seeds the register first, then is compared; errors and bits compared so far. -/
def Prbs.checkBit (pat : Nat) (a : Prbs × Nat × Nat) (bit : Nat) : Prbs × Nat × Nat :=
  let x := a.1
  match x.check with
  | none =>
    let seed := x.seed ++ [bit]
    (if (prbsTaps pat).1 ≤ seed.length then { x with seed := [], check := some (ofMsb seed) } else { x with seed := seed }, a.2.1, a.2.2)
  | some reg =>
    let want := prbsBit pat reg
    ({ x with check := some (prbsShift pat reg want) }, a.2.1 + (if want = bit then 0 else 1), a.2.2 + 1)

def Base.prbs (b : Base) (l : Nat) : Prbs := sget (fun _ => Prbs.rest) b.wire.prbs l
def Base.setPrbs (b : Base) (l : Nat) (x : Prbs) : Base := { b with wire := { b.wire with prbs := sput (fun _ => Prbs.rest) b.wire.prbs l x } }

/-- The next n bits of a lane's generator. -/
def Base.generate (b : Base) (l pat n : Nat) : List Nat × Base :=
  let reg := (b.prbs l).gen % 2 ^ (prbsTaps pat).1
  let r := prbsBits pat n reg
  (r.1, b.setPrbs l { b.prbs l with gen := r.2 })

/-- Received bits in a lane's checker: errors are counted and raise PATTERN_ERR, bits are counted in units of 2²⁰. -/
def Base.checkPattern (b : Base) (l pat : Nat) (bits : List Nat) : Base :=
  let r := bits.foldl (Prbs.checkBit pat) (b.prbs l, 0, 0)
  let n := r.1.bits + r.2.2
  let b1 := ((b.setPrbs l { r.1 with bits := n % 2 ^ 20 }).count (Reg.lnkPrbsErr_COUNT l) r.2.1).count (Reg.lnkPrbsMbits_COUNT l) (n / 2 ^ 20)
  if r.2.1 = 0 then b1 else b1.raise (0x050 + l) 18

/-- Bits that arrive with errors that nothing states: a free value for each stretch. -/
def Base.noisy (b : Base) (bits : List Nat) : List Nat :=
  (bits.zip (List.range bits.length)).map (fun e => (e.1 + (if (Config.freeNat b.fresh).testBit e.2 then 1 else 0)) % 2)

/-! ## The alignment hunt (R341) -/

def Base.hunt (b : Base) (l : Nat) : Hunt := sget (fun _ => Hunt.rest) b.wire.hunts l
def Base.setHunt (b : Base) (l : Nat) (x : Hunt) : Base := { b with wire := { b.wire with hunts := sput (fun _ => Hunt.rest) b.wire.hunts l x } }

/-- HUNT after a codeword at the candidate, with how many of its 15 headers are 01 or 10: ALIGN afterwards, and the hunt. -/
def Hunt.hunts (x : Hunt) (ok : Nat) : Nat × Hunt :=
  let n := min 15 (64 - x.seen)
  let y := { x with seen := x.seen + n, valid := x.valid + min ok n }
  if y.seen < 64 then (0, y)
  else if 48 ≤ y.valid then (1, { y with from_ := y.o, seen := 0, valid := 0, adv := 0, run := 0 })
  else (0, { y with o := (y.o + 2) % 4070, seen := 0, valid := 0 })

/-- CONFIRM after a codeword: decoded, or one block on; after 15 advances HUNT goes on behind the original candidate. The fourth decoded codeword in a row is RX_LANE_LOCKED. -/
def Hunt.confirms (x : Hunt) (decoded : Bool) : Nat × Hunt :=
  if decoded then (1, { x with run := min 3 (x.run + 1) })
  else if x.adv = 14 then (0, { x with o := (x.from_ + 2) % 4070, adv := 0, run := 0 })
  else (1, { x with o := (x.o + 258) % 4070, adv := x.adv + 1, run := 0 })

end Sys2Proof.Machine
end

