-- ==== Sys2Proof/Machine/Crc.lean ====
section
/-! DEFINITION. The two CRCs of the spec: CRC-32 (R71) and CRC-32C (R206). Both are reflected in and out, start at all ones and end with all ones XORed in. -/

namespace Sys2Proof.Machine

/-- `n` shifts of a reflected CRC register. -/
def crcShift (poly : Nat) : Nat → Nat → Nat
  | 0, c => c
  | n + 1, c => crcShift poly n (if c % 2 = 1 then (c / 2) ^^^ poly else c / 2)

/-- One byte into a reflected CRC register. -/
def crcByte (poly c b : Nat) : Nat := crcShift poly 8 (c ^^^ b)

/-- The generator 0x04C1_1DB7, reflected (R71). -/
abbrev polyIeee : Nat := 0xEDB88320

/-- The generator 0x1EDC_6F41, reflected (R206). -/
abbrev polyC : Nat := 0x82F63B78

/-- A CRC register over bytes. -/
def crcRun (poly c : Nat) (bs : List Byte) : Nat := bs.foldl (fun a b => crcByte poly a b.toNat) c

/-- CRC-32 of bytes (R71). -/
def crc32 (bs : List Byte) : Nat := crcRun polyIeee 0xFFFFFFFF bs ^^^ 0xFFFFFFFF

/-- CRC-32C of bytes (R206). -/
def crc32c (bs : List Byte) : Nat := crcRun polyC 0xFFFFFFFF bs ^^^ 0xFFFFFFFF

end Sys2Proof.Machine
end

