-- ==== Sys2Proof/Machine/Olc.lean ====
section
/-! DEFINITION. The Osesh Layer Codec's tile decoding (R128 to R140): bit order, RAW, PALETTE-RUN and PREDICT, their damage codes (Table 5.5), and the damage fill (Table 5.6). -/

namespace Sys2Proof.Machine

/-- Damage codes of Table 5.5. -/
abbrev dENTRY : Nat := 1
abbrev dTOOLONG : Nat := 2
abbrev dMEMORY : Nat := 3
abbrev dCRC : Nat := 4
abbrev dMODE : Nat := 5
abbrev dPALETTE : Nat := 6
abbrev dRUN : Nat := 7
abbrev dRANGE : Nat := 8
abbrev dSUBSTREAM : Nat := 9
abbrev dUNDERRUN : Nat := 10
abbrev dTRAIL : Nat := 11

/-- The bits of a byte, most significant first (R128). -/
def byteBits (b : Byte) : List Bool := (List.range 8).map (fun i => b.toNat.testBit (7 - i))

/-- The bit string of bytes (R128). -/
def bitString (bs : List Byte) : List Bool := bs.flatMap byteBits

/-- The number of bits, first bit most significant. -/
def bitsToNat (bs : List Bool) : Nat := bs.foldl (fun a b => 2 * a + (if b then 1 else 0)) 0

/-- Reads `n` bits; UNDERRUN when they are exhausted. -/
def readBits (n : Nat) (bs : List Bool) : Except Nat (Nat × List Bool) :=
  if (bs.take n).length = n then .ok (bitsToNat (bs.take n), bs.drop n) else .error dUNDERRUN

/-- Counts zeros up to the next 1 bit, at most `max`; the 1 bit is consumed unless `max` zeros come first. -/
def readZeros : Nat → Nat → List Bool → Except Nat (Nat × List Bool)
  | 0, n, bs => .ok (n, bs)
  | _ + 1, _, [] => .error dUNDERRUN
  | k + 1, n, b :: bs => if b then .ok (n, bs) else readZeros k (n + 1) bs

/-- The end of a payload or sub-stream: the rest of its last byte is zero and no byte follows (R140). -/
def endOfPayload (rest : List Bool) : Except Nat Unit := if rest.length < 8 && rest.all (!·) then .ok () else .error dTRAIL

/-- Bits of one sample of a format (Table 5.4). -/
def sampleBits (f : Nat) : Nat := match f with | 0 => 32 | 1 => 32 | 2 => 8 | 3 => 1 | _ => 16

/-- Channel widths of a format in coding order (Table 5.4). -/
def channels (f : Nat) : List Nat := match f with | 0 => [8, 8, 8, 8] | 1 => [10, 10, 10, 2] | 2 => [8] | 3 => [1] | _ => [16]

/-! ## PALETTE-RUN (R137) -/

/-- Reads palette entries. -/
def readPalette (pw : Nat) : Nat → List Bool → Except Nat (List Nat × List Bool)
  | 0, bs => .ok ([], bs)
  | n + 1, bs => do
    let (v, r) ← readBits pw bs
    let (t, r2) ← readPalette pw n r
    .ok (v :: t, r2)

/-- Index bits for a palette size. -/
def indexBits (npal : Nat) : Nat := if npal = 1 then 0 else if npal ≤ 2 then 1 else if npal ≤ 4 then 2 else if npal ≤ 8 then 3 else 4

/-- The runs (length, sample), until 1,024 pixels are written; each run writes at least one. -/
def paletteRuns (pal : List Nat) (b : Nat) : Nat → Nat → List Bool → Except Nat (List (Nat × Nat) × List Bool)
  | 0, _, bs => .ok ([], bs)
  | k + 1, pos, bs =>
    if 1024 ≤ pos then .ok ([], bs)
    else do
      let (idx, r) ← readBits b bs
      if pal.length ≤ idx then .error dPALETTE
      else
        let (n, r2) ← readZeros 11 0 r
        if 10 < n then .error dRUN
        else
          let (x, r3) ← readBits n r2
          let len := 2 ^ n + x
          if 1024 < pos + len then .error dRUN
          else
            let (t, r4) ← paletteRuns pal b k (pos + len) r3
            .ok ((len, pal.getD idx 0) :: t, r4)

/-- A PALETTE-RUN payload: its runs, of 1,024 pixels together. -/
def paletteRun (f : Nat) (payload : List Byte) : Except Nat (List (Nat × Nat)) := do
  let (n, r) ← readBits 4 (bitString payload)
  let npal := n + 1
  if f = 3 && decide (2 < npal) then .error dPALETTE
  else
    let (pal, r2) ← readPalette (sampleBits f) npal r
    let (runs, r3) ← paletteRuns pal (indexBits npal) 1024 0 r2
    let _ ← endOfPayload r3
    .ok runs

/-- The pixels of runs. -/
def runPixels (runs : List (Nat × Nat)) : List Nat := runs.flatMap (fun q => List.replicate q.1 q.2)

/-! ## PREDICT (R138, R139) -/

/-- The predictor; `o` holds the samples decoded so far, row-major. -/
def predSample (o : Array Nat) (x y w : Nat) : Nat :=
  if x = 0 && y = 0 then 2 ^ (w - 1)
  else if y = 0 then o.getD (x - 1) 0
  else if x = 0 then o.getD ((y - 1) * 32) 0
  else
    let a := o.getD (y * 32 + x - 1) 0
    let b := o.getD ((y - 1) * 32 + x) 0
    let c := o.getD ((y - 1) * 32 + x - 1) 0
    if max a b ≤ c then min a b else if c ≤ min a b then max a b else a + b - c

/-- The adaptive parameter k: the least with cnt · 2^k ≥ acc, at most w. -/
def riceK (acc cnt w : Nat) : Nat → Nat → Nat
  | 0, k => k
  | n + 1, k => if cnt * 2 ^ k < acc && decide (k < w) then riceK acc cnt w n (k + 1) else k

/-- One residual code: up to 24 zeros, then an escape of w + 1 bits or k bits. -/
def residual (w k : Nat) (bs : List Bool) : Except Nat (Nat × List Bool) := do
  let (q, r) ← readZeros 24 0 bs
  if q = 24 then readBits (w + 1) r
  else
    let (x, r2) ← readBits k r
    .ok (q * 2 ^ k + x, r2)

/-- The samples of one channel, in order. -/
def predictSamples (w e : Nat) : Nat → Nat → Nat → Nat → Array Nat → List Bool → Except Nat (Array Nat × List Bool)
  | 0, _, _, _, o, bs => .ok (o, bs)
  | n + 1, i, acc, cnt, o, bs => do
    let p := predSample o (i % 32) (i / 32) w
    let (m, r) ← residual w (riceK acc cnt w (w + 1) 0) bs
    let d : Int := if m % 2 = 1 then -(((m + 1) / 2 : Nat) : Int) else ((m / 2 : Nat) : Int)
    let maxv : Int := ((2 ^ w - 1 : Nat) : Int)
    let v : Int := (p : Int) + d * (2 * e + 1 : Nat)
    if e = 0 && (decide (v < 0) || decide (maxv < v)) then .error dRANGE
    else
      let u := (max 0 (min maxv v)).toNat
      let acc1 := acc + m
      let cnt1 := cnt + 1
      predictSamples w e n (i + 1) (if cnt1 = 64 then acc1 / 2 else acc1) (if cnt1 = 64 then 32 else cnt1) (o.push u) r

/-- One sub-stream. -/
def predictChannel (w e : Nat) (bs : List Byte) : Except Nat (Array Nat) := do
  let (o, r) ← predictSamples w e 1024 0 4 1 #[] (bitString bs)
  let _ ← endOfPayload r
  .ok o

/-- The sub-streams of the channels, of the given lengths. Where two are damaged, the tile reports the first one in coding order (DESIGN CHOICE, log 51: R143 does not say which). -/
def predictAll (e : Nat) : List (Nat × Nat × Bool) → List Byte → Except Nat (List (Nat × Array Nat))
  | [], _ => .ok []
  | (w, len, bounded) :: t, bs => do
    let o ← predictChannel w (if bounded then e else 0) (bs.take len)
    let r ← predictAll e t (bs.drop len)
    .ok ((w, o) :: r)

/-- A PREDICT payload: 1,024 packed pixels, first channel at the most significant end. -/
def predictTile (f e : Nat) (payload : List Byte) : Except Nat (List Nat) :=
  let ws := channels f
  let nl := ws.length - 1
  if payload.length < 2 * nl then .error dSUBSTREAM
  else
    let ls := (List.range nl).map (fun i => leAt payload (2 * i) 2)
    let sum := ls.foldl (· + ·) 0
    if payload.length < 2 * nl + sum then .error dSUBSTREAM
    else
      let all := ls ++ [payload.length - 2 * nl - sum]
      if all.any (fun l => decide (l < 128)) then .error dSUBSTREAM
      else do
        let cs ← predictAll e ((ws.zip all).zipIdx.map (fun p => (p.1.1, p.1.2, decide (p.2 < 3) && decide (f < 2)))) (payload.drop (2 * nl))
        .ok ((List.range 1024).map (fun i => cs.foldl (fun a c => a * 2 ^ c.1 + c.2.getD i 0) 0))

/-! ## Tiles (R131 to R136) -/

/-- One I1 row of 32 pixels as 4 bytes: pixel u is bit u mod 8 of byte u / 8 (Table 4.4). -/
def packBits : Nat → List Nat → List Byte
  | 0, _ => []
  | n + 1, ps => BitVec.ofNat 8 ((ps.take 8).foldr (fun p a => p % 2 + 2 * a) 0) :: packBits n (ps.drop 8)

/-- The bytes of 1,024 packed pixels in the tile layout of Table 4.4. -/
def packTile (f : Nat) (pix : List Nat) : List Byte :=
  match f with
  | 0 => pix.flatMap (fun v => [BitVec.ofNat 8 (v / 2 ^ 24), BitVec.ofNat 8 (v / 2 ^ 16), BitVec.ofNat 8 (v / 2 ^ 8), BitVec.ofNat 8 v])
  | 1 => pix.flatMap (fun v => leBytes 4 (bits v 31 22 + bits v 21 12 * 2 ^ 10 + bits v 11 2 * 2 ^ 20 + bits v 1 0 * 2 ^ 30))
  | 2 => pix.map (fun v => BitVec.ofNat 8 v)
  | 3 => packBits 128 pix
  | _ => pix.flatMap (fun v => leBytes 2 (v ^^^ 0x8000))

/-- The tile's bytes from its stream bytes: header byte, then payload. -/
def decodeTile (f : Nat) (tile : List Byte) : Except Nat (List Byte) :=
  let hd := leAt tile 0 1
  let mode := hd / 64
  let e := hd / 8 % 8
  let raw := (tile.drop 1)
  let size := sampleBits f * 128
  if hd % 8 != 0 || mode == 3 || (mode != 2 && e != 0) || (mode == 2 && (f == 3 || (e != 0 && decide (1 < f)))) then .error dMODE
  else match mode with
    | 0 => if raw.length < size then .error dUNDERRUN else if size < raw.length then .error dTRAIL else .ok raw
    | 1 => (paletteRun f raw).map (fun q => packTile f (runPixels q))
    | _ => (predictTile f e raw).map (packTile f)

/-- Engine clocks of a fill, and of a RAW tile (Table 5.7). -/
def fillClocks (f : Nat) : Nat := if f = 3 then 32 else 256

/-- Engine clocks of a tile that decodes (Table 5.7): RAW 4 pixels a clock (32 of I1), one run or 16 of its pixels a clock, PREDICT one pixel a clock. -/
def tileClocks (f : Nat) (tile : List Byte) : Nat :=
  match leAt tile 0 1 / 64 with
  | 0 => fillClocks f
  | 1 => match paletteRun f (tile.drop 1) with
    | .ok runs => (runs.map (fun q => ceilDiv q.1 16)).sum
    | .error _ => 0
  | _ => 1024

/-- The most clocks that an engine spends on a tile (R147). -/
abbrev tileClocksMax : Nat := 4200

/-- The damage fill of a tile (Table 5.6). -/
def damageFill (f : Nat) : List Byte :=
  match f with
  | 0 => (List.range 1024).flatMap (fun _ => [0x80, 0x80, 0x80, 0xFF])
  | 1 => (List.range 1024).flatMap (fun _ => leBytes 4 0xE0080200)
  | 2 => List.replicate 1024 0xFF
  | 3 => (List.range 128).map (fun i => if i / 4 % 2 = 0 then 0x55 else 0xAA)
  | _ => List.replicate 2048 0

end Sys2Proof.Machine
end

