-- ==== Sys2Proof/Machine/Operands.lean ====
section
/-! DEFINITION. The operand forms of the commands: a register write with its byte enables, rights, access codes and reserved encodings (R12, R31 to R35, R45, R46), a register read, and the fields of descriptors and records (R9, R249). -/

namespace Sys2Proof.Machine

/-! ## Register addresses -/

/-- The key of the register at a page and offset of BAR0 (R30, R31). -/
def regKey (page : BitVec 10) (off : BitVec 12) : Nat := page.toNat * 4096 + off.toNat / 4 * 4

/-- The probe, query and result registers of which every host has its own copy (R46). -/
def perHostReg (key : Nat) : Bool :=
  [Reg.cmpProbeXy, Reg.cmpProbeOut, Reg.frsQuery, Reg.frsQueryAge, Reg.frsQueryBound, Reg.domMapQuery, Reg.domMapEntry,
    Reg.calQuery, Reg.calQueryOut].contains key

/-- Where the register of a key lies for host h: its own copy for the registers of R46. -/
def storeKey (h key : Nat) : Nat := if perHostReg key then hostCopy h key else key

/-! ## Rights -/

/-- Registers that only the owner host may write, as exceptions to R45: UNIT_OWNER, quotas, weights and overload settings, the Belfry maps, PAR_CTRL, PAR_CMD and PAR_DIV, ADM_BUDGET and the thermal thresholds (R45, R121, R272, R400, R447, R482, R486, R495, R527). -/
def ownerOnlyReg (key : Nat) : Bool :=
  let p := key / 4096
  let o := key % 4096
  (o == 0x02C) ||
  (decide (0x014 ≤ p ∧ p < 0x018) && (o == 0x040 || o == 0x04C || decide (0x100 ≤ o ∧ o < 0x120))) ||
  (p == 0x090 && decide (0x100 ≤ o ∧ o < 0x180)) ||
  key == Reg.parCtrl || key == Reg.parDiv || key == Reg.parCmd || key == Reg.admBudget || key == Reg.thmThrDie || key == Reg.thmThrStk

/-- Registers that only host h may write: the log registers of HST page h, the spill and window registers of block h, mailbox block h (R302, R447, R552). -/
def hostOnlyReg (key : Nat) : Option Nat :=
  let p := key / 4096
  let o := key % 4096
  if 0x010 ≤ p ∧ p < 0x014 ∧ 0x050 ≤ o ∧ o < 0x080 then some (p % 4)
  else if p = 0x020 ∧ 0x100 ≤ o ∧ o < 0x140 then some ((o - 0x100) / 0x10)
  else if p = 0x020 ∧ 0x200 ≤ o ∧ o < 0x300 then some ((o - 0x200) / 0x40)
  else if p = 0x001 ∧ 0x100 ≤ o ∧ o < 0x300 then some ((o - 0x100) / 0x80)
  else none

/-- Host h may write the register (R43, R45, R46 and the exceptions above). -/
def Base.mayWrite (b : Base) (h key : Nat) : Bool :=
  match hostOnlyReg key with
  | some k => k == h
  | none =>
    if ownerOnlyReg key then h == b.owner
    else h == b.owner || perHostReg key || pageHost (key / 4096) == some h ||
      (b.word (hdr (key / 4096) 0x2C)).toNat.testBit h

/-! ## Writing the fields of a register -/

/-- The bit mask of the enabled bytes (R31). -/
def beMask (be : BitVec 4) : Nat :=
  (if be.toNat.testBit 0 then 0xFF else 0) + (if be.toNat.testBit 1 then 0xFF00 else 0)
    + (if be.toNat.testBit 2 then 0xFF0000 else 0) + (if be.toNat.testBit 3 then 0xFF000000 else 0)

/-- A word with its enabled bytes replaced. -/
def mergeBytes (old val : Nat) (be : BitVec 4) : Nat := ((old &&& (0xFFFFFFFF - beMask be)) ||| (val &&& beMask be)) % 2 ^ 32

/-- The value is not a reserved encoding of the field (R12). -/
def Fld.allows (f : Fld) (v : Nat) : Bool := f.legal.isEmpty || f.legal.any (fun r => decide (r.1 ≤ v ∧ v ≤ r.2))

/-- What a write does to a register: the word stored, the staged word of its RWS fields, the bits written 1 in W1S fields and the values of WO fields, and whether a reserved encoding was met in an RW field and in an RWS field. -/
structure Applied where
  word   : Nat
  staged : Nat
  act    : Nat
  bad    : Bool
  rwsBad : Bool
  deriving DecidableEq, Repr

/-- Applies a write to one field according to its access code (Table 2.1); a field none of whose bytes is enabled is untouched. -/
def applyField (val : Nat) (be : BitVec 4) (r : Applied) (f : Fld) : Applied :=
  if f.mask &&& beMask be = 0 then r
  else
    let put (w v : Nat) : Nat := w - bits w f.msb f.lsb * 2 ^ f.lsb + v * 2 ^ f.lsb
    match f.acc with
    | .ro | .rc => r
    | .rw =>
      let v := bits (mergeBytes r.word val be) f.msb f.lsb
      if f.allows v then { r with word := put r.word v } else { r with bad := true }
    | .rws =>
      let v := bits (mergeBytes r.staged val be) f.msb f.lsb
      if f.allows v then { r with staged := put r.staged v } else { r with rwsBad := true }
    | .w1c => { r with word := r.word - (r.word &&& val &&& beMask be &&& f.mask) }
    | .w1s => { r with act := r.act ||| (val &&& beMask be &&& f.mask) }
    | .wo => { r with act := r.act ||| (val &&& beMask be &&& f.mask) }

/-- Applies a write to all fields of a register. -/
def applyWrite (d : RegDesc) (old staged : Nat) (a : RegWr) : Applied :=
  d.flds.foldl (applyField a.val.toNat a.be) ⟨old, staged, 0, false, false⟩

/-- The register has a field a write can act on (R34: a write to RO and RC registers is ignored without a violation). -/
def RegDesc.writable (d : RegDesc) : Bool := d.flds.any (fun f => f.acc != .ro && f.acc != .rc)

/-- The register has RWS fields in the enabled bytes. -/
def RegDesc.touchesRws (d : RegDesc) (be : BitVec 4) : Bool := d.flds.any (fun f => f.acc == .rws && (f.mask &&& beMask be) != 0)

/-- Combinations of fields that the spec calls reserved encodings: DOM_LOW with LOW ≥ HIGH (Table 10.5), an INDEX of CAL_QUERY that its TARGET does not have (Table 19.7) and the thermal thresholds out of order or too close to shutdown (R527, R528: shutdown at 125 °C for die zones and 105 °C for stacks). -/
def comboLegal (key w : Nat) : Bool :=
  if key = Reg.domLow then decide (bits w 15 0 < bits w 31 16)
  else if key = Reg.thmThrDie then decide (bits w 7 0 < bits w 15 8 ∧ bits w 15 8 < bits w 23 16 ∧ bits w 23 16 + 5 ≤ 125)
  else if key = Reg.thmThrStk then decide (bits w 7 0 < bits w 15 8 ∧ bits w 15 8 < bits w 23 16 ∧ bits w 23 16 + 5 ≤ 105)
  else if key = Reg.calQuery then
    decide (bits w 8 0 < (match bits w 17 16 with | 0 => 20 | 1 => 128 | 2 => 384 | _ => 1))
  else true

/-- Host h holds the open configuration transaction (R49). -/
def Base.holdsOpen (b : Base) (h : Nat) : Bool := b.flag Reg.cfgStatus_OPEN && b.get Reg.cfgStatus_HOLDER == h

/-- How a register write ends: refused or without effect (with the violation recorded), or applied. -/
inductive Written where
  /-- Nothing changes but the violation log. -/
  | refused (b : Base)
  /-- The register's RW and W1C fields are written; the bits written in W1S and WO fields, the register's word before and after, and the new staged word when RWS fields were written. -/
  | applied (b : Base) (act old new : Nat) (rws : Option Nat)
  deriving DecidableEq, Repr

/-- A write of host `a.host` to the register at a key: visibility (R33), access (R34), rights (R45), byte enables (R31), reserved encodings (R12). `staged` is the staged or live word that RWS fields are merged into; a reserved encoding in an RWS field counts only from the holder of the open transaction, since any other host's write of it is refused as a whole (R49). -/
def Base.regWrite (b : Base) (key staged : Nat) (a : RegWr) : Written :=
  let h := a.host.toNat
  let p := key / 4096
  match if b.visible h p then descAt key else none with
  | none => .refused (b.violation h p vHIDDEN (leBytes 2 p ++ leBytes 2 (key % 4096)))
  | some d =>
    if !d.writable then .refused b
    else if !b.mayWrite h key then .refused (b.refuse h key vNOTPERM a.val)
    else
      let k := storeKey h key
      let old := (b.word k).toNat
      let r := applyWrite d old staged a
      if !comboLegal key r.word && key != Reg.calQuery then .refused (b.refuse h key vRESERVED a.val)
      else
        let bad := !comboLegal key r.word
        let r := if bad then { r with word := r.word / 2 ^ 9 * 2 ^ 9 + old % 2 ^ 9, bad := true } else r
        let b1 := if r.bad || (r.rwsBad && b.holdsOpen h) then b.refuse h key vRESERVED a.val else b
        .applied (b1.setWord k (BitVec.ofNat 32 r.word)) r.act old r.word (if d.touchesRws a.be then some r.staged else none)

/-! ## Descriptors and records -/

/-- The opcode, flags, transaction and tag of a descriptor (Table 9.1). -/
def Desc.op (d : Desc) : Nat := leAt d.bytes 0 1
def Desc.flags (d : Desc) : Nat := leAt d.bytes 1 1
def Desc.txn (d : Desc) : Nat := leAt d.bytes 2 2
def Desc.tag (d : Desc) : Nat := leAt d.bytes 4 4

/-- `n` bytes of the descriptor's record from byte `off` (Table 9.1: the record begins at byte 8). -/
def Desc.rec_ (d : Desc) (off n : Nat) : Nat := leAt d.bytes (8 + off) n

/-- The record's length, whether TXN must be 0xFFFF, and the FLAGS bits allowed for an opcode (Table 9.2). -/
def opcodeForm (op : Nat) : Option (Nat × Bool × Nat) :=
  match op with
  | 0x01 => some (0, false, 1)
  | 0x02 => some (0, false, 1)
  | 0x03 => some (0, false, 1)
  | 0x04 => some (16, false, 1)
  | 0x05 => some (2, false, 1)
  | 0x06 => some (32, false, 1)
  | 0x07 => some (2, false, 1)
  | 0x08 => some (32, false, 1)
  | 0x09 => some (32, false, 1)
  | 0x0A => some (24, false, 3)
  | 0x0B => some (32, false, 1)
  | 0x0C => some (16, false, 1)
  | 0x0D => some (2, false, 1)
  | 0x0E => some (2, true, 1)
  | 0x0F => some (16, false, 1)
  | 0x10 => some (4, false, 5)
  | 0x11 => some (16, false, 1)
  | 0x12 => some (0, true, 1)
  | _ => none

/-- The checks of the descriptor itself (R250): opcode, FLAGS, TXN where the table gives none, bytes beyond the record. -/
def Desc.malformed (d : Desc) : Bool :=
  match opcodeForm d.op with
  | none => true
  | some (len, none_, fl) =>
    (d.flags &&& (0xFF - fl)) != 0 || (none_ && d.txn != 0xFFFF) || !allZero (d.bytes.drop (8 + len))

end Sys2Proof.Machine
end

