-- ==== Sys2Proof/Machine/Leave.lean ====
section
/-! DEFINITION. The admission unit as the units use it: requests for leave, grants and releases (R26, R27, R495 to R497). -/

namespace Sys2Proof.Machine

/-- Requester ids of Table 18.4. -/
abbrev ridGroup : Nat := 16
abbrev ridTwd (h : Nat) : Nat := 20 + h
abbrev ridPaging : Nat := 24
abbrev ridScrub : Nat := 25
abbrev ridRetire : Nat := 26
abbrev ridPort (p : Nat) : Nat := 28 + p
abbrev ridLane : Nat := 30
abbrev ridPair : Nat := 31
abbrev ridTime : Nat := 32
abbrev ridZone : Nat := 33
abbrev ridCal : Nat := 34
abbrev ridWatch : Nat := 35

/-- Units granted (ADM_STATUS.IN_USE). -/
def Adm.inUse (a : Adm) : Nat := (a.grants.map (·.units)).foldl (· + ·) 0

/-- The effective budget of R495. -/
def State.effective (s : State) : Nat :=
  let u := s.base.get Reg.admBudget_UNITS
  if s.base.get Reg.thmStatus_LEVEL = 0 then u else u * 7 / 10

/-- Grants are held back by R27: a rail in warning, or the 1 ms after its recovery. -/
def State.blocked (s : State) : Bool := s.base.flag Reg.pwrStatus_WARN || s.base.flag Reg.pwrStatus_HOLDOFF

/-- A requester holds its grant. -/
def State.holds (s : State) (rid tag : Nat) : Bool := s.adm.grants.any (fun l => l.rid == rid && l.tag == tag)

/-- A requester waits in the queue. -/
def State.asks (s : State) (rid tag : Nat) : Bool := s.adm.queue.any (fun l => l.rid == rid && l.tag == tag)

/-- A request for leave joins the end of the queue, unless the requester already holds or awaits its grant (R496). -/
def State.request (s : State) (rid tag units : Nat) : State :=
  if s.holds rid tag || s.asks rid tag then s
  else { s with adm := { s.adm with queue := s.adm.queue ++ [⟨rid, tag, units, s.base.ticks⟩] } }

/-- A holder releases its grant, or gives up its request (R497). -/
def State.release (s : State) (rid tag : Nat) : State :=
  let other (l : Leave) : Bool := !(l.rid == rid && l.tag == tag)
  { s with adm := ⟨s.adm.queue.filter other, s.adm.grants.filter other⟩ }

/-- Releases every grant and request of an id. -/
def State.releaseAll (s : State) (rid : Nat) : State :=
  { s with adm := ⟨s.adm.queue.filter (fun l => l.rid != rid), s.adm.grants.filter (fun l => l.rid != rid)⟩ }

/-- The oldest request is granted once it fits the effective budget and R27 holds nothing back (R496); ADM_GRANTS and ADM_WAIT_PEAK follow. -/
def State.grant (s : State) : State :=
  match s.adm.queue with
  | [] => s
  | l :: q =>
    if s.blocked || decide (s.effective < s.adm.inUse + l.units) then s
    else
      { s with
        adm := ⟨q, l :: s.adm.grants⟩
        base := (s.base.count Reg.admGrants_COUNT 1).put Reg.admWaitPeak_US
          (max (s.base.get Reg.admWaitPeak_US) (min (2 ^ 32 - 1) (ticksToUs (s.base.ticks - l.at_)))) }

end Sys2Proof.Machine
end

