-- ==== Sys2Proof/Machine/Mem.lean ====
section
/-! DEFINITION. Scene memory (chapter 10): byte access by logical address, objects as granule lists, poison and uncorrectable words, the granule table with allocation, release and renaming, and the start of a retirement. -/

namespace Sys2Proof.Machine

/-! ## Bytes -/

/-- The frame that carries a logical page (R276). -/
def Dome.frameOf (d : Dome) (page : Nat) : Nat := sget id d.map page

/-- The stack that holds a byte (R275). -/
def Dome.stackOf (d : Dome) (a : Nat) : Nat := (a % 2 ^ 21 / 512 + d.frameOf (a / 2 ^ 21)) % 8

/-- A byte of scene memory; memory reads 0 until written (R278). -/
def Dome.byte (d : Dome) (a : Nat) : Byte := sget (fun _ => 0) d.mem a

/-- `n` bytes from an address. -/
def Dome.bytesAt (d : Dome) (a n : Nat) : List Byte := (List.range n).map (fun i => d.byte (a + i))

/-- Stores bytes one by one. -/
def storeBytes (m : Sparse Byte) (a : Nat) : List Byte → Sparse Byte
  | [] => m
  | b :: bs => storeBytes (sput (fun _ => 0) m a b) (a + 1) bs

/-- Stores bytes; a 16-byte word written whole loses its poison (R290). -/
def Dome.write (d : Dome) (a : Nat) (bs : List Byte) : Dome :=
  { d with
    mem := storeBytes d.mem a bs
    poison := d.poison.filter (fun w => !decide (a ≤ 16 * w ∧ 16 * w + 16 ≤ a + bs.length)) }

/-- Clears a range to zero, poison included. -/
def Dome.wipe (d : Dome) (a n : Nat) : Dome :=
  { d with
    mem := d.mem.filter (fun e => !decide (a ≤ e.1 ∧ e.1 < a + n))
    poison := d.poison.filter (fun w => !decide (a ≤ 16 * w ∧ 16 * w < a + n)) }

/-- A 16-byte word (address / 16) of a stack that is down (R295). -/
def Dome.downWord (d : Dome) (w : Nat) : Bool := d.downStack.contains (d.stackOf (16 * w))

/-- A word is poisoned. -/
def Dome.poisoned (d : Dome) (w : Nat) : Bool := d.poison.contains w

/-- A word is named in a list of byte addresses. -/
def namesWord (l : List Nat) (w : Nat) : Bool := l.any (fun a => a / 16 == w)

/-- A read of the word is uncorrectable (R289, R290, R295). -/
def Dome.wordBad (d : Dome) (e : Ecc) (w : Nat) : Bool := d.poisoned w || namesWord e.ue w || d.downWord w

/-- The words that a byte range touches. -/
def wordsIn (a n : Nat) : List Nat := if n = 0 then [] else (List.range ((a + n - 1) / 16 - a / 16 + 1)).map (· + a / 16)

/-- The words of several ranges, each once. -/
def wordsOf (rs : List (Nat × Nat)) : List Nat := (rs.flatMap (fun r => wordsIn r.1 r.2)).dedup

/-- Some word of a range is uncorrectable. -/
def Dome.rangeBad (d : Dome) (e : Ecc) (rs : List (Nat × Nat)) : Bool := (wordsOf rs).any (d.wordBad e)

/-! ## Objects -/

/-- The address of byte `b` of an object with a granule list (R277). -/
def objAddr (gs : List Nat) (b : Nat) : Nat := gs.getD (b / 65536) 0 * 65536 + b % 65536

/-- The ranges of bytes `off .. off + n` of an object, one per granule. -/
def objRanges (gs : List Nat) (off n : Nat) : List (Nat × Nat) :=
  if n = 0 then []
  else (List.range ((off + n - 1) / 65536 - off / 65536 + 1)).map (fun i =>
    let g := off / 65536 + i
    let lo := max off (g * 65536)
    let hi := min (off + n) ((g + 1) * 65536)
    (objAddr gs lo, hi - lo))

/-- Bytes of an object. -/
def Dome.objBytes (d : Dome) (gs : List Nat) (off n : Nat) : List Byte := (List.range n).map (fun i => d.byte (objAddr gs (off + i)))

/-- Writes bytes of an object, granule by granule. -/
def Dome.objWrite (d : Dome) (gs : List Nat) (off : Nat) (bs : List Byte) : Dome :=
  (objRanges gs off bs.length).foldl
    (fun (p : Dome × List Byte) r => (p.1.write r.1 (p.2.take r.2), p.2.drop r.2)) (d, bs) |>.1

/-! ## The granule table -/

/-- The granule table entry of a number. -/
def Dome.gran (d : Dome) (g : Nat) : Granule := sget (fun _ => Granule.free0) d.grans g

/-- Sets a granule table entry. -/
def Dome.setGran (d : Dome) (g : Nat) (e : Granule) : Dome := { d with grans := sput (fun _ => Granule.free0) d.grans g e }

/-- Granules of the pool (Table 10.2). -/
abbrev poolSize : Nat := 1966080

/-- The number under which a spilled granule lies: no DRAM, slot of a host's area. -/
def spillId (area slot : Nat) : Nat := 2 ^ 21 * (1 + area) + slot

/-- A number that stands for a spilled granule. -/
def isSpillId (g : Nat) : Bool := decide (2 ^ 21 ≤ g)

/-- Pages that R294 is emptying: nothing is allocated from one between its copy and the switch (DESIGN CHOICE, log 26). -/
def Dome.leaving (d : Dome) : List Nat := (d.retire.filter (fun r => r.spare.isNone && r.copied)).map (·.page)

/-- FREE_ZERO granules of the pool outside the pages of a list. -/
def Dome.zeroOutside (d : Dome) (shut : List Nat) : Nat :=
  poolSize - (d.grans.filter (fun e => !isSpillId e.1 && !shut.contains (e.1 / 32))).length - 32 * (shut.filter (fun p => decide (32 * p < poolSize))).length

/-- FREE_ZERO granules that can be allocated. -/
def Dome.freeZero (d : Dome) : Nat := d.zeroOutside (d.withdrawn ++ d.leaving).dedup

/-- FREE_DIRTY granules. -/
def Dome.freeDirty (d : Dome) : Nat := (d.grans.filter (fun e => e.2.st == .freeDirty && !d.withdrawn.contains (e.1 / 32))).length

/-- RETIRING granules (DOM_RETIRING). -/
def Dome.retiring (d : Dome) : Nat := (d.grans.filter (fun e => e.2.st == .retiring)).length

/-- Spilled granules (DOM_SPILLED). -/
def Dome.spilledCount (d : Dome) : Nat := (d.grans.filter (fun e => isSpillId e.1)).length

/-- Slots of a host's spill area that hold granules (DOM_SPILL_USED). -/
def Dome.slotsUsed (d : Dome) (h : Nat) : Nat := (d.grans.filter (fun e => e.1 / 2 ^ 21 == h + 1)).length

/-- Free granules (DOM_FREE): FREE_ZERO and FREE_DIRTY. -/
def Dome.freeCount (d : Dome) : Nat := d.zeroOutside d.withdrawn + d.freeDirty

/-- A granule of the pool is FREE_ZERO and can be allocated. -/
def Dome.isFree (d : Dome) (g : Nat) : Bool :=
  decide (g < poolSize) && (d.gran g == Granule.free0) && !d.withdrawn.contains (g / 32) && !d.leaving.contains (g / 32)

/-- The lowest FREE_ZERO granule from `g` on. -/
def Dome.firstFree (d : Dome) : Nat → Nat → Nat
  | 0, g => g
  | n + 1, g => if d.isFree g then g else Dome.firstFree d n (g + 1)

/-- Takes one FREE_ZERO granule for an object: the lowest (DESIGN CHOICE). -/
def Dome.take (d : Dome) (host kind hand index : Nat) : Nat × Dome :=
  let g := d.firstFree (d.grans.length + 32 * (d.withdrawn.length + d.leaving.length) + 1) 0
  (g, { d.setGran g ⟨.held, host, kind, hand, index, .resident, d.clock⟩ with clock := d.clock + 1 })

/-- Takes `n` granules for indices `i, i + 1, …` of an object. -/
def Dome.takeMany (host kind hand : Nat) : Nat → Nat → Dome → List Nat × Dome
  | 0, _, d => ([], d)
  | n + 1, i, d =>
    let r := d.take host kind hand i
    let t := Dome.takeMany host kind hand n (i + 1) r.2
    (r.1 :: t.1, t.2)

/-- A granule becomes FREE_DIRTY; a spilled one gives its slot back. -/
def Dome.freeGran (d : Dome) (g : Nat) : Dome :=
  if isSpillId g then
    { d.setGran g Granule.free0 with poison := d.poison.filter (fun w => w / 4096 != g), peaks := sput (fun _ => 0) d.peaks g 0 }
  else d.setGran g ⟨.freeDirty, 0, 0, 0, 0, .resident, 0⟩

/-- Several granules become FREE_DIRTY. -/
def Dome.freeMany (d : Dome) : List Nat → Dome
  | [] => d
  | g :: r => (d.freeGran g).freeMany r

/-- Several granules become RETIRING (R280). -/
def Dome.retireMany (d : Dome) : List Nat → Dome
  | [] => d
  | g :: r => (d.setGran g { d.gran g with st := .retiring }).retireMany r

/-- Poison and the corner magnitude of a granule follow it to another number. -/
def Dome.moveMarks (d : Dome) (o n : Nat) : Dome :=
  { d with
    poison := (d.poison.filter (fun w => w / 4096 == o)).foldl (fun l w => setInsert l (n * 4096 + w % 4096)) (d.poison.filter (fun w => w / 4096 != o))
    peaks := sput (fun _ => 0) (sput (fun _ => 0) d.peaks n (sget (fun _ => 0) d.peaks o)) o 0 }

/-- Granules are used now (for R284). -/
def Dome.touch (d : Dome) (gs : List Nat) : Dome :=
  { gs.foldl (fun x g => if x.gran g == Granule.free0 then x else x.setGran g { x.gran g with used := d.clock }) d with clock := d.clock + 1 }

/-- Copies the bytes of one granule to another; uncorrectable words arrive poisoned (R290, R293). -/
def Dome.copyGran (d : Dome) (src dst : Nat) : Dome :=
  let d1 := d.wipe (dst * 65536) 65536
  let es := d.mem.filter (fun e => decide (src * 65536 ≤ e.1 ∧ e.1 < src * 65536 + 65536))
  let bad := (List.range 4096).filter (fun i => d.poisoned (src * 4096 + i) || d.downWord (src * 4096 + i))
  { d1 with
    mem := es.foldl (fun m e => sput (fun _ => 0) m (e.1 - src * 65536 + dst * 65536) e.2) d1.mem
    poison := bad.foldl (fun l i => setInsert l (dst * 4096 + i)) d1.poison }

/-! ## Renaming granules: paging, spilling and R294 move an object's granule under another number -/

/-- A granule list after a move. -/
def renameList (o n : Nat) (l : List Nat) : List Nat := l.map (fun g => if g = o then n else g)

def Layer.rename (o n : Nat) (l : Layer) : Layer := { l with gc := renameList o n l.gc, gz := renameList o n l.gz }

/-- A list of copies after a move. -/
def renamePairs (o n : Nat) (l : List (Nat × Nat)) : List (Nat × Nat) := l.map (fun p => (if p.1 = o then n else p.1, if p.2 = o then n else p.2))

def SceneOp.rename (o n : Nat) : SceneOp → SceneOp
  | .layer k (some l) => .layer k (some (l.rename o n))
  | x => x

/-- Replaces granule `o` by `n` in every list of the device. -/
def State.renameGran (s : State) (o n : Nat) : State :=
  { s with
    scenes := { s.scenes with
      live := { s.scenes.live with layers := s.scenes.live.layers.map (fun e => (e.1, e.2.map (Layer.rename o n))) }
      txns := s.scenes.txns.map (fun e => (e.1, e.2.map (fun (t : Txn) => { t with
        ops := t.ops.map (SceneOp.rename o n), grans := renameList o n t.grans, copies := renamePairs o n t.copies })))
      sealed := s.scenes.sealed.map (fun t => { t with ops := t.ops.map (SceneOp.rename o n), grans := renameList o n t.grans }) }
    dome := { s.dome with uploads := s.dome.uploads.map (fun e => (e.1, e.2.map (fun (u : Upload) => { u with grans := renameList o n u.grans }))) }
    codec := { s.codec with kept := s.codec.kept.map (fun e => (e.1, e.2.map (fun (u : Upload) => { u with grans := renameList o n u.grans }))) }
    twd := s.twd.map (fun e => (e.1, e.2.map (fun (t : TwdOp) => { t with sGrans := renameList o n t.sGrans }))) }

/-! ## Device requests that end in error (R453, R460) -/

/-- The violation LINK: AER status bit number and the first 12 bytes of a header, zeros when none applies. -/
def Base.linkViolation (b : Base) (h : Nat) (aer : Byte) (header : List Byte) : Base :=
  b.violation h (0x010 + h) vLINK ([aer, 0, 0, 0] ++ header.take 12)

/-- A device request on link h has ended in error, with the cause of HostRead: counted, DMA_ERROR for a requester of R460 (0 ring fetch, 1 UPLOAD, 2 READBACK, 3 spill, 4 log), violation LINK. The header of the completion is a free value (none for a timeout), and so is the AER bit of a UR or CA completion. -/
def Base.dmaError (b : Base) (h : Nat) (who : Option Nat) (cause : Nat) : Base :=
  let header := if cause = 3 then [] else (List.range 12).map (fun i => Config.freeByte (b.fresh + i))
  let aer : Byte := match cause with | 3 => 14 | 2 => 12 | _ => Config.freeByte (b.fresh + 12)
  let b1 := ({ b with fresh := b.fresh + 13 } : Base).count (Reg.hstDmaErr_COUNT h) 1
  let b2 := match who with
    | some w => b1.fault (0x010 + h) 2 (leBytes 1 w ++ [0, 0, 0] ++ header)
    | none => b1
  b2.linkViolation h aer header

/-! ## Poison reports and checked reads -/

/-- Pages of the Dome. -/
abbrev pgDOM : Nat := 0x020
abbrev pgSTK (k : Nat) : Nat := 0x021 + k

/-- Poison has come to lie in a granule of an object, first at word `w` (R291). -/
def State.reportPoison (s : State) (w : Nat) : State :=
  let g := w / 4096
  let e := s.dome.gran g
  let off := e.index * 65536 + w % 4096 * 16
  if e.st = .held || e.st = .retiring then
    s.onBase (fun b =>
      ((b.fault pgDOM 2 (leBytes 4 g ++ leBytes 1 e.host ++ leBytes 1 e.kind ++ leBytes 2 e.hand ++ leBytes 4 off)).raise pgDOM 19).violation
        e.host pgDOM vPOISON (leBytes 1 e.kind ++ [0] ++ leBytes 2 e.hand ++ leBytes 4 off))
  else s

/-- Poisons words, with one report for each granule that receives new poison. -/
def State.poisonWords (s : State) (ws : List Nat) : State :=
  let new := ws.filter (fun w => !s.dome.poisoned w)
  let firsts := new.filter (fun w => !new.any (fun v => decide (v < w) && v / 4096 == w / 4096))
  let s1 : State := { s with dome := { s.dome with poison := new.foldl setInsert s.dome.poison } }
  firsts.foldl State.reportPoison s1

/-- A granule copied for a transaction or a move: the report of poison that it now holds. -/
def State.reportGran (s : State) (g : Nat) : State :=
  match s.dome.poison.find? (fun w => w / 4096 == g) with
  | some w => s.reportPoison w
  | none => s

/-- Starts the retirement of a frame (R293): the frame of the highest-numbered spare page not yet lent is lent and leave is requested; with none left, R294 applies. A further uncorrectable word of a frame being retired joins it. -/
def State.startRetire (s : State) (page cause : Nat) (ue : List Nat) : State :=
  let f := s.dome.frameOf page
  if s.dome.retire.any (fun r => r.frame == f) then
    { s with dome := { s.dome with retire := s.dome.retire.map (fun r => if r.frame = f then { r with ue := (r.ue ++ ue).dedup } else r) } }
  else
    let spare := ((List.range 1024).map (65535 - ·)).find? (fun p => !s.dome.lent.contains p && !s.wch.gone.contains p && p != page)
    let d := match spare with
      | some p => { s.dome with lent := setInsert s.dome.lent p }
      | none => s.dome
    let s1 : State := { s with dome := { d with retire := d.retire ++ [⟨f, page, cause, spare, ue, false, []⟩] } }
    let s2 := if spare.isSome && d.lent.length + s.wch.gone.length = 1024 then s1.onBase (·.raise pgDOM 20) else s1
    s2.request ridRetire f 2

/-- What one read of a word counts and logs (R289): a corrected word, or an uncorrectable one, with fault UE unless it is poisoned; a word of a stack that is down reads as uncorrectable (R295). Readers: 0 Spire, 1 codec, 2 2D engine, 3 paging, 4 scrub, 5 BAR2, 6 Watch. -/
def State.noteWord (reader : Nat) (e : Ecc) (s : State) (w : Nat) : State :=
  let k := s.dome.stackOf (16 * w)
  if s.dome.wordBad e w then
    let s1 := s.onBase (fun b => (b.count (Reg.stkUe_COUNT k) 1).count Reg.domUe_COUNT 1)
    if s.dome.poisoned w then s1
    else s1.onBase (·.fault (pgSTK k) 2 (leBytes 2 (s.dome.frameOf (w / 131072)) ++ leBytes 4 (w % 131072 * 16) ++ leBytes 1 reader))
  else if namesWord e.ce w then s.onBase (fun b => (b.count (Reg.stkCe_COUNT k) 1).count Reg.domCe_COUNT 1)
  else s

/-- The checks of one word that is read: what R289 records, and retirement of its frame when it is uncorrectable and not poisoned (R293). -/
def State.checkWord (reader : Nat) (e : Ecc) (s : State) (w : Nat) : State :=
  let s1 := s.noteWord reader e w
  if s.dome.wordBad e w && !s.dome.poisoned w then s1.startRetire (w / 131072) 1 [w] else s1

/-- Bytes read from the stacks in this subframe, and those of them that Spire gathers read (R304). -/
def Dome.tally (d : Dome) (reader : Nat) (bytes : Nat → Nat) : Dome :=
  { d with reads := (List.range 8).foldl (fun m k =>
      let m1 := smod (fun _ => 0) m k (· + bytes k)
      if reader = 0 then smod (fun _ => 0) m1 (8 + k) (· + bytes k) else m1) d.reads }

/-- The bytes that words hold in each stack. -/
def Dome.wordBytes (d : Dome) (ws : List Nat) (k : Nat) : Nat := 16 * (ws.filter (fun w => d.stackOf (16 * w) == k)).length

/-- A checked read of several ranges. -/
def State.checkRead (s : State) (reader : Nat) (e : Ecc) (rs : List (Nat × Nat)) : State :=
  (wordsOf rs).foldl (State.checkWord reader e) { s with dome := s.dome.tally reader (s.dome.wordBytes (wordsOf rs)) }

/-- The words of a range of word numbers that a read finds corrected or uncorrectable. -/
def Dome.oddIn (d : Dome) (e : Ecc) (lo n : Nat) : List Nat :=
  let here (w : Nat) : Bool := decide (lo ≤ w ∧ w < lo + n)
  ((e.ce.map (· / 16)).filter here ++ (e.ue.map (· / 16)).filter here ++ d.poison.filter here
    ++ (if d.downStack.isEmpty then [] else ((List.range n).map (· + lo)).filter d.downWord)).dedup

/-- A checked read of whole granules' words or of a page: every word is read, the odd ones are looked at. -/
def State.checkBlock (s : State) (reader : Nat) (e : Ecc) (lo n : Nat) : State :=
  (s.dome.oddIn e lo n).foldl (State.checkWord reader e) { s with dome := s.dome.tally reader (fun _ => 2 * n) }

end Sys2Proof.Machine
end

