-- ==== Sys2Proof/Machine/Scene.lean ====
section
/-! DEFINITION. The scene (chapter 4): object tables and views, layer geometry, holds, quotas, the granules of planes, staged copies, pinning and what can be spilled. -/

namespace Sys2Proof.Machine

/-! ## Views of the scene -/

/-- An object's key: host and handle (R90). -/
def objKey (h hand : Nat) : Nat := h * 65536 + hand

def Scene.ctx (sc : Scene) (k : Nat) : Option Ctx := sget (fun _ => none) sc.ctxs k
def Scene.layer (sc : Scene) (k : Nat) : Option Layer := sget (fun _ => none) sc.layers k
def Scene.region (sc : Scene) (k : Nat) : Option Region := sget (fun _ => none) sc.regions k

/-- One change applied to a scene. -/
def Scene.apply (sc : Scene) : SceneOp → Scene
  | .ctx k v => { sc with ctxs := sput (fun _ => none) sc.ctxs k v }
  | .layer k v => { sc with layers := sput (fun _ => none) sc.layers k v }
  | .region k v => { sc with regions := sput (fun _ => none) sc.regions k v }

/-- The changes of one transaction. -/
def Scene.applyAll (sc : Scene) (ops : List SceneOp) : Scene := ops.foldl Scene.apply sc

/-- The newest sealed version of the scene (R111). -/
def State.sealedScene (s : State) : Scene := s.scenes.sealed.foldl (fun sc t => sc.applyAll t.ops) s.scenes.live

/-- An OPEN or CLOSING transaction. -/
def State.txn (s : State) (h t : Nat) : Option Txn := sget (fun _ => none) s.scenes.txns (h * 256 + t)

/-- Sets or frees a transaction. -/
def State.setTxn (s : State) (h t : Nat) (x : Option Txn) : State :=
  { s with scenes := { s.scenes with txns := sput (fun _ => none) s.scenes.txns (h * 256 + t) x } }

/-- The scene as a transaction sees it. -/
def State.view (s : State) (h t : Nat) : Scene :=
  match s.txn h t with
  | some x => s.sealedScene.applyAll x.ops
  | none => s.sealedScene

/-- Two changes concern the same object. -/
def SceneOp.same : SceneOp → SceneOp → Bool
  | .ctx k _, .ctx j _ => k == j
  | .layer k _, .layer j _ => k == j
  | .region k _, .region j _ => k == j
  | _, _ => false

/-- A change joins a transaction; it replaces an earlier change of the same object. -/
def addOp (ops : List SceneOp) (o : SceneOp) : List SceneOp := ops.filter (fun x => !x.same o) ++ [o]

/-- Adds a change to a transaction. -/
def Txn.add (x : Txn) (o : SceneOp) : Txn := { x with ops := addOp x.ops o }

/-- Holds an object for a transaction (R111). -/
def Txn.hold (x : Txn) (k : ObjKind) (key : Nat) : Txn := if x.holds.contains (k, key) then x else { x with holds := x.holds ++ [(k, key)] }

/-- The other OPEN or CLOSING transactions of a host. -/
def State.others (s : State) (h t : Nat) : List Txn :=
  (s.scenes.txns.filter (fun e => e.1 / 256 == h && e.1 != h * 256 + t)).filterMap (·.2)

/-- Another transaction has staged the object under this key as a new one. -/
def Txn.creates (sc : Scene) (x : Txn) (k : ObjKind) (key : Nat) : Bool :=
  x.ops.any (fun o => match k, o with
    | .ctx, .ctx j (some v) => j == key && (sc.ctx key).map (·.oid) != some v.oid
    | .layer, .layer j (some v) => j == key && (sc.layer key).map (·.oid) != some v.oid
    | .region, .region j (some v) => j == key && (sc.region key).map (·.oid) != some v.oid
    | _, _ => false)

/-- The object is held, or has been staged, by another transaction of the host (R111). -/
def State.foreign (s : State) (h t : Nat) (k : ObjKind) (key : Nat) : Bool :=
  (s.others h t).any (fun x => x.holds.contains (k, key) || x.creates s.sealedScene k key)

/-! ## Layer geometry (R104, R105) -/

/-- Bytes of one tile of a format (Table 4.4). -/
def tileBytes (f : Nat) : Nat := match f with | 0 => 4096 | 1 => 4096 | 2 => 1024 | 3 => 128 | _ => 2048

/-- Bits per pixel of a format. -/
def bitsPer (f : Nat) : Nat := match f with | 0 => 32 | 1 => 32 | 2 => 8 | 3 => 1 | _ => 16

def Layer.tw (l : Layer) : Nat := ceilDiv l.width 32
def Layer.th (l : Layer) : Nat := ceilDiv l.height 32

/-- The tile grid of a plane: 0 colour, 1 ZT16 (R104, R105). -/
def Layer.gridW (l : Layer) (plane : Nat) : Nat := if plane = 0 then l.tw else ceilDiv (l.tw + 1) 32
def Layer.gridH (l : Layer) (plane : Nat) : Nat := if plane = 0 then l.th else ceilDiv (l.th + 1) 32

/-- The format of a plane. -/
def Layer.planeFmt (l : Layer) (plane : Nat) : Nat := if plane = 0 then l.format else 4

/-- Bytes of a plane. -/
def Layer.planeBytes (l : Layer) (plane : Nat) : Nat := l.gridW plane * l.gridH plane * tileBytes (l.planeFmt plane)

/-- Granules of a plane; a layer that is not RELIEF has no ZT16 plane. -/
def Layer.planeGrans (l : Layer) (plane : Nat) : Nat :=
  if plane = 1 && l.kind != 1 then 0 else ceilDiv (l.planeBytes plane) 65536

/-- The granule list of a plane. -/
def Layer.grans (l : Layer) (plane : Nat) : List Nat := if plane = 0 then l.gc else l.gz

def Layer.setGrans (l : Layer) (plane : Nat) (g : List Nat) : Layer := if plane = 0 then { l with gc := g } else { l with gz := g }

/-- The byte of the ZT16 plane at which corner value (cx, cy) of a RELIEF layer begins (R105). -/
def Layer.cornerOff (l : Layer) (cx cy : Nat) : Nat := (cy / 32 * l.gridW 1 + cx / 32) * 2048 + (cy % 32 * 32 + cx % 32) * 2

/-- The corner value (cx, cy) of a RELIEF layer (R105), read from the memory. -/
def Layer.corner (l : Layer) (d : Dome) (cx cy : Nat) : Int :=
  let a := objAddr l.gz (l.cornerOff cx cy)
  toSigned 16 ((d.byte a).toNat + 256 * (d.byte (a + 1)).toNat)

/-- The corners (cx, cy) of a RELIEF layer whose granule index satisfies a condition. -/
def Layer.cornersWhere (l : Layer) (p : Nat → Bool) : List (Nat × Nat) :=
  ((List.range (l.th + 1)).flatMap (fun cy => (List.range (l.tw + 1)).map (fun cx => (cx, cy)))).filter (fun c => p (l.cornerOff c.1 c.2 / 65536))

/-- Every depth of a layer (R74): its DEPTH, or all corner values of a RELIEF layer; of a spilled granule the magnitude that the Dome kept of it. -/
def Layer.depths (l : Layer) (d : Dome) : List Int :=
  if l.kind = 1 then
    (l.cornersWhere (fun i => !isSpillId (l.gz.getD i 0))).map (fun c => l.corner d c.1 c.2)
      ++ (l.gz.filter isSpillId).map (fun g => ((sget (fun _ => 0) d.peaks g : Nat) : Int))
  else [toSigned 16 l.depth]

/-- The largest corner magnitude in the resident granule `g` of a layer's ZT16 plane. -/
def Layer.peak (l : Layer) (d : Dome) (g : Nat) : Nat :=
  (l.cornersWhere (fun i => l.gz.getD i 0 == g)).foldl (fun a c => max a (l.corner d c.1 c.2).natAbs) 0

/-- The layer is clamped under a DMAX (R74). -/
def Layer.clamped (l : Layer) (d : Dome) (dmax : Nat) : Bool := (l.depths d).any (fun z => decide (dmax < z.natAbs))

/-! ## Quotas (R119) -/

/-- Resources: 0 contexts, 1 layers, 2 regions, 3 open transactions, 4 command slots, 5 granules. -/
def quotaTotal : Nat → Nat
  | 0 => 40960 | 1 => 49152 | 2 => 4096 | 3 => 1024 | 4 => 131072 | _ => poolSize

def limitOf (h : Nat) : Nat → FieldRef
  | 0 => Reg.qtaCtx_LIMIT h | 1 => Reg.qtaLayer_LIMIT h | 2 => Reg.qtaRegion_LIMIT h | 3 => Reg.qtaTxn_LIMIT h
  | 4 => Reg.qtaSlotLimit_LIMIT h | _ => Reg.qtaMemLimit_LIMIT h

def reserveOf (h : Nat) : Nat → FieldRef
  | 0 => Reg.qtaCtx_RESERVE h | 1 => Reg.qtaLayer_RESERVE h | 2 => Reg.qtaRegion_RESERVE h | 3 => Reg.qtaTxn_RESERVE h
  | 4 => Reg.qtaSlotReserve_RESERVE h | _ => Reg.qtaMemReserve_RESERVE h

def usedOf (h : Nat) : Nat → FieldRef
  | 0 => Reg.useCtx_USED h | 1 => Reg.useLayer_USED h | 2 => Reg.useRegion_USED h | 3 => Reg.useTxn_USED h
  | 4 => Reg.useSlot_USED h | _ => Reg.useMem_USED h

/-- A ring's state. -/
def Ring.empty : Ring := ⟨[], [], false⟩
def State.ring (s : State) (h r : Nat) : Ring := sget (fun _ => Ring.empty) s.rings.rings (16 * h + r)
def State.setRing (s : State) (h r : Nat) (x : Ring) : State :=
  { s with rings := { s.rings with rings := sput (fun _ => Ring.empty) s.rings.rings (16 * h + r) x } }

/-- Descriptors in flight of a host (USE_SLOT). -/
def State.slots (s : State) (h : Nat) : Nat := ((List.range 16).map (fun r => (s.ring h r).flight.length)).foldl (· + ·) 0

/-- Units of a resource that a host uses. -/
def State.used (s : State) (h r : Nat) : Nat := if r = 4 then s.slots h else s.base.get (usedOf h r)

/-- What a use draws on the shared pool. -/
def overUse (used reserve : Nat) : Nat := used - reserve

/-- `hasRoom()` of R119. -/
def State.hasRoom (s : State) (r h n : Nat) : Bool :=
  let hosts := List.range s.base.nhosts
  let pool := quotaTotal r - (hosts.map (fun k => s.base.get (reserveOf k r))).foldl (· + ·) 0
  let poolUsed := (hosts.map (fun k => overUse (s.used k r) (s.base.get (reserveOf k r)))).foldl (· + ·) 0
  let now := overUse (s.used h r) (s.base.get (reserveOf h r))
  let new := overUse (s.used h r + n) (s.base.get (reserveOf h r))
  decide (s.used h r + n ≤ s.base.get (limitOf h r)) && decide (poolUsed - now + new ≤ pool)

/-- Takes units of a resource. -/
def Base.takeUse (b : Base) (h r n : Nat) : Base := b.put (usedOf h r) (b.get (usedOf h r) + n)

/-- Gives units back. -/
def Base.giveUse (b : Base) (h r n : Nat) : Base := b.put (usedOf h r) (b.get (usedOf h r) - n)

/-! ## Pinning and spill (R282, R284) -/

/-- Granules of both planes. -/
def Layer.all (l : Layer) : List Nat := l.gc ++ l.gz

/-- The upload of a host. -/
def State.upl (s : State) (h u : Nat) : Option Upload := sget (fun _ => none) s.dome.uploads (objKey h u)

def State.setUpl (s : State) (h u : Nat) (v : Option Upload) : State :=
  { s with dome := { s.dome with uploads := sput (fun _ => none) s.dome.uploads (objKey h u) v } }

/-- Granules of an upload, none when it does not exist. -/
def State.uplGrans (s : State) (h u : Nat) : List Nat := ((s.upl h u).map (·.grans)).getD []

/-- Granules that visible layers pin: LIVE, sealed, or of a CLOSING transaction that waits for residency (R282, R283). -/
def State.visiblePins (s : State) : List Nat :=
  (s.scenes.live.layers.filterMap (·.2)).flatMap (fun l => if l.visible then l.all else [])
    ++ s.scenes.sealed.flatMap (fun t => t.ops.flatMap (fun o => match o with | .layer _ (some l) => if l.visible then l.all else [] | _ => []))
    ++ (s.scenes.txns.filterMap (·.2)).flatMap (fun t => if t.closing then t.ops.flatMap (fun o => match o with | .layer _ (some l) => if l.visible then l.all else [] | _ => []) else [])

/-- The upload that a DECODE reads on although its transaction has released it (R147, R252; DESIGN CHOICE, log 26: its granules stay until the DECODE completes). -/
def State.keptUpload (s : State) (id : Nat) : Option Upload := sget (fun _ => none) s.codec.kept id

/-- The granules of the upload that a DECODE reads. -/
def State.readGrans (s : State) (d : Decode) : List Nat := ((s.keptUpload d.id).map (·.grans)).getD (s.uplGrans d.host d.upload)

/-- Granules that a DECODE or a 2D operation reads although their object may have left (R147, R306). -/
def State.readNow (s : State) : List Nat :=
  s.twd.flatMap (fun e => (e.2.map (·.sGrans)).getD []) ++ s.codec.kept.flatMap (fun e => (e.2.map (·.grans)).getD [])

/-- Granules of a released object become FREE_DIRTY, those still read RETIRING. -/
def State.releaseGrans (s : State) (gs : List Nat) : State :=
  { s with dome := (s.dome.freeMany (gs.filter (fun g => !s.readNow.contains g))).retireMany (gs.filter s.readNow.contains) }

/-- Granules that decodes, uploads in progress and 2D operations read or write. -/
def State.workPins (s : State) : List Nat :=
  s.codec.decodes.flatMap (fun d => s.readGrans d ++
      (((s.view d.host d.txn).layer (objKey d.host d.layer)).map (fun l => l.grans d.plane)).getD [])
    ++ (List.range 64).flatMap (fun q => (s.ring (q / 16) (q % 16)).flight.flatMap (fun d =>
        if d.st = .accepted && d.op == 9 then s.uplGrans (q / 16) (d.rec_ 0 4) else []))
    ++ s.twd.flatMap (fun e => match e.2 with
        | some o => o.sGrans ++ (if o.dKind = 2 then s.uplGrans e.1 o.dHand
            else (((s.view e.1 o.txn).layer (objKey e.1 o.dHand)).map (fun l => l.grans o.dKind)).getD [])
        | none => [])

/-- Granules that a retirement copy reads or writes: those of a page from its leave to the end of its copy, and the moves of R294 up to the switch. -/
def State.copyPins (s : State) (g : Nat) : Bool :=
  s.dome.retire.any (fun r => (g / 32 == r.page && (s.holds ridRetire r.frame || r.copied && r.spare.isNone)) || r.moves.any (fun m => m.2 == g))

/-- A granule is pinned (R282). -/
def State.pinned (s : State) (g : Nat) : Bool :=
  (s.dome.gran g).st == .retiring || s.visiblePins.contains g || s.workPins.contains g || s.copyPins g

/-- The host whose spill area a granule goes to (R284). -/
def State.spillArea (s : State) (g : Nat) : Nat :=
  let e := s.dome.gran g
  let shared := e.kind != 2 && (((s.sealedScene.layer (objKey e.host e.hand)).bind (fun l => s.sealedScene.ctx l.ctx)).map (·.shared)).getD false
  if shared then s.base.owner else e.host

/-- The lowest free slot of a host's area. -/
def State.freeSlot (s : State) (h : Nat) : Option Nat :=
  ((List.range (s.dome.slotsUsed h + 1)).find? (fun k => s.dome.gran (spillId h k) == Granule.free0)).filter
    (fun k => decide (k < s.base.get (Reg.domSpillSize_SLOTS h)))

/-- A granule that an OPEN transaction has staged (class 2 of R284). -/
def State.stagedOpen (s : State) (g : Nat) : Bool := (s.scenes.txns.filterMap (·.2)).any (fun t => !t.closing && t.grans.contains g)

/-- A granule can be spilled now (R284). -/
def State.spillable (s : State) (g : Nat) : Bool :=
  let e := s.dome.gran g
  e.st == .held && !isSpillId g && !s.pinned g &&
    (s.base.link (s.spillArea g)).up && (s.freeSlot (s.spillArea g)).isSome &&
    (e.kind == 2 || s.stagedOpen g || (s.scenes.live.layers.filterMap (·.2)).any (fun l => !l.visible && l.all.contains g))

/-- Granules that can be spilled, in the order of R284. -/
def State.spillOrder (s : State) : List Nat :=
  let gs := (s.dome.grans.map (·.1)).filter s.spillable
  let lru (l : List Nat) := l.mergeSort (fun a b => decide ((s.dome.gran a).used ≤ (s.dome.gran b).used))
  lru (gs.filter (fun g => (s.dome.gran g).kind == 2))
    ++ lru (gs.filter (fun g => (s.dome.gran g).kind != 2 && s.stagedOpen g))
    ++ lru (gs.filter (fun g => (s.dome.gran g).kind != 2 && !s.stagedOpen g))

/-- How an allocation of `n` granules stands (R279): 0 it proceeds, 1 it waits, 2 nothing can make granules free. -/
def State.allocState (s : State) (n : Nat) : Nat :=
  if n ≤ s.dome.freeZero then 0
  else if 0 < s.dome.freeDirty || 0 < s.dome.retiring || (s.dome.grans.map (·.1)).any s.spillable then 1
  else 2

/-- MEM_SHORT of R279. -/
def State.memShort (s : State) (h n : Nat) : State :=
  s.onBase (fun b => (b.fault pgDOM 3 (leBytes 1 h ++ [0, 0, 0] ++ leBytes 4 n)).raise pgDOM 17)

/-! ## Staged copies (R17, R280) -/

/-- The granules of a plane, by index, that a write needs and the transaction does not own yet. -/
def Txn.missing (x : Txn) (l : Layer) (plane : Nat) (idx : List Nat) : List Nat :=
  idx.dedup.filter (fun i => decide (i < (l.grans plane).length) && !x.grans.contains ((l.grans plane).getD i 0))

/-- Copies one granule of a layer's plane for a transaction; the original is read with its error check when the writer comes to it (`checkCopies`). The copy is made even when the writer rewrites it whole (DESIGN CHOICE: R280 lets it skip the copy read, with the same result). -/
def State.copyOne (h t key plane : Nat) (s : State) (i : Nat) : State :=
  match s.txn h t, (s.view h t).layer key with
  | some x, some l =>
    let old := (l.grans plane).getD i 0
    let r := s.dome.take h plane (key % 65536) i
    let l1 := l.setGrans plane ((l.grans plane).set i r.1)
    let x1 := { x.add (.layer key (some l1)) with grans := r.1 :: x.grans, copies := (old, r.1) :: x.copies }
    (({ s with dome := r.2.copyGran old r.1 }.setTxn h t (some x1)).onBase (·.takeUse h 5 1)).reportGran r.1
  | _, _ => s

/-- The originals of the copies among these granules are read with their error check (R289), when their writer first comes to them: the words of an original that prove uncorrectable are poisoned in its copy. -/
def State.checkCopies (s : State) (reader : Nat) (ecc : Ecc) (h t : Nat) (gs : List Nat) : State :=
  match s.txn h t with
  | none => s
  | some x =>
    let one (z : State) (p : Nat × Nat) : State :=
      if isSpillId p.1 then z
      else
        let bad := (z.dome.oddIn ecc (p.1 * 4096) 4096).filter (z.dome.wordBad ecc)
        (z.checkBlock reader ecc (p.1 * 4096) 4096).poisonWords (bad.map (fun w => p.2 * 4096 + w % 4096))
    (x.copies.filter (fun p => gs.contains p.2)).foldl one (s.setTxn h t (some { x with copies := x.copies.filter (fun p => !gs.contains p.2) }))

/-- How staged copies of `n` granules stand (R279): 0 they proceed, 1 they wait for granules or for the page-in of a spilled original, 2 nothing can make the granules free that the copies and the page-ins need. -/
def State.copyState (s : State) (n : Nat) (olds : List Nat) : Nat :=
  match s.allocState (n + (olds.filter isSpillId).length) with
  | 2 => 2
  | k => if olds.any isSpillId then 1 else k

/-- Copies several granules (each admitted and available). -/
def State.copyMany (s : State) (h t key plane : Nat) (idx : List Nat) : State := idx.foldl (State.copyOne h t key plane) s

/-- The granule indices of a range of bytes of a plane. -/
def granIdx (off n : Nat) : List Nat := if n = 0 then [] else (List.range ((off + n - 1) / 65536 - off / 65536 + 1)).map (· + off / 65536)

end Sys2Proof.Machine
end

