-- ==== Sys2Proof/Machine/Rings.lean ====
section
/-! DEFINITION. The command rings (chapter 9): doorbells, fetches, descriptors in flight, the waits of R256, completions and their order (R254 to R258), and service credits (R266). -/

namespace Sys2Proof.Machine

/-- Pages of a host's command processor, transaction unit and 2D engine. -/
abbrev pgHST (h : Nat) : Nat := 0x010 + h
abbrev pgCMD (h : Nat) : Nat := 0x014 + h
abbrev pgTXN (h : Nat) : Nat := 0x018 + h
abbrev pgTWD (h : Nat) : Nat := 0x01C + h

/-- Freshness ticks seen so far (FRS_MS counts them). -/
def State.freshTicks (s : State) : Nat := s.base.get Reg.frsMs_TICKS

/-- The 64-bit address in a pair of registers. -/
def Base.addr64 (b : Base) (lo hi : Nat) : Nat := (b.word lo).toNat + 2 ^ 32 * (b.word hi).toNat

/-! ## Busy states of a host's command and transaction units (R272, R274, R326) -/

/-- BUSY or READY, for a unit that is in either. -/
def Base.busyIf (b : Base) (p : Nat) (c : Bool) : Base :=
  if b.ownState p = uREADY || b.ownState p = uBUSY then b.setOwn p (if c then uBUSY else uREADY) else b

/-- Sealed transactions of a host waiting for a cut. -/
def State.waiting (s : State) (h : Nat) : Nat := (s.scenes.sealed.filter (fun t => t.host == h)).length

/-- OPEN and CLOSING transactions of a host, with their handles. -/
def State.openTxns (s : State) (h : Nat) : List (Nat × Txn) :=
  s.scenes.txns.filterMap (fun e => if e.1 / 256 = h then e.2.map (fun x => (e.1 % 256, x)) else none)

/-- The 2D operation of a host. -/
def State.twdOp (s : State) (h : Nat) : Option TwdOp := sget (fun _ => none) s.twd h

def State.setTwd (s : State) (h : Nat) (o : Option TwdOp) : State := { s with twd := sput (fun _ => none) s.twd h o }

/-- The states of CMD, TXN and TWD pages of a host follow what is in flight. -/
def State.refreshHost (s : State) (h : Nat) : State :=
  s.onBase (fun b => ((b.busyIf (pgCMD h) (decide (0 < s.slots h))).busyIf (pgTXN h)
    (!(s.openTxns h).isEmpty || decide (0 < s.waiting h))).busyIf (pgTWD h) (s.twdOp h).isSome)

/-! ## Completions -/

/-- The 16 bytes of a completion (Table 9.6). -/
def completionBytes (r log2 now : Nat) (d : Desc) (status info : Nat) (time : Option Nat) : List Byte :=
  leBytes 1 status ++ leBytes 1 d.op ++ leBytes 1 (((d.n / 2 ^ log2) % 2 ^^^ 1) * 128 + r) ++ [0]
    ++ leBytes 4 d.tag ++ leBytes 4 info ++ leBytes 4 (time.getD now)

/-- The context that a descriptor names: its own field, or the owner of its layer or region as its transaction sees them; none for the other opcodes (R257). -/
def State.namedCtx (s : State) (h : Nat) (d : Desc) : Option Nat :=
  let key := objKey h (d.rec_ 0 2)
  match d.op with
  | 0x04 | 0x05 | 0x0F => some key
  | 0x06 | 0x0C => some (objKey h (d.rec_ 2 2))
  | 0x07 | 0x08 | 0x0A | 0x0B => ((s.view h d.txn).layer key).map (·.ctx)
  | 0x0D => ((s.view h d.txn).region key).map (·.ctx)
  | _ => none

/-- The context of a command in a ring: fixed at its processing, and until then the one that it names (R257). -/
def State.ctxOf (s : State) (h : Nat) (d : Desc) : Option Nat := if d.st == .fetched then s.namedCtx h d else d.ctx

/-- Splits the descriptors of a ring into those whose completion may be written and those that stay: a completed one is withheld while an earlier one of the same context (by `cx`) stays (R257). -/
def splitDone (cx : Desc → Option Nat) : List Desc → List Desc → List Desc × List Desc
  | _, [] => ([], [])
  | kept, d :: rest =>
    match d.st with
    | .done _ _ _ =>
      if d.ctx.isSome && kept.any (fun k => cx k == d.ctx) then
        let t := splitDone cx (kept ++ [d]) rest
        (t.1, d :: t.2)
      else
        let t := splitDone cx kept rest
        (d :: t.1, t.2)
    | _ =>
      let t := splitDone cx (kept ++ [d]) rest
      (t.1, d :: t.2)

/-- Writes one completion and counts it. -/
def State.writeCompletion (h r : Nat) (s : State) (d : Desc) : State :=
  match d.st with
  | .done st info time =>
    if d.drop then s
    else
      let log2 := s.base.get (Reg.ringCtrl_LOG2 h r)
      let a := s.base.addr64 (Reg.cplBaseLo h r) (Reg.cplBaseHi h r) + d.n % 2 ^ log2 * 16
      s.onBase (fun b =>
        let b1 := b.emit (.hostWrite h a (completionBytes r log2 b.now d st info time))
        let b2 := if st / 16 = 1 then b1.count (Reg.cmdRejected_COUNT h) 1 else b1
        if st = stRESET || st = stROLLBACK then b2.count (Reg.cmdAborted_COUNT h) 1 else b2)
  | _ => s

/-- Writes the completions of a ring that may be written, unless they are held (R270) or the link sends nothing (R451); one message for the batch when any has IRQ (R254). -/
def State.drain (s : State) (h r : Nat) : State :=
  let x := s.ring h r
  if x.held || !s.base.canSend h then s
  else
    let p := splitDone (s.ctxOf h) [] x.flight
    let s1 := p.1.foldl (State.writeCompletion h r) (s.setRing h r { x with flight := p.2 })
    if p.1.any (fun d => d.flags % 2 == 1 && !d.drop) then s1.onBase (·.msix h (s.base.get (Reg.ringCtrl_VECTOR h r))) else s1

/-- Every ring of a host. -/
def State.drainHost (s : State) (h : Nat) : State := (List.range 16).foldl (fun x r => x.drain h r) s

/-- REJ_QUOTA also counts in QTA_REJ and names its resource in QTA_LAST (R119; codes 1 contexts to 5 memory). -/
def Base.quotaRefused (b : Base) (h res : Nat) : Base := (b.count (Reg.qtaRej_COUNT h) 1).put (Reg.qtaLast_RESOURCE h) res

/-- Marks a descriptor of a ring, by its id. -/
def State.mark (s : State) (h r id : Nat) (f : Desc → Desc) : State :=
  let x := s.ring h r
  s.setRing h r { x with flight := x.flight.map (fun d => if d.id = id then f d else d) }

/-- Marks a descriptor of a host, by its id, whatever its ring. -/
def State.markHost (s : State) (h id : Nat) (f : Desc → Desc) : State := (List.range 16).foldl (fun x r => x.mark h r id f) s

/-- A descriptor of a host that has completed. -/
def State.ended (s : State) (h status info : Nat) (time : Option Nat) (d : Desc) : Desc := { d with st := .done status info time, ctx := s.ctxOf h d }

/-- A descriptor of a host has completed. The step that completes it writes what may be written of the host's rings at its end, once, so that each ring sends one message (R254). -/
def State.finish (s : State) (h id status info : Nat) (time : Option Nat) : State := s.markHost h id (s.ended h status info time)

/-- Completes every uncompleted descriptor of a host that a predicate names (rollback and reset: no INFO). -/
def State.finishAll (s : State) (h status : Nat) (p : Desc → Bool) : State :=
  let hit (d : Desc) : Bool := (match d.st with | .done _ _ _ => false | _ => true) && p d
  (List.range 16).foldl (fun x r =>
    let g := x.ring h r
    x.setRing h r { g with flight := g.flight.map (fun d => if hit d then s.ended h status 0 none d else d) }) s

/-- Every descriptor in flight of a host. -/
def State.flights (s : State) (h : Nat) : List Desc := (List.range 16).flatMap (fun r => (s.ring h r).flight)

/-- The descriptor has not completed. -/
def Desc.pendingB (d : Desc) : Bool := match d.st with | .done _ _ _ => false | _ => true

/-! ## The front of a ring -/

/-- The first descriptor of a ring not processed yet. -/
def Ring.front (x : Ring) : Option Desc := x.flight.find? (fun d => d.st == .fetched)

/-- The command processor takes descriptors of a ring: RUN is 1 and nothing is held (R256, R270). -/
def State.takes (s : State) (h r : Nat) : Bool := s.base.flag (Reg.ringCtrl_RUN h r) && !(s.ring h r).held

/-- The next descriptor of a ring, if it has this opcode. -/
def State.next (s : State) (h r op : Nat) : Option Desc := if s.takes h r then ((s.ring h r).front).filter (fun d => d.op == op) else none

/-- A DECODE of the host that writes a layer, fetched earlier than a descriptor, has not completed: in any ring, processed or not (R256). -/
def State.decodesTo (s : State) (h layer id : Nat) : Bool :=
  s.codec.decodes.any (fun d => d.host == h && d.layer == layer && decide (d.id < id)) ||
    (s.flights h).any (fun d => d.op == 0x0A && d.pendingB && d.rec_ 0 2 == layer && decide (d.id < id))

/-- A running 2D operation of the host has the layer as its destination (R319). -/
def State.twdOn (s : State) (h layer : Nat) : Bool := ((s.twdOp h).map (fun o => o.dKind != 2 && o.dHand == layer)).getD false

/-- A running 2D operation of the host uses the upload (R319). -/
def State.twdUses (s : State) (h u : Nat) : Bool :=
  ((s.twdOp h).map (fun o => (o.dKind == 2 && o.dHand == u) || (o.sKind == 2 && o.sHand == u && o.op != 1))).getD false

/-- An earlier UPLOAD of the host into an upload has not completed (R256, R319). -/
def State.uploadsTo (s : State) (h u id : Nat) : Bool :=
  (s.flights h).any (fun d => d.op == 9 && d.pendingB && decide (d.id < id) && d.rec_ 0 4 == u)

/-- Layers that a context owns in a view. -/
def Scene.layersOf (sc : Scene) (ckey : Nat) : List Nat :=
  sc.layers.filterMap (fun e => match e.2 with | some l => if l.ctx = ckey then some e.1 else none | none => none)

/-- Regions that a context owns in a view. -/
def Scene.regionsOf (sc : Scene) (ckey : Nat) : List Nat :=
  sc.regions.filterMap (fun e => match e.2 with | some g => if g.ctx = ckey then some e.1 else none | none => none)

/-- A descriptor waits (R151, R256, R319). -/
def State.waits (s : State) (h r : Nat) (d : Desc) : Bool :=
  let obj := d.rec_ 0 2
  match d.op with
  | 0x05 => ((s.view h d.txn).layersOf (objKey h obj)).any (fun k => s.decodesTo h (k % 65536) d.id || s.twdOn h (k % 65536))
  | 0x07 => s.decodesTo h obj d.id || s.twdOn h obj
  | 0x08 => s.decodesTo h obj d.id || s.twdOn h obj
  | 0x0B => s.decodesTo h obj d.id || s.twdOn h obj
  | 0x09 => s.codec.decodes.any (fun x => x.host == h && x.upload == d.rec_ 0 4 && (s.keptUpload x.id).isNone) || s.twdUses h (d.rec_ 0 4)
  | 0x0E => (List.range 16).any (fun q => (q == r || obj.testBit q) && (s.ring h q).flight.any (fun e => e.pendingB && decide (e.id < d.id)))
  | _ => false

/-! ## Descriptors that fail their own checks (R250) -/

/-- The detail of DESC_FORMAT (Table 9.9): ring, n, descriptor bytes 0 to 7. -/
def Desc.formatDetail (d : Desc) (r : Nat) : List Byte := leBytes 1 r ++ [0, 0, 0] ++ leBytes 4 d.n ++ d.bytes.take 8

/-- Completes malformed descriptors at the front of a ring with REJ_FORMAT and a violation; the ring continues. -/
def State.rejectMalformed (h r : Nat) : Nat → State → State
  | 0, s => s
  | n + 1, s =>
    match if s.takes h r then (s.ring h r).front else none with
    | none => s
    | some d =>
      if d.malformed then
        State.rejectMalformed h r n
          ((s.mark h r d.id (s.ended h stFORMAT 0 none)).onBase (fun b => b.violation h (pgCMD h) vDESC (d.formatDetail r)))
      else s

/-- After a change in a ring: malformed fronts complete, completions that may be written are written, and the host's unit states follow. -/
def State.settleRing (s : State) (h r : Nat) : State :=
  ((s.rejectMalformed h r ((s.ring h r).flight.length + 1)).drainHost h).refreshHost h

/-! ## Doorbells and fetches -/

/-- Descriptors published and not fetched of one ring. -/
def State.backlogOf (s : State) (h r : Nat) : Nat :=
  sub32 (s.base.get (Reg.ringTail_TAIL h r)) (s.base.get (Reg.ringHead_HEAD h r))

/-- CMD_BACKLOG. -/
def State.backlog (s : State) (h : Nat) : Nat := ((List.range 16).map (s.backlogOf h)).foldl (· + ·) 0

/-- A doorbell's stamp: at most 16 per ring; a further one folds into the newest, which keeps its older time (R227). -/
def addStamp (l : List (Nat × Nat)) (tail t : Nat) : List (Nat × Nat) :=
  if l.length < 16 then l ++ [(tail, t)]
  else l.dropLast ++ [(tail, (l.getLast?.map (·.2)).getD t)]

/-- The stamp of descriptor n: the first doorbell that made it visible. -/
def stampFor (l : List (Nat × Nat)) (n dflt : Nat) : Nat := ((l.find? (fun e => before32 n e.1)).map (·.2)).getD dflt

/-- A doorbell write that the rights of the register allow (R246). -/
def State.doorbell (s : State) (h r : Nat) (a : RegWr) (new : Nat) : State :=
  let old := s.base.get (Reg.ringTail_TAIL h r)
  let room := 2 ^ s.base.get (Reg.ringCtrl_LOG2 h r) - s.backlogOf h r
  if new = old then s
  else if sub32 new old ≤ room then
    let x := s.ring h r
    (s.onBase (·.put (Reg.ringTail_TAIL h r) new)).setRing h r { x with stamps := addStamp x.stamps new s.freshTicks }
  else
    s.onBase (fun b => b.violation h (pgCMD h) vDOORBELL
      (leBytes 1 r ++ [0, 0, 0] ++ leBytes 4 (mergeBytes old a.val.toNat a.be) ++ leBytes 4 (b.get (Reg.ringHead_HEAD h r))))

/-- A ring can be fetched from (R267): running, not halted, not held by a waiting descriptor, with published descriptors. -/
def State.ringFetchable (s : State) (h r : Nat) : Bool :=
  s.takes h r && !s.base.flag (Reg.ringCtrl_HALTED h r) && decide (0 < s.backlogOf h r) &&
    !(((s.ring h r).front).any (fun d => d.admitted || s.waits h r d))

/-- A host is fetchable (R267): its command processor is enabled and in service, its link carries requests, and a slot is free. -/
def State.fetchable (s : State) (h : Nat) : Bool :=
  decide (h < s.base.nhosts) && s.base.enabled (pgCMD h) && s.base.canSend h && s.hasRoom 4 h 1 &&
    (List.range 16).any (s.ringFetchable h)

def State.credit (s : State) (h : Nat) : Int := sget (fun _ => (0 : Int)) s.rings.credit h
def State.setCredit (s : State) (h : Nat) (c : Int) : State := { s with rings := { s.rings with credit := sput (fun _ => (0 : Int)) s.rings.credit h c } }

/-- Rounds of R266 until some fetchable host has positive credit: every fetchable host gains its weight in each round, every other host loses its credit. -/
def State.creditRounds (s : State) : State :=
  let hs := (List.range 4).filter s.fetchable
  if hs.any (fun h => decide (0 < s.credit h)) then s
  else
    let need (h : Nat) : Nat := ((1 - s.credit h).toNat + s.base.get (Reg.cmdWeight_WEIGHT h) - 1) / max 1 (s.base.get (Reg.cmdWeight_WEIGHT h))
    let m := (hs.map need).foldl min (2 ^ 20)
    (List.range 4).foldl (fun x h =>
      x.setCredit h (if hs.contains h then s.credit h + (m * s.base.get (Reg.cmdWeight_WEIGHT h) : Nat) else 0)) s

/-- The 64-byte descriptors of a fetch. -/
def chunks64 : Nat → List Byte → List (List Byte)
  | 0, _ => []
  | k + 1, bs => bs.take 64 :: chunks64 k (bs.drop 64)

/-- A fetch of `k` descriptors enters the ring. -/
def State.enqueue (s : State) (h r : Nat) (bs : List Byte) (k : Nat) : State :=
  let x := s.ring h r
  let head := s.base.get (Reg.ringHead_HEAD h r)
  let ds := ((chunks64 k bs).zip (List.range k)).map (fun p =>
    let n := (head + p.2) % 2 ^ 32
    (⟨n, s.rings.nextId + p.2, p.1, stampFor x.stamps n s.freshTicks, .fetched, none, false, false⟩ : Desc))
  let head' := (head + k) % 2 ^ 32
  let s1 := s.setRing h r { x with flight := x.flight ++ ds, stamps := x.stamps.filter (fun e => before32 head' e.1) }
  let s2 : State := { s1 with rings := { s1.rings with nextId := s1.rings.nextId + k } }
  (s2.onBase (fun b => (b.put (Reg.ringHead_HEAD h r) head').count (Reg.cmdFetched_COUNT h) k)).setCredit h (s.credit h - (k : Nat))

end Sys2Proof.Machine
end

