-- ==== Sys2Proof/Machine/Txn.lean ====
section
/-! DEFINITION. Transactions (chapter 9): the scene commands' checks and effects (chapters 4, 5, 8), closing, sealing, scheduling and rollback. -/

namespace Sys2Proof.Machine

/-! ## Answers -/

/-- Completes the descriptor that is being processed; one completed with REJ_FORMAT is recorded as DESC_FORMAT (R250). -/
def State.answer (s : State) (h r : Nat) (d : Desc) (ctx : Option Nat) (st info : Nat) : State :=
  (s.mark h r d.id (fun e => { e with st := .done st info none, ctx := ctx })).onBase (fun b =>
    if st = stFORMAT then b.violation h (pgCMD h) vDESC (d.formatDetail r) else b)

/-- Completes it with REJ_QUOTA for a resource code of QTA_LAST. -/
def State.answerQuota (s : State) (h r : Nat) (d : Desc) (ctx : Option Nat) (res : Nat) : State :=
  (s.answer h r d ctx stQUOTA res).onBase (·.quotaRefused h res)

/-- The descriptor is accepted and completes later. -/
def State.acceptDesc (s : State) (h r : Nat) (d : Desc) (ctx : Option Nat) : State :=
  s.mark h r d.id (fun e => { e with st := .accepted, ctx := ctx })

/-- Changes a transaction that exists. -/
def State.modTxn (s : State) (h t : Nat) (f : Txn → Txn) : State :=
  match s.txn h t with
  | some x => s.setTxn h t (some (f x))
  | none => s

/-- Sets the command-accepted mark of a transaction. -/
def State.accepted (s : State) (h t : Nat) : State := s.modTxn h t (fun x => { x with accepted := true })

/-- The descriptor waits for granules, admitted (R279): it counts as a command of its transaction, and its holds stand, from then on. -/
def State.waitMem (s : State) (h r : Nat) (d : Desc) (hold : Txn → Txn) : State :=
  (s.modTxn h d.txn (fun x => { hold x with accepted := true })).mark h r d.id (fun e => { e with admitted := true })

/-! ## The TXN check (R250, R261) -/

/-- A TX_COMMIT or SCHED_COMMIT of a transaction, fetched before an id, waits to be processed. -/
def State.commitFetched (s : State) (h t id : Nat) : Bool :=
  (s.flights h).any (fun e => e.st == .fetched && (e.op == 2 || e.op == 0x10) && !e.malformed && e.txn == t && decide (e.id < id))

/-- The command's TXN names a transaction that it may still join: OPEN, or CLOSING through a commit fetched after it. -/
def State.joins (s : State) (h : Nat) (d : Desc) : Bool :=
  match s.txn h d.txn with
  | none => false
  | some x => decide (d.txn < 256) && (match x.commit with | none => true | some c => decide (d.id < c)) && !s.commitFetched h d.txn d.id

/-- The object is held or staged elsewhere. -/
def State.held (s : State) (h : Nat) (d : Desc) (k : ObjKind) (key : Nat) : Bool := s.foreign h d.txn k key

/-! ## 2D operation ends (R321) -/

/-- Ends a host's 2D operation with a status: TWD_DONE, tag, time, counters, event DONE, leave released. -/
def State.twdEnd (s : State) (h status op tag : Nat) : State :=
  let s1 := (s.setTwd h none).release (ridTwd h) 0
  s1.onBase (fun b =>
    let b1 := ((b.put (Reg.twdDone_OP h) op).put (Reg.twdDone_STATUS h) status).setWord (Reg.twdDoneTag h) (BitVec.ofNat 32 tag)
    let b2 := (b1.setWord (Reg.twdDoneTime h) (BitVec.ofNat 32 b.now)).count (Reg.twdOps_COUNT h) 1
    (if status = stNOOP then b2.count (Reg.twdNoop_COUNT h) 1 else b2).raise (pgTWD h) 16)

/-- Stops a running operation of a host. -/
def State.twdStop (s : State) (h status : Nat) : State :=
  match s.twdOp h with
  | some o => s.twdEnd h status o.op o.tag
  | none => s

/-! ## Rollback (R155, R263, R322) -/

/-- An engine becomes idle, keeping its grant for the time of R153. -/
def Engine.free (now : Nat) (_ : Engine) : Engine := ⟨none, some now⟩

def State.engine (s : State) (e : Nat) : Engine := sget (fun _ => ⟨none, none⟩) s.codec.engines e
def State.setEngine (s : State) (e : Nat) (x : Engine) : State :=
  { s with codec := { s.codec with engines := sput (fun _ => ⟨none, none⟩) s.codec.engines e x } }

/-- An engine page's state follows its job; without one, a disabled engine reads OFF (R39, R157). -/
abbrev pgENG (e : Nat) : Nat := 0x031 + e
def State.refreshEngine (s : State) (e : Nat) : State :=
  s.onBase (fun b =>
    if b.ownState (pgENG e) = uREADY ∨ b.ownState (pgENG e) = uBUSY then
      b.setOwn (pgENG e) (if (s.engine e).job.isSome then uBUSY else if b.enabled (pgENG e) then uREADY else uOFF)
    else b)

/-- Drops DECODEs and their jobs, waiting and running. -/
def State.dropDecodes (s : State) (p : Decode → Bool) : State :=
  let gone := (s.codec.decodes.filter p).map (·.id)
  let s1 : State := { s with codec := { s.codec with
    decodes := s.codec.decodes.filter (fun d => !p d)
    waiting := s.codec.waiting.filter (fun j => !gone.contains j.dec)
    kept := gone.foldl (fun m i => sput (fun _ => none) m i none) s.codec.kept
    shun := s.codec.shun.filter (fun p => !gone.contains p.1.dec) } }
  (List.range 16).foldl (fun x e =>
    match (x.engine e).job with
    | some j => if gone.contains j.dec then (x.setEngine e ((x.engine e).free x.base.ticks)).refreshEngine e else x
    | none => x) s1

/-- The DECODEs that read an upload keep it (R147). -/
def State.keepUpload (s : State) (h hand : Nat) (u : Upload) : State :=
  let ids := (s.codec.decodes.filter (fun d => d.host == h && d.upload == hand && (s.keptUpload d.id).isNone)).map (·.id)
  { s with codec := { s.codec with kept := ids.foldl (fun m i => sput (fun _ => none) m i (some u)) s.codec.kept } }

/-- Releases the uploads that a transaction created: granules and quota (R252). -/
def State.releaseUploads (s : State) (h t : Nat) : State :=
  let us := s.dome.uploads.filterMap (fun e => if e.1 / 65536 = h then e.2.bind (fun u => if u.txn = t then some (e.1, u) else none) else none)
  us.foldl (fun (x : State) u =>
    (((x.keepUpload h (u.1 % 65536) u.2).setUpl h (u.1 % 65536) none).onBase (·.giveUse h 5 u.2.grans.length)).releaseGrans u.2.grans) s

/-- Rolls a transaction back: staged pages, objects, ages and uploads are released, its decodes are dropped, and the unit tells it (event ROLLBACK). -/
def State.rollback (s : State) (h t : Nat) : State :=
  match s.txn h t with
  | none => s
  | some x =>
    let s1 := (s.dropDecodes (fun d => d.host == h && d.txn == t)).releaseUploads h t
    let s2 : State := { s1.setTxn h t none with dome := s1.dome.freeMany x.grans }
    s2.onBase (fun b =>
      (((((b.giveUse h 5 x.grans.length).giveUse h 0 x.newCtx).giveUse h 1 x.newLayer).giveUse h 2 x.newReg).giveUse h 3 1).raise (pgTXN h) 17)

/-- The descriptor is the commit of a transaction that has sealed: its handle is free again, and it waits for its cut (R260, R262). -/
def State.sealedCommit (s : State) (h : Nat) (d : Desc) : Bool := s.scenes.sealed.any (fun z => z.host == h && z.commit == d.id)

/-- The descriptor is a command of the OPEN or CLOSING transaction with handle t: fetched before an id, or taken into the transaction already. -/
def State.belongs (s : State) (h t upto : Nat) (d : Desc) : Bool :=
  d.txn == t && (decide (d.id < upto) || d.st == .accepted || d.admitted) && d.op != 1 && !s.sealedCommit h d

/-- Ends a transaction as TX_ABORT does: its uncompleted commands complete with ABORT_ROLLBACK, its 2D operation stops (with a status of its own), it rolls back, and TXN_ROLLBACK counts it (R263, R274). -/
def State.abortTxn (s : State) (h t upto twdStatus : Nat) : State :=
  let s1 := s.finishAll h stROLLBACK (s.belongs h t upto)
  let s2 := match s1.twdOp h with
    | some o => if o.txn = t then s1.twdEnd h twdStatus o.op o.tag else s1
    | none => s1
  (if (s.txn h t).isSome then s2.onBase (·.count (Reg.txnRollback_COUNT h) 1) else s2).rollback h t

/-! ## Sealing (R205, R261, R264, R283) -/

/-- Every command of the transaction fetched before its commit has completed, no 2D operation of it runs, and every granule of a layer that it leaves visible is resident. -/
def State.sealReady (s : State) (h t : Nat) (x : Txn) : Bool :=
  x.closing &&
    !(s.flights h).any (fun d => d.txn == t && d.pendingB && decide (d.id < x.commit.getD 0) && !s.sealedCommit h d) &&
    !((s.twdOp h).map (fun o => o.txn == t)).getD false &&
    x.ops.all (fun o => match o with
      | .layer _ (some l) => !l.visible || l.all.all (fun g => !isSpillId g)
      | _ => true)

/-- Inserts a sealed transaction at its sequencer position: scheduled seals at T come before TX_COMMIT seals stamped T or later, and before later-processed scheduled seals of the same T (R264). -/
def insertSealed (t : Sealed) : List Sealed → List Sealed
  | [] => [t]
  | u :: r =>
    if t.kind = 0 && decide (t.sealE < u.sealE || (t.sealE = u.sealE && (u.kind = 1 || t.order < u.order)))
    then t :: u :: r else u :: insertSealed t r

/-- Seals a transaction with a stamp; its handle and unit are free again, its uploads are released and its holds end. -/
def State.sealTxn (s : State) (h t : Nat) (x : Txn) (stampE kind : Nat) (late : Option Nat) : State :=
  let z : Sealed := ⟨h, t, x.ops, x.ages, x.grans, stampE % 2 ^ 32, stampE, kind, if kind = 0 then x.pord else s.scenes.orders, false, late, x.commit.getD 0⟩
  let s1 := (s.releaseUploads h t).setTxn h t none
  let s2 : State := { s1 with scenes := { s1.scenes with sealed := insertSealed z s1.scenes.sealed, orders := s1.scenes.orders + 1 } }
  (s2.onBase (fun b => (b.giveUse h 3 1).put (Reg.txnLastSeal_STAMP h) (stampE % 2 ^ 32))).refreshHost h

/-- Judges a scheduled transaction at its processing point (R205): future gives the instant of its seal, past a seal at once. -/
def State.judgeTxn (h : Nat) (s : State) (p : Nat × Txn) : State :=
  match p.2.sched with
  | none => s
  | some (target, _) =>
    if p.2.due.isSome || p.2.past || !s.sealReady h p.1 p.2 then s
    else
      let x := if future32 target s.base.now then { p.2 with due := some (extend32 target s.base.E), pord := s.scenes.orders } else { p.2 with past := true }
      let s1 := s.setTxn h p.1 (some x)
      { s1 with scenes := { s1.scenes with orders := s1.scenes.orders + 1 } }

/-- Judges the scheduled transactions of a host. -/
def State.judge (s : State) (h : Nat) : State := (s.openTxns h).foldl (State.judgeTxn h) s

/-- SEAL: a TX_COMMIT seals with the present time; a scheduled transaction found past seals at once as LATE or, with SCHED_STRICT, rolls back with REJ_STATE. A host has at most 256 sealed transactions waiting (R261). -/
def State.sealRow (s : State) (h t : Nat) : State :=
  match s.txn h t with
  | none => s
  | some x =>
    if !s.sealReady h t x || decide (256 ≤ s.waiting h) then s
    else match x.sched with
      | none => s.sealTxn h t x s.base.E 1 none
      | some (target, strict) =>
        if !x.past then s
        else if strict then (((s.rollback h t).finish h (x.commit.getD 0) stSTATE 0 none).drainHost h).refreshHost h
        else s.sealTxn h t x s.base.E 1 (some (sub32 s.base.now target))

/-- SCHED_SEAL: a scheduled transaction seals when Sextant time reaches its TARGET; held back by the limit of 256, it is judged as past when it proceeds. -/
def State.schedSealRow (s : State) (h t : Nat) : State :=
  match s.txn h t with
  | none => s
  | some x =>
    match x.due with
    | none => s
    | some due =>
      if s.base.E < due || !s.sealReady h t x then s
      else if 256 ≤ s.waiting h then s.setTxn h t (some { x with due := none, past := true })
      else s.sealTxn h t x due 0 none

/-! ## A command of a ring -/

/-- Runs the next descriptor of a ring when it has the opcode and its waits are over. -/
def State.ringRow (s : State) (h r op : Nat) (f : Desc → State → State) : State :=
  match s.next h r op with
  | none => s
  | some d => if s.waits h r d then s else ((f d s).settleRing h r).judge h

/-! ### Transactions (R260 to R263) -/

/-- A new transaction. -/
def Txn.fresh : Txn := ⟨false, false, [], [], [], [], 0, 0, 0, none, none, none, false, 0, []⟩

def State.runTxBegin (h r : Nat) (d : Desc) (s : State) : State :=
  match firstStatus [(decide (255 < d.txn), stRANGE), ((s.txn h d.txn).isSome, stSTATE), (!s.hasRoom 3 h 1, stQUOTA)] with
  | some st => if st = stQUOTA then s.answerQuota h r d none 4 else s.answer h r d none st 0
  | none => ((s.setTxn h d.txn (some Txn.fresh)).onBase (·.takeUse h 3 1)).answer h r d none stOK 0

/-- Closes a transaction, or completes it at once with NOOP_ZERO when nothing was accepted into it (R262). -/
def State.runCommit (h r : Nat) (sched : Option (Nat × Bool)) (d : Desc) (s : State) : State :=
  match s.txn h d.txn with
  | none => s.answer h r d none stTXN 0
  | some x =>
    if !s.joins h d || x.closing then s.answer h r d none stTXN 0
    else if !x.accepted then ((s.setTxn h d.txn none).onBase (·.giveUse h 3 1)).answer h r d none stNOOP 0
    else (s.setTxn h d.txn (some { x with closing := true, commit := some d.id, sched := sched })).acceptDesc h r d none

def State.runTxAbort (h r : Nat) (d : Desc) (s : State) : State :=
  if d.txn < 256 && (s.txn h d.txn).isSome then (s.abortTxn h d.txn d.id stROLLBACK).answer h r d none stOK 0
  else s.answer h r d none stTXN 0

/-! ### Contexts (R93 to R98, R112, R226, R228) -/

/-- Adds a staged age; of several for one context the largest applies (R228). -/
def addAge (l : List StagedAge) (a : StagedAge) : List StagedAge :=
  if l.any (fun x => x.key == a.key && x.oid == a.oid) then
    l.map (fun x => if x.key = a.key && x.oid = a.oid then { x with age := max x.age a.age } else x)
  else l ++ [a]

/-- A staged age at processing: declared age plus the ticks since the doorbell stamp, saturating at 24 bits (R222, R228). -/
def State.chargedAge (s : State) (d : Desc) (age : Nat) : Nat := min 0xFFFFFF (age + sub32 s.freshTicks d.stamp)

/-- A critical watch region of a context, live or staged (R96). -/
def State.criticalOn (s : State) (h t key oid : Nat) : Bool :=
  (s.view h t).regions.any (fun e => (e.2.map (fun g => g.critical && g.ctx == key)).getD false)
    || ((s.scenes.live.ctx key).map (·.oid) == some oid &&
        s.scenes.live.regions.any (fun e => (e.2.map (fun g => g.critical && g.ctx == key)).getD false))

/-- A fresh object identity. -/
def State.nextOid (s : State) : State := { s with scenes := { s.scenes with oids := s.scenes.oids + 1 } }

def State.runCtxOpen (h r : Nat) (d : Desc) (s : State) : State :=
  let c := d.rec_ 0 2
  let key := objKey h c
  let flags := d.rec_ 2 1
  let upd := flags.testBit 0
  let shared := flags.testBit 1
  let veil := d.rec_ 3 1
  let bound := d.rec_ 4 2
  let age := d.rec_ 8 3
  let cur := (s.view h d.txn).ctx key
  match firstStatus [
      (!s.joins h d || (upd && s.held h d .ctx key), stTXN),
      (decide (3 < flags) || decide (2 < veil) || d.rec_ 6 2 != 0 || d.rec_ 11 1 != 0 || d.rec_ 12 4 != 0, stFORMAT),
      (shared && h != s.base.owner, stOWNER),
      (decide (40959 < c) || (upd && bound == 0 && (cur.map (fun x => s.criticalOn h d.txn key x.oid)).getD false), stRANGE),
      (if upd then cur.isNone else cur.isSome || s.held h d .ctx key, stSTATE),
      (!upd && !s.hasRoom 0 h 1, stQUOTA)] with
  | some st => if st = stQUOTA then s.answerQuota h r d (some key) 1 else s.answer h r d (some key) st 0
  | none =>
    let s1 := match cur, upd with
      | some x, true =>
        s.modTxn h d.txn (fun t =>
          let t1 := t.add (.ctx key (some { x with veil := veil, bound := bound, shared := shared }))
          { (if (s.sealedScene.ctx key).map Ctx.oid = some x.oid then t1.hold .ctx key else t1) with accepted := true })
      | _, _ =>
        let oid := s.scenes.oids
        ((s.modTxn h d.txn (fun t => { t.add (.ctx key (some ⟨oid, veil, bound, shared, age⟩)) with
            accepted := true, newCtx := t.newCtx + 1, ages := addAge t.ages ⟨key, oid, s.chargedAge d age⟩ })).nextOid).onBase (·.takeUse h 0 1)
    s1.answer h r d (some key) stOK 0

/-- Removes an object in a transaction: one in the sealed scene leaves at the cut, a STAGED one leaves nothing behind (R108, R109). -/
def Txn.remove (x : Txn) (isSealed : Bool) (o : SceneOp) : Txn := if isSealed then x.add o else { x with ops := x.ops.filter (fun y => !y.same o) }

/-- Removes a layer in a transaction: a STAGED one gives its units back at once, and staged copies of a LIVE one are released at once. -/
def State.dropLayer (h t : Nat) (s : State) (key : Nat) : State :=
  match s.txn h t, (s.view h t).layer key with
  | some x, some l =>
    let staged := (s.sealedScene.layer key).map (·.oid) != some l.oid
    let mine := l.all.filter x.grans.contains
    let x1 : Txn := { x.remove (s.sealedScene.layer key).isSome (.layer key none) with grans := x.grans.filter (fun g => !mine.contains g) }
    let x2 : Txn := if staged then { x1 with newLayer := x1.newLayer - 1 } else x1.hold .layer key
    ((s.setTxn h t (some x2)).releaseGrans mine).onBase (fun b => let b1 := b.giveUse h 5 mine.length; if staged then b1.giveUse h 1 1 else b1)
  | _, _ => s

/-- Removes a region in a transaction. -/
def State.dropRegion (h t : Nat) (s : State) (key : Nat) : State :=
  match s.txn h t, (s.view h t).region key with
  | some x, some g =>
    let staged := (s.sealedScene.region key).map (·.oid) != some g.oid
    let x1 := x.remove (s.sealedScene.region key).isSome (.region key none)
    let x2 : Txn := if staged then { x1 with newReg := x1.newReg - 1 } else x1.hold .region key
    (s.setTxn h t (some x2)).onBase (fun b => if staged then b.giveUse h 2 1 else b)
  | _, _ => s

/-- Removes a context in a transaction, with its layers and regions (R98). -/
def State.dropCtx (h t : Nat) (s : State) (key : Nat) : State :=
  let v := s.view h t
  let s1 := (v.layersOf key).foldl (State.dropLayer h t) s
  let s2 := (v.regionsOf key).foldl (State.dropRegion h t) s1
  match s2.txn h t, (s2.view h t).ctx key with
  | some x, some c =>
    let staged := (s2.sealedScene.ctx key).map (·.oid) != some c.oid
    let x1 := x.remove (s2.sealedScene.ctx key).isSome (.ctx key none)
    let x2 : Txn := if staged then { x1 with newCtx := x1.newCtx - 1 } else x1.hold .ctx key
    (s2.setTxn h t (some x2)).onBase (fun b => if staged then b.giveUse h 0 1 else b)
  | _, _ => s2

def State.runCtxClose (h r : Nat) (d : Desc) (s : State) : State :=
  let c := d.rec_ 0 2
  let key := objKey h c
  let v := s.view h d.txn
  match firstStatus [
      (!s.joins h d || s.held h d .ctx key || (v.layersOf key).any (s.held h d .layer) || (v.regionsOf key).any (s.held h d .region), stTXN),
      (decide (40959 < c), stRANGE),
      ((v.ctx key).isNone, stSTATE)] with
  | some st => s.answer h r d (some key) st 0
  | none => ((s.dropCtx h d.txn key).accepted h d.txn).answer h r d (some key) stOK 0

def State.runMarkFresh (h r : Nat) (d : Desc) (s : State) : State :=
  let c := d.rec_ 0 2
  let key := objKey h c
  let cur := (s.view h d.txn).ctx key
  match firstStatus [
      (!s.joins h d || s.held h d .ctx key, stTXN),
      (d.rec_ 2 2 != 0 || d.rec_ 7 1 != 0 || d.rec_ 8 8 != 0, stFORMAT),
      (decide (40959 < c), stRANGE),
      (cur.isNone, stSTATE)] with
  | some st => s.answer h r d (some key) st 0
  | none =>
    (s.modTxn h d.txn (fun t =>
      let t1 := if (s.sealedScene.ctx key).isSome then t.hold .ctx key else t
      { t1 with accepted := true, ages := addAge t1.ages ⟨key, (cur.map (·.oid)).getD 0, s.chargedAge d (d.rec_ 4 3)⟩ })).answer h r d (some key) stOK 0

/-! ### Layers (R99 to R106) -/

/-- The layer that a LAYER_CREATE record describes, without granules. -/
def Desc.layer (d : Desc) (h oid : Nat) : Layer :=
  ⟨oid, objKey h (d.rec_ 2 2), d.rec_ 4 1, d.rec_ 5 1, (d.rec_ 6 1).testBit 0, (d.rec_ 6 1).testBit 1, d.rec_ 7 1, d.rec_ 8 2, d.rec_ 10 2,
    d.rec_ 12 2, d.rec_ 14 2, d.rec_ 16 2, d.rec_ 18 2, d.rec_ 20 4, d.rec_ 24 4, [], []⟩

/-- The combinations that R102 refuses. -/
def Layer.badForm (l : Layer) : Bool :=
  decide (2 < l.kind) || decide (3 < l.format) || (l.kind == 1 && decide (1 < l.format)) || (l.pin && l.kind != 2) ||
    (l.pin && l.depth != 0) || (l.kind == 1 && l.depth != 0)

/-- LAYER_CREATE. A command that waits for granules has passed R119; its other checks are made again when it proceeds, and its units are taken only then, so that two waiting commands may be admitted against the same room (DESIGN CHOICE, log 12: R279 does not say when they are taken). When both the layer quota and the memory quota refuse, QTA_LAST names the layers (DESIGN CHOICE, log 12: R123 gives no order). -/
def State.runLayerCreate (h r : Nat) (d : Desc) (s : State) : State :=
  let hand := d.rec_ 0 2
  let key := objKey h hand
  let l := d.layer h s.scenes.oids
  let v := s.view h d.txn
  let ctx := some l.ctx
  let nc := l.planeGrans 0
  let nz := l.planeGrans 1
  let hold (t : Txn) : Txn := if (s.sealedScene.ctx l.ctx).isSome then t.hold .ctx l.ctx else t
  match firstStatus [
      (l.width == 0 || l.height == 0, stNOOP),
      (!s.joins h d || s.held h d .ctx l.ctx, stTXN),
      (decide (3 < d.rec_ 6 1) || d.rec_ 28 4 != 0 || l.badForm, stFORMAT),
      (decide (49151 < hand) || decide (40959 < d.rec_ 2 2) || decide (16384 < l.width) || decide (16384 < l.height), stRANGE),
      ((v.layer key).isSome || s.held h d .layer key || (v.ctx l.ctx).isNone, stSTATE),
      (!d.admitted && (!s.hasRoom 1 h 1 || !s.hasRoom 5 h (nc + nz)), stQUOTA)] with
  | some st => if st = stQUOTA then s.answerQuota h r d ctx (if s.hasRoom 1 h 1 then 5 else 2) else s.answer h r d ctx st 0
  | none =>
    match s.allocState (nc + nz) with
    | 1 => s.waitMem h r d hold
    | 2 => (s.answer h r d ctx stMEMORY 0).memShort h (nc + nz)
    | _ =>
      let a := Dome.takeMany h 0 hand nc 0 s.dome
      let z := Dome.takeMany h 1 hand nz 0 a.2
      let s1 := ({ s with dome := z.2 } : State).modTxn h d.txn (fun t =>
        let t2 := hold (t.add (.layer key (some { l with gc := a.1, gz := z.1 })))
        { t2 with accepted := true, newLayer := t2.newLayer + 1, grans := a.1 ++ z.1 ++ t2.grans })
      ((s1.nextOid).onBase (fun b => (b.takeUse h 1 1).takeUse h 5 (nc + nz))).answer h r d ctx stOK 0

/-- The context of a layer command (R257). -/
def State.layerCtx (s : State) (h : Nat) (d : Desc) : Option Nat := ((s.view h d.txn).layer (objKey h (d.rec_ 0 2))).map (·.ctx)

def State.runLayerDestroy (h r : Nat) (d : Desc) (s : State) : State :=
  let hand := d.rec_ 0 2
  let key := objKey h hand
  let ctx := s.layerCtx h d
  match firstStatus [
      (!s.joins h d || s.held h d .layer key, stTXN),
      (decide (49151 < hand), stRANGE),
      (((s.view h d.txn).layer key).isNone, stSTATE)] with
  | some st => s.answer h r d ctx st 0
  | none => ((s.dropLayer h d.txn key).accepted h d.txn).answer h r d ctx stOK 0

/-- LAYER_SET and LAYER_MOVE: the record's checks (R92, R103), then the fields marked SET or MOVE. -/
def State.runLayerChange (h r : Nat) (f : Desc → Layer → Layer) (d : Desc) (s : State) : State :=
  let hand := d.rec_ 0 2
  let key := objKey h hand
  let cur := (s.view h d.txn).layer key
  let ctx := s.layerCtx h d
  match firstStatus [
      (!s.joins h d || s.held h d .layer key, stTXN),
      (decide (3 < d.rec_ 6 1) || d.rec_ 28 4 != 0, stFORMAT),
      (decide (49151 < hand), stRANGE),
      ((cur.map (fun l => d.rec_ 16 2 != 0 && (l.pin || l.kind == 1))).getD true, stSTATE)] with
  | some st => s.answer h r d ctx st 0
  | none =>
    (s.modTxn h d.txn (fun t =>
      let t1 := match cur with | some l => t.add (.layer key (some (f d l))) | none => t
      let t2 := if (s.sealedScene.layer key).isSome then t1.hold .layer key else t1
      { t2 with accepted := true })).answer h r d ctx stOK 0

/-- The SET fields of Table 4.2. -/
def setFields (d : Desc) (l : Layer) : Layer :=
  { l with visible := (d.rec_ 6 1).testBit 0, opacity := d.rec_ 7 1, x := d.rec_ 8 2, y := d.rec_ 10 2, depth := d.rec_ 16 2,
           stack := d.rec_ 18 2, fg := d.rec_ 20 4, bg := d.rec_ 24 4 }

/-- The MOVE fields of Table 4.2. -/
def moveFields (d : Desc) (l : Layer) : Layer := { l with x := d.rec_ 8 2, y := d.rec_ 10 2, depth := d.rec_ 16 2 }

/-! ### Watch regions (R114, R115) -/

/-- The host whose layer a LAYER field names: the issuing host's own, else one of a SHARED context of the owner host. -/
def State.regionLayer (s : State) (h t l : Nat) : Option Nat :=
  if ((s.view h t).layer (objKey h l)).isSome then some h
  else
    let o := s.base.owner
    if ((s.sealedScene.layer (objKey o l)).bind (fun x => s.sealedScene.ctx x.ctx)).map (·.shared) = some true then some o else none

/-- BOUND of a context, in force or staged, is 0 (R115). -/
def State.boundZero (s : State) (h t key : Nat) : Bool :=
  match (s.view h t).ctx key with
  | none => false
  | some c => c.bound == 0 || ((s.scenes.live.ctx key).map (fun x => x.oid == c.oid && x.bound == 0)).getD false

def State.runRegionSet (h r : Nat) (d : Desc) (s : State) : State :=
  let hand := d.rec_ 0 2
  let key := objKey h hand
  let cke := objKey h (d.rec_ 2 2)
  let lay := d.rec_ 4 2
  let crit := (d.rec_ 6 1).testBit 0
  let v := s.view h d.txn
  let cur := v.region key
  let lh := if lay = 0xFFFF then some h else s.regionLayer h d.txn lay
  match firstStatus [
      (d.rec_ 12 2 == 0 || d.rec_ 14 2 == 0, stNOOP),
      (!s.joins h d || s.held h d .region key || s.held h d .ctx cke, stTXN),
      (decide (1 < d.rec_ 6 1) || d.rec_ 7 1 != 0, stFORMAT),
      (decide (4095 < hand) || decide (40959 < d.rec_ 2 2) || (decide (49151 < lay) && lay != 0xFFFF) ||
        decide (s.base.get Reg.cmpSize_WIDTH ≤ d.rec_ 8 2) || decide (s.base.get Reg.cmpSize_HEIGHT ≤ d.rec_ 10 2) ||
        (crit && s.boundZero h d.txn cke), stRANGE),
      ((v.ctx cke).isNone || lh.isNone, stSTATE),
      (cur.isNone && !s.hasRoom 2 h 1, stQUOTA)] with
  | some st => if st = stQUOTA then s.answerQuota h r d (some cke) 3 else s.answer h r d (some cke) st 0
  | none =>
    let oid := (cur.map (·.oid)).getD s.scenes.oids
    let g : Region := ⟨oid, cke, lay, lh.getD h, crit, d.rec_ 8 2, d.rec_ 10 2, d.rec_ 12 2, d.rec_ 14 2⟩
    let s1 := s.modTxn h d.txn (fun t =>
      let t1 := t.add (.region key (some g))
      let t2 := if (s.sealedScene.region key).isSome && cur.isSome then t1.hold .region key else t1
      let t3 := if (s.sealedScene.ctx cke).isSome then t2.hold .ctx cke else t2
      { t3 with accepted := true, newReg := if cur.isNone then t3.newReg + 1 else t3.newReg })
    (if cur.isNone then (s1.nextOid).onBase (·.takeUse h 2 1) else s1).answer h r d (some cke) stOK 0

def State.runRegionClear (h r : Nat) (d : Desc) (s : State) : State :=
  let hand := d.rec_ 0 2
  let key := objKey h hand
  let cur := (s.view h d.txn).region key
  let ctx := cur.map (·.ctx)
  match firstStatus [
      (!s.joins h d || s.held h d .region key, stTXN),
      (decide (4095 < hand), stRANGE),
      (cur.isNone, stSTATE)] with
  | some st => s.answer h r d ctx st 0
  | none => ((s.dropRegion h d.txn key).accepted h d.txn).answer h r d ctx stOK 0

/-! ### Uploads (R251) -/

def State.runUpload (h r : Nat) (d : Desc) (s : State) : State :=
  let u := d.rec_ 0 4
  let size := d.rec_ 4 4
  let off := d.rec_ 8 4
  let len := d.rec_ 12 4
  let cur := if u < 65536 then s.upl h u else none
  let n := ceilDiv size 65536
  match firstStatus [
      (len == 0 || (cur.isNone && size == 0), stNOOP),
      (!s.joins h d || (cur.map (fun x => x.txn != d.txn)).getD false, stTXN),
      (d.rec_ 24 8 != 0, stFORMAT),
      (decide (65535 < u) || (cur.isNone && decide (0x40000000 < size)) || decide ((cur.map (·.size)).getD size < off + len), stRANGE),
      (!d.admitted && cur.isNone && !s.hasRoom 5 h n, stQUOTA)] with
  | some st => if st = stQUOTA then s.answerQuota h r d none 5 else s.answer h r d none st 0
  | none =>
    let go (x : State) : State :=
      (((x.accepted h d.txn).acceptDesc h r d none).setCredit h (x.credit h - (1 + ceilDiv len 4096 : Nat))).onBase (·.emit (.hostRead h (d.rec_ 16 8) len))
    if cur.isSome then go s
    else match s.allocState n with
      | 1 => s.waitMem h r d id
      | 2 => (s.answer h r d none stMEMORY 0).memShort h n
      | _ =>
        let a := Dome.takeMany h 2 u n 0 s.dome
        go ((({ s with dome := a.2 } : State).setUpl h u (some ⟨d.txn, size, a.1⟩)).onBase (·.takeUse h 5 n))

/-- Free bytes for a range the spec leaves undefined (R251). -/
def freeBytes (seed n : Nat) : List Byte := (List.range n).map (fun i => Config.freeByte (seed + i))

/-- The host read of an UPLOAD ends (R251): its bytes are stored, or the content is undefined and fault UPLOAD_READ is logged. -/
def State.uploadDone (s : State) (h r n : Nat) (reply : HostRead) : State :=
  match (s.ring h r).flight.find? (fun d => d.n == n && d.op == 9 && d.st == .accepted) with
  | none => s
  | some d =>
    let u := d.rec_ 0 4
    let gs := s.uplGrans h u
    let len := d.rec_ 12 4
    if gs.any isSpillId then s
    else match reply with
      | .data bs =>
        if bs.length = len then
          ((({ s with dome := (s.dome.objWrite gs (d.rec_ 8 4) bs).touch gs } : State).finish h d.id stOK u none).settleRing h r).judge h
        else s
      | .fail c =>
        let size := ((s.upl h u).map (·.size)).getD 0
        let s1 : State := { s with dome := s.dome.objWrite gs 0 (freeBytes s.base.fresh size) }
        let s2 := s1.onBase (fun b => (({ b with fresh := b.fresh + size } : Base).fault (pgCMD h) 2
          (leBytes 1 r ++ [0, 0, 0] ++ leBytes 4 d.n ++ leBytes 4 u)).dmaError h (some 1) c.val)
        ((s2.finish h d.id stMEMORY u none).settleRing h r).judge h

/-! ### DECODE (R124 to R126, R149, R265) -/

/-- The jobs of one tile row: up to 32 consecutive tiles each (R149). -/
def rowJobs (dec ty : Nat) : Nat → Nat → Nat → List Job
  | 0, _, _ => []
  | _, _, 0 => []
  | n + 1, tx, left => ⟨dec, ty, tx, min 32 left⟩ :: rowJobs dec ty n (tx + 32) (left - 32)

/-- All jobs of a DECODE, in order. -/
def Decode.jobs (d : Decode) : List Job := (List.range d.trows).flatMap (fun i => rowJobs d.id (d.ty0 + i) d.tcols d.tx0 d.tcols)

/-- The granule indices that the rectangle's tiles lie in. -/
def rectGrans (l : Layer) (plane tx ty nx ny : Nat) : List Nat :=
  ((List.range ny).flatMap (fun j => granIdx (((ty + j) * l.gridW plane + tx) * tileBytes (l.planeFmt plane)) (nx * tileBytes (l.planeFmt plane)))).dedup

/-- What a DECODE record asks for. -/
def Desc.decode (d : Desc) (h r : Nat) : Decode :=
  ⟨d.id, h, r, d.txn, d.rec_ 0 2, d.rec_ 2 1, (d.rec_ 3 1).testBit 0, d.rec_ 4 4, d.rec_ 8 4, d.rec_ 12 4, d.rec_ 16 2, d.rec_ 18 2, d.rec_ 20 2,
    d.rec_ 22 2, false, none, 0, false, 0⟩

/-- A DECODE with SUPERSEDE cancels another (R265). -/
def Decode.cancels (n d : Decode) : Bool :=
  d.host == n.host && decide (d.id < n.id) && d.layer == n.layer && d.plane == n.plane && !d.started &&
    decide (n.tx0 ≤ d.tx0 ∧ d.tx0 + d.tcols ≤ n.tx0 + n.tcols ∧ n.ty0 ≤ d.ty0 ∧ d.ty0 + d.trows ≤ n.ty0 + n.trows)

/-- SUPERSEDE cancels the earlier DECODEs that R265 names: those handed to the codec, and those that another ring still holds unprocessed or waiting for granules. -/
def State.supersede (s : State) (h : Nat) (n : Decode) : State :=
  let ids := (s.codec.decodes.filter n.cancels).map (·.id)
    ++ ((s.flights h).filter (fun e => e.op == 0x0A && e.st == .fetched && !e.malformed && n.cancels (e.decode h 0))).map (·.id)
  ids.foldl (fun x i => x.finish h i stSUPERSEDED 0 none) (s.dropDecodes n.cancels)

/-- An object RETIRING under a key (R108). -/
def State.retiringKey (s : State) (kind key : Nat) : Bool :=
  s.scenes.retiring.any (fun e => (match e.1 with | .ctx => kind == 0 | .layer => kind == 1 | .region => kind == 2) && e.2.1 == key)

/-- A layer of the host has this key, in whatever state: as the transaction sees it, in force, sealed or RETIRING. -/
def State.hasLayer (s : State) (h t key : Nat) : Bool :=
  ((s.view h t).layer key).isSome || (s.scenes.live.layer key).isSome || (s.sealedScene.layer key).isSome || s.retiringKey 1 key

def State.runDecode (h r : Nat) (d : Desc) (s : State) : State :=
  let hand := d.rec_ 0 2
  let key := objKey h hand
  let plane := d.rec_ 2 1
  let u := d.rec_ 4 4
  let off := d.rec_ 8 4
  let len := d.rec_ 12 4
  let tx0 := d.rec_ 16 2
  let ty0 := d.rec_ 18 2
  let nx := d.rec_ 20 2
  let ny := d.rec_ 22 2
  let cur := (s.view h d.txn).layer key
  let up := if u < 65536 then s.upl h u else none
  let ctx := s.layerCtx h d
  let need : List Nat := match s.txn h d.txn, cur with
    | some x, some l => x.missing l plane (rectGrans l plane tx0 ty0 nx ny)
    | _, _ => []
  let hold (t : Txn) : Txn := if (s.sealedScene.layer key).isSome then t.hold .layer key else t
  match firstStatus [
      (len == 0 || nx == 0 || ny == 0, stNOOP),
      (!s.joins h d || s.held h d .layer key, stTXN),
      (decide (1 < plane) || decide (1 < d.rec_ 3 1) || (plane == 1 && (cur.map (fun l => l.kind != 1)).getD false), stFORMAT),
      (decide (hand ≤ 49151) && !s.hasLayer h d.txn key, stOWNER),
      (decide (49151 < hand) || decide (65535 < u) ||
        (cur.map (fun l => decide (l.gridW plane < tx0 + nx ∨ l.gridH plane < ty0 + ny))).getD false ||
        (up.map (fun x => decide (x.size < off + len))).getD false, stRANGE),
      (cur.isNone || up.isNone, stSTATE),
      (!d.admitted && !need.isEmpty && !s.hasRoom 5 h need.length, stQUOTA)] with
  | some st => if st = stQUOTA then s.answerQuota h r d ctx 5 else s.answer h r d ctx st 0
  | none =>
    let olds := (cur.map (fun l => need.map (fun i => (l.grans plane).getD i 0))).getD []
    match s.copyState need.length olds with
    | 1 => ({ s with dome := { s.dome with want := (s.dome.want ++ olds.filter isSpillId).dedup } } : State).waitMem h r d hold
    | 2 => (s.answer h r d ctx stMEMORY 0).memShort h need.length
    | _ =>
      let s1 := (s.copyMany h d.txn key plane need).modTxn h d.txn (fun t => { hold t with accepted := true })
      let n := d.decode h r
      let s2 := if d.flags.testBit 1 then s1.supersede h n else s1
      ({ s2 with codec := { s2.codec with decodes := s2.codec.decodes ++ [n], waiting := s2.codec.waiting ++ n.jobs } } : State).acceptDesc h r d ctx

/-! ### FENCE, NOP, READBACK (R253, R256) -/

def State.runDone (h r : Nat) (d : Desc) (s : State) : State := s.answer h r d none stOK 0

/-- State code of an object (R108) in a view: LIVE when the scene in force holds it, STAGED otherwise. -/
def objState (liveOid viewOid : Option Nat) : Nat :=
  match viewOid with
  | none => 0
  | some o => if liveOid = some o then 2 else 1

/-- The 32 record bytes of an object in a view (Tables 4.1, 4.2, 4.6), with the granules it holds. -/
def readbackObject (sc : Scene) (kind key : Nat) : List Byte × Nat :=
  let hand := key % 65536
  match kind with
  | 0 => ((sc.ctx key).map (fun c => (leBytes 2 hand ++ leBytes 1 (if c.shared then 2 else 0) ++ leBytes 1 c.veil ++ leBytes 2 c.bound
      ++ [0, 0] ++ leBytes 4 c.age0 ++ leBytes 20 0, 0))).getD (leBytes 32 0, 0)
  | 1 => ((sc.layer key).map (fun l => (leBytes 2 hand ++ leBytes 2 (l.ctx % 65536) ++ leBytes 1 l.kind ++ leBytes 1 l.format
      ++ leBytes 1 ((if l.visible then 1 else 0) + (if l.pin then 2 else 0)) ++ leBytes 1 l.opacity ++ leBytes 2 l.x ++ leBytes 2 l.y
      ++ leBytes 2 l.width ++ leBytes 2 l.height ++ leBytes 2 l.depth ++ leBytes 2 l.stack ++ leBytes 4 l.fg ++ leBytes 4 l.bg ++ leBytes 4 0,
      l.all.length))).getD (leBytes 32 0, 0)
  | _ => ((sc.region key).map (fun g => (leBytes 2 hand ++ leBytes 2 (g.ctx % 65536) ++ leBytes 2 g.layer
      ++ leBytes 1 (if g.critical then 1 else 0) ++ [0] ++ leBytes 2 g.x ++ leBytes 2 g.y ++ leBytes 2 g.w ++ leBytes 2 g.h ++ leBytes 16 0, 0))).getD (leBytes 32 0, 0)

/-- The object identity under a key. -/
def Scene.oid (sc : Scene) (kind key : Nat) : Option Nat :=
  match kind with
  | 0 => (sc.ctx key).map (·.oid)
  | 1 => (sc.layer key).map (·.oid)
  | _ => (sc.region key).map (·.oid)

/-- The 64-byte result block (Table 9.5). -/
def State.readbackBlock (s : State) (h : Nat) (d : Desc) : List Byte :=
  let kind := d.rec_ 0 1
  let hand := d.rec_ 2 2
  let key := objKey h hand
  let sc := if d.txn = 0xFFFF then s.sealedScene else s.view h d.txn
  let live := s.scenes.live
  let head (st flags : Nat) : List Byte := leBytes 1 st ++ leBytes 1 kind ++ leBytes 2 hand ++ leBytes 4 flags
  match kind with
  | 3 => match s.upl h hand with
    | some u => head 1 0 ++ leBytes 4 u.size ++ leBytes 28 0 ++ leBytes 4 0 ++ leBytes 4 u.grans.length ++ leBytes 16 0
    | none => head 0 0 ++ leBytes 56 0
  | 4 => head (match s.txn h hand with | none => 0 | some x => if x.closing then 2 else 1) 0 ++ leBytes 56 0
  | _ =>
    let o := sc.oid kind key
    let r := if o.isSome then readbackObject sc kind key else (leBytes 32 0, 0)
    let gc := if kind = 0 then sget (fun _ => none) s.guard.ctxs key else none
    let stale := (gc.map (·.stale)).getD false
    let clamped := kind == 1 && ((sc.layer key).map (fun l => l.clamped s.dome (s.base.get Reg.cmpDmax_DMAX))).getD false
    let inForce := o.isNone && ((live.oid kind key).isSome || s.retiringKey kind key)
    head (objState (live.oid kind key) o) ((if stale || clamped then 1 else 0) + (if inForce then 2 else 0)) ++ r.1
      ++ leBytes 4 ((gc.map (·.age)).getD 0) ++ leBytes 4 r.2 ++ leBytes 16 0

def State.runReadback (h r : Nat) (d : Desc) (s : State) : State :=
  let kind := d.rec_ 0 1
  let hand := d.rec_ 2 2
  let top := match kind with | 0 => 40959 | 1 => 49151 | 2 => 4095 | 3 => 65535 | _ => 255
  match firstStatus [
      (d.txn != 0xFFFF && !s.joins h d, stTXN),
      (decide (4 < kind) || d.rec_ 1 1 != 0 || d.rec_ 4 4 != 0 || d.rec_ 8 8 % 64 != 0, stFORMAT),
      (decide (top < hand), stRANGE)] with
  | some st => s.answer h r d none st 0
  | none => (s.onBase (·.emit (.hostWrite h (d.rec_ 8 8) (s.readbackBlock h d)))).answer h r d none stOK 0

end Sys2Proof.Machine
end

