-- ==== Sys2Proof/Machine/Codec.lean ====
section
/-! DEFINITION. The codec group (chapter 5): dispatch of jobs with leave, the stream and directory checks, decoding or filling the tiles of a job, and the ends of a DECODE. -/

namespace Sys2Proof.Machine

abbrev pgCDC : Nat := 0x030

/-- The DECODE of a job. -/
def State.decodeOf (s : State) (id : Nat) : Option Decode := s.codec.decodes.find? (fun d => d.id == id)

/-- Engines that hold jobs. -/
def State.engineJobs (s : State) : List (Nat × Job) :=
  (List.range 16).filterMap (fun e => (s.engine e).job.map (fun j => (e, j)))

/-- Two jobs cover a common tile of one plane. -/
def Job.meets (a b : Job) : Bool := a.ty == b.ty && decide (a.tx < b.tx + b.n ∧ b.tx < a.tx + a.n)

/-- A running 2D operation of the host uses the layer's planes, as destination or as source (R319). -/
def State.twdTouches (s : State) (h layer : Nat) : Bool :=
  s.twdOn h layer || ((s.twdOp h).map (fun o => o.op != 1 && o.sKind != 2 && o.sHost == h && o.sHand == layer)).getD false

/-- A DECODE accepted after GO that touches the objects of the running 2D operation is not dispatched before it completes (R319). -/
def State.twdBlocks (s : State) (d : Decode) : Bool :=
  (s.twdTouches d.host d.layer || s.twdUses d.host d.upload) && !((s.twdOp d.host).map (fun o => o.prior.contains d.id)).getD false

/-- An unfinished job of an earlier DECODE of the host to the same plane covers a tile of the job (R150). -/
def State.jobBehind (s : State) (d : Decode) (j k : Job) : Bool :=
  (s.decodeOf k.dec).any (fun x => x.host == d.host && x.layer == d.layer && x.plane == d.plane && decide (x.id < d.id) && k.meets j)

/-- A waiting job may start: the uploads before its DECODE have arrived (R256), no 2D operation that came first is at work on its objects (R319), and no earlier DECODE has unfinished jobs on its tiles (R150). -/
def State.jobReady (s : State) (j : Job) : Bool :=
  match s.decodeOf j.dec with
  | none => false
  | some d =>
    !s.uploadsTo d.host d.upload d.id && !s.twdBlocks d && !s.codec.waiting.any (s.jobBehind d j)
      && !(s.engineJobs.map (·.2)).any (s.jobBehind d j)

/-- The host of a waiting job. -/
def State.jobHost (s : State) (j : Job) : Nat := ((s.decodeOf j.dec).map (·.host)).getD 4

/-- The first waiting job of a host that may start. -/
def State.nextJob (s : State) (h : Nat) : Option Job := s.codec.waiting.find? (fun j => s.jobHost j == h && s.jobReady j)

def State.jobCredit (s : State) (h : Nat) : Int := sget (fun _ => (0 : Int)) s.codec.credit h
def State.setJobCredit (s : State) (h : Nat) (c : Int) : State := { s with codec := { s.codec with credit := sput (fun _ => (0 : Int)) s.codec.credit h c } }

/-- A round of the codec's arbiter when no host with a startable job has credit (R149, R266; each job costs 1). -/
def State.jobRound (s : State) : State :=
  let hs := (List.range 4).filter (fun h => (s.nextJob h).isSome)
  if hs.any (fun h => decide (0 < s.jobCredit h)) then s
  else (List.range 4).foldl (fun x h => x.setJobCredit h (if hs.contains h then s.jobCredit h + (s.base.get (Reg.cmdWeight_WEIGHT h) : Nat) else 0)) s

/-- An engine that takes jobs: enabled and neither FAULT nor RETIRED (R149). -/
def State.engineServes (s : State) (e : Nat) : Bool :=
  s.base.enabled (pgENG e) && (s.base.ownState (pgENG e) == uREADY || s.base.ownState (pgENG e) == uBUSY)

/-- A job that was taken back from this engine and may start waits for another engine, one that takes jobs (R155). -/
def State.shunned (s : State) (e : Nat) : Bool :=
  s.codec.shun.any (fun p => p.2 == e && s.codec.waiting.contains p.1 && s.jobReady p.1) && (List.range 16).any (fun f => f != e && s.engineServes f)

/-- An engine may take a job: enabled, in service and free, the group enabled, and fewer than ENGINES engines hold jobs (R149, R156, R157); the job taken back from it goes to another (R155). -/
def State.engineFree (s : State) (e : Nat) : Bool :=
  (s.engine e).job.isNone && s.base.enabled pgCDC && s.base.enabled (pgENG e) && s.base.ownState (pgENG e) == uREADY &&
    decide (s.engineJobs.length < s.base.get Reg.cdcCtrl_ENGINES) && !s.shunned e

/-- JOB_DISPATCH: the group dispatches the next startable job to a free engine; group and engine ask for leave (R153). -/
def State.dispatch (s : State) (e : Nat) : State :=
  if !s.engineFree e then s
  else
    let s1 := s.jobRound
    match (List.range 4).find? (fun h => (s1.nextJob h).isSome && decide (0 < s1.jobCredit h)) with
    | none => s
    | some h =>
      match s1.nextJob h with
      | none => s
      | some j =>
        let s2 : State := { s1 with codec := { s1.codec with
          waiting := s1.codec.waiting.erase j
          shun := s1.codec.shun.filter (fun p => p.1 != j)
          decodes := s1.codec.decodes.map (fun d => if d.id = j.dec then { d with started := true } else d) } }
        ((((s2.setEngine e ⟨some j, none⟩).setJobCredit h (s1.jobCredit h - 1)).request ridGroup 0 (s.base.get Reg.cdcLeave_GROUP_UNITS)).request
          e 0 (s.base.get Reg.cdcLeave_ENGINE_UNITS)).refreshEngine e

/-- An engine with a job waits for leave (ENG_JOB.WAIT_LEAVE). -/
def State.engineWaits (s : State) (e : Nat) : Bool := (s.engine e).job.isSome && !(s.holds e 0 && s.holds ridGroup 0)

/-- The stream checks of R142, in order; `bad`: an uncorrectable word in header or directory. -/
def streamCheck (d : Decode) (fmt : Nat) (bad : Bool) (bs : List Byte) : Option Nat :=
  let n := d.tcols * d.trows
  let h (o k : Nat) : Nat := leAt bs o k
  (([ (d.len < 28 + 12 * n, 0x82), (bad, 0x86),
      (bs.take 4 ≠ [0x4F, 0x4C, 0x43, 0x31] ∨ h 4 1 ≠ 1, 0x80),
      (h 5 1 ≠ fmt, 0x81),
      (h 8 2 ≠ d.tx0 ∨ h 10 2 ≠ d.ty0 ∨ h 12 2 ≠ d.tcols ∨ h 14 2 ≠ d.trows ∨ h 16 4 ≠ d.len, 0x82),
      (h 6 2 ≠ 0, 0x83),
      (h 24 4 ≠ crc32 (bs.take 24), 0x84),
      (h 20 4 ≠ crc32 ((bs.drop 28).take (12 * n)), 0x85)] : List (Bool × Nat)).find? (·.1)).map (·.2)

/-- Codec fault detail: LAYER, HOST, PLANE, TX, TY (R157). -/
def codecDetail (d : Decode) (tx ty : Nat) : List Byte :=
  leBytes 2 d.layer ++ leBytes 1 d.host ++ leBytes 1 d.plane ++ leBytes 2 tx ++ leBytes 2 ty

/-- Changes the record of a DECODE. -/
def State.modDecode (s : State) (id : Nat) (f : Decode → Decode) : State :=
  { s with codec := { s.codec with decodes := s.codec.decodes.map (fun d => if d.id = id then f d else d) } }

/-- The first job of a DECODE checks its stream; a damaged stream is counted, raises STREAM_BAD and makes one log entry (R142, R146). -/
def State.checkStream (s : State) (e : Nat) (ecc : Ecc) (d : Decode) (fmt : Nat) : State :=
  if d.bad.isSome then s
  else
    let gs := s.readGrans d
    let n := 28 + 12 * (d.tcols * d.trows)
    let short := decide (d.len < n)
    let rs := if short then [] else objRanges gs d.off n
    let bad := s.dome.rangeBad ecc rs
    let bs := if short then [] else s.dome.objBytes gs d.off n
    let s1 := s.checkRead 1 ecc rs
    let code := (streamCheck d fmt bad bs).getD 0
    let s2 := s1.modDecode d.id (fun x => { x with bad := some code, memErr := x.memErr || code == 0x86 })
    let s3 := if code = 0x86 then s2.onBase (·.fault (pgENG e) 2 (codecDetail d d.tx0 d.ty0)) else s2
    if code = 0 then s3
    else s3.onBase (fun b => ((b.count Reg.cdcStreamBad_COUNT 1).raise pgCDC 17).violation d.host pgCDC vTILE
      (leBytes 2 0xFFFF ++ leBytes 2 0xFFFF ++ leBytes 1 code ++ [0]))

/-- The checks of one tile of an intact stream (R143): none when its entry has LENGTH 0, else its bytes and clocks or its code; with the ranges read and the header byte. -/
def tileResult (d : Dome) (ecc : Ecc) (x : Decode) (gs : List Nat) (fmt tx ty : Nat) : Option (Except Nat (List Byte × Nat)) × List (Nat × Nat) × Nat :=
  let j := (ty - x.ty0) * x.tcols + (tx - x.tx0)
  let ent := d.objBytes gs (x.off + 28 + 12 * j) 12
  let off := leAt ent 0 4
  let len := leAt ent 4 2
  if leAt ent 6 2 ≠ 0 then (some (.error dENTRY), [], 0)
  else if len = 0 then (none, [], 0)
  else if off < 28 + 12 * (x.tcols * x.trows) || decide (x.len < off + len) then (some (.error dENTRY), [], 0)
  else if tileBytes fmt + 1 < len then (some (.error dTOOLONG), [], 0)
  else
    let rs := objRanges gs (x.off + off) len
    let bs := d.objBytes gs (x.off + off) len
    if d.rangeBad ecc rs then (some (.error dMEMORY), rs, 0)
    else if crc32 bs ≠ leAt ent 8 4 then (some (.error dCRC), rs, 0)
    else (some ((decodeTile fmt bs).map (fun t => (t, tileClocks fmt bs))), rs, leAt bs 0 1)

/-- Writes a tile of the target plane in the transaction's staged version. -/
def State.writeTile (s : State) (d : Decode) (tx ty : Nat) (bs : List Byte) : State :=
  match (s.view d.host d.txn).layer (objKey d.host d.layer) with
  | none => s
  | some l =>
    let f := l.planeFmt d.plane
    let t := ty * l.gridW d.plane + tx
    { s with dome := s.dome.objWrite (l.grans d.plane) (t * tileBytes f) bs }

/-- Clocks of an engine: ENG_BUSY counts whole periods of 1,024 (R157). -/
def State.spend (s : State) (e n : Nat) : State :=
  let c := sget (fun _ => 0) s.codec.clocks e + n
  ({ s with codec := { s.codec with clocks := sput (fun _ => 0) s.codec.clocks e (c % 1024) } } : State).onBase (·.count (Reg.engBusy_KCLK e) (c / 1024))

/-- Clocks of a damaged tile (R147): its fill unless DMG_KEEP and, in an intact stream, those up to the check that failed: a free value within the bound of R147 (log 10). -/
def State.spendDamaged (s : State) (e : Nat) (keep stream : Bool) (fmt : Nat) : State :=
  let fill := if keep then 0 else fillClocks fmt
  if stream then s.spend e fill
  else (s.spend e (fill + Config.freeNat s.base.fresh % (tileClocksMax - fill + 1))).onBase (·.draw)

/-- A damaged tile: fill (unless DMG_KEEP), counters, event, and the log entry of R146 (none per tile for a damaged stream). The entry names the codec group's page (DESIGN CHOICE, log 51: R146 names neither page nor class). -/
def State.damageTile (s0 : State) (e : Nat) (d : Decode) (fmt tx ty code hd : Nat) (stream : Bool) : State :=
  let s := s0.spendDamaged e d.keep stream fmt
  let s1 := if d.keep then s else s.writeTile d tx ty (damageFill fmt)
  let s2 := s1.onBase (fun b => ((b.count Reg.cdcDamaged_COUNT 1).count (Reg.engDamaged_COUNT e) 1).raise pgCDC 16)
  let s3 := if d.keep then s2 else s2.onBase (·.count (Reg.engTiles_COUNT e) 1)
  let logged := ((s.decodeOf d.id).map (·.logged)).getD 0
  let s4 := s3.modDecode d.id (fun x => { x with damaged := x.damaged + 1, memErr := x.memErr || code == dMEMORY,
                                                 logged := if stream then x.logged else x.logged + 1 })
  if stream || decide (64 ≤ logged) then s4
  else s4.onBase (fun b => b.violation d.host pgCDC vTILE (leBytes 2 tx ++ leBytes 2 ty ++ leBytes 1 code ++ leBytes 1 hd))

/-- One tile of a job. -/
def State.runTile (e : Nat) (ecc : Ecc) (d : Decode) (bad fmt ty : Nat) (s : State) (tx : Nat) : State :=
  if bad ≠ 0 then s.damageTile e d fmt tx ty bad 0 true
  else
    let gs := s.readGrans d
    let r := tileResult s.dome ecc d gs fmt tx ty
    let s1 := s.checkRead 1 ecc r.2.1
    match r.1 with
    | none => s1.onBase (·.count Reg.cdcSkipped_COUNT 1)
    | some (.ok p) => ((s1.writeTile d tx ty p.1).spend e p.2).onBase (fun b => (b.count Reg.cdcTiles_COUNT 1).count (Reg.engTiles_COUNT e) 1)
    | some (.error code) =>
      let s2 := if code = dMEMORY then s1.onBase (·.fault (pgENG e) 2 (codecDetail d tx ty)) else s1
      s2.damageTile e d fmt tx ty code r.2.2 false

/-- A DECODE with no job left completes (R145). -/
def State.endDecode (s : State) (id : Nat) : State :=
  if s.codec.waiting.any (fun j => j.dec == id) || (s.engineJobs.any (fun p => p.2.dec == id)) then s
  else match s.decodeOf id with
    | none => s
    | some d =>
      let st := if d.damaged = 0 then stOK else if d.memErr then stMEMORY else stDECODE
      let s1 := s.dropDecodes (fun x => x.id == id)
      ((s1.finish d.host id st (min 65535 d.damaged) none).settleRing d.host d.ring).judge d.host

/-- The plane granules that a job's tiles lie in. -/
def Job.grans (j : Job) (l : Layer) (plane : Nat) : List Nat :=
  (rectGrans l plane j.tx j.ty j.n 1).map (fun i => (l.grans plane).getD i 0)

/-- JOB_DONE: an engine with its leave finishes its job's tiles, the originals of their staged copies read first; the engine is idle from now. The job starts on an idle engine and costs 32 clocks more (R154; DEDUCED, log 10: ENG_BUSY counts them). -/
def State.jobDone (s : State) (e : Nat) (ecc : Ecc) : State :=
  match (s.engine e).job with
  | none => s
  | some j =>
    match s.decodeOf j.dec with
    | none => s
    | some d =>
      match (s.view d.host d.txn).layer (objKey d.host d.layer) with
      | none => s
      | some l =>
        if s.engineWaits e || (s.readGrans d).any isSpillId || (l.grans d.plane).any isSpillId then s
        else
          let fmt := l.planeFmt d.plane
          let s1 := ((s.checkCopies 1 ecc d.host d.txn (j.grans l d.plane)).spend e 32).checkStream e ecc d fmt
          let bad := (((s1.decodeOf d.id).bind (·.bad))).getD 0
          let s2 := ((List.range j.n).map (· + j.tx)).foldl (State.runTile e ecc d bad fmt j.ty) s1
          let s3 : State := { s2 with dome := (s2.dome.touch (l.grans d.plane)).touch (s2.readGrans d) }
          let s5 := (s3.setEngine e ((s3.engine e).free s3.base.ticks)).refreshEngine e
          s5.endDecode d.id

/-- A running job returns to the front of the queue, to restart on another engine (R155), and its engine holds no leave. -/
def State.requeue (s : State) (e : Nat) : State :=
  match (s.engine e).job with
  | none => (s.setEngine e ⟨none, none⟩).release e 0
  | some j => (({ s with codec := { s.codec with waiting := j :: s.codec.waiting, shun := (j, e) :: s.codec.shun } } : State).setEngine e ⟨none, none⟩).release e 0

/-- The group gives its leave back when no engine holds any, and none waits for its own (DESIGN CHOICE, log 51: R153 does not say what happens while one waits; the model keeps the group's 12 units). -/
def State.groupLeave (s : State) : State :=
  if (List.range 16).any (fun e => s.holds e 0 || s.asks e 0) then s else s.release ridGroup 0

/-- SELF_CHECK: the job, if any, is requeued and the engine in service becomes FAULT (R157). The detail names the job's first tile, and is zero without a job; STREAM_ECC of a header or directory names the rectangle's first tile (DESIGN CHOICE, log 51: R157 does not say which tile TX and TY are). -/
def State.engineFault (s : State) (e : Nat) : State :=
  let det := match (s.engine e).job.bind (fun j => (s.decodeOf j.dec).map (fun d => codecDetail d j.tx j.ty)) with
    | some d => d
    | none => []
  if (s.engine e).job.isSome || s.base.ownState (pgENG e) == uREADY then
    ((s.requeue e).groupLeave).onBase (fun b => (b.fault (pgENG e) 1 det).setOwn (pgENG e) uFAULT)
  else s

/-- ENGINE_LEAVE_RELEASE: an engine idle for 10 µs (6,250 device ticks) releases its grant (R153). -/
def State.engineIdle (s : State) (e : Nat) : State :=
  match (s.engine e).idle with
  | none => s
  | some t => if s.base.ticks < t + 6250 then s else ((s.setEngine e { s.engine e with idle := none }).release e 0).groupLeave

end Sys2Proof.Machine
end

