-- ==== Sys2Proof/Machine/Twd.lean ====
section
/-! DEFINITION. The 2D engine (chapter 11): surfaces, the checks at GO, staging, order, FILL, COPY and EXPAND, and the ends of an operation. -/

namespace Sys2Proof.Machine

/-! ## Surfaces (R305, R310, R316, R317) -/

/-- Where element (u, v) of a surface lies: byte of the object and bit in the byte. `gw` is the tile grid width of a LAYER or DEPTH plane. -/
def elemAt (kind fmt gw off pitch u v : Nat) : Nat × Nat :=
  if kind = 2 then (off + v * pitch + u * bitsPer fmt / 8, if fmt = 3 then u % 8 else 0)
  else
    let t := v / 32 * gw + u / 32
    let p := v % 32 * 32 + u % 32
    if fmt = 3 then (t * 128 + v % 32 * 4 + u % 32 / 8, u % 8) else (t * tileBytes fmt + p * bitsPer fmt / 8, 0)

/-- Bytes of an element. -/
def elemBytes (fmt : Nat) : Nat := max 1 (bitsPer fmt / 8)

/-- An element's value. -/
def Dome.elem (d : Dome) (gs : List Nat) (fmt : Nat) (p : Nat × Nat) : Nat :=
  if fmt = 3 then (if ((d.byte (objAddr gs p.1)).toNat).testBit p.2 then 1 else 0) else leNat (d.objBytes gs p.1 (elemBytes fmt))

/-- Writes an element; I1 changes one bit. -/
def Dome.setElem (d : Dome) (gs : List Nat) (fmt : Nat) (p : Nat × Nat) (v : Nat) : Dome :=
  if fmt = 3 then
    let b := (d.byte (objAddr gs p.1)).toNat
    d.objWrite gs p.1 [BitVec.ofNat 8 (b - (if b.testBit p.2 then 2 ^ p.2 else 0) + v % 2 * 2 ^ p.2)]
  else d.objWrite gs p.1 (leBytes (elemBytes fmt) v)

/-! ## Capture and checks at GO (R308 to R310) -/

/-- The operation that the parameter registers describe, with nothing resolved yet. -/
def Base.twdCapture (b : Base) (h : Nat) : TwdOp :=
  { op := b.get (Reg.twdOp_OP h), txn := b.get (Reg.twdOp_TXN h), bgKeep := b.flag (Reg.twdOp_BG_KEEP h), tag := b.get (Reg.twdTag_TAG h),
    w := b.get (Reg.twdSize_W h), h := b.get (Reg.twdSize_H h), value := b.get (Reg.twdValue_VALUE h), fg := b.get (Reg.twdFg_FG h), bg := b.get (Reg.twdBg_BG h),
    dKind := b.get (Reg.twdDst_KIND h), dFmt := b.get (Reg.twdDst_FORMAT h), dHand := b.get (Reg.twdDst_HANDLE h),
    dx := b.get (Reg.twdDstXy_X h), dy := b.get (Reg.twdDstXy_Y h), dOff := b.get (Reg.twdDstOffset_OFFSET h), dPitch := b.get (Reg.twdDstPitch_PITCH h),
    sKind := b.get (Reg.twdSrc_KIND h), sFmt := b.get (Reg.twdSrc_FORMAT h), sHost := b.get (Reg.twdSrc_HOST h), sHand := b.get (Reg.twdSrc_HANDLE h),
    sx := b.get (Reg.twdSrcXy_X h), sy := b.get (Reg.twdSrcXy_Y h), sOff := b.get (Reg.twdSrcOffset_OFFSET h), sPitch := b.get (Reg.twdSrcPitch_PITCH h),
    sGrans := [], sTw := 0, after := [], prior := [], staged := false, origBad := false, writing := false }

/-- The destination layer, in TXN's view. -/
def State.twdDst (s : State) (h : Nat) (o : TwdOp) : Option Layer := (s.view h o.txn).layer (objKey h o.dHand)

/-- The source layer: the version staged in TXN for an own layer, else the newest sealed version (R306). -/
def State.twdSrc (s : State) (h : Nat) (o : TwdOp) : Option Layer :=
  if o.sHost = h then (s.view h o.txn).layer (objKey h o.sHand) else s.sealedScene.layer (objKey o.sHost o.sHand)

/-- The destination's format: its plane's, or the FORMAT field of a RAW surface (R307). -/
def State.twdDstFmt (s : State) (h : Nat) (o : TwdOp) : Option Nat :=
  if o.dKind = 2 then some o.dFmt else (s.twdDst h o).map (fun l => l.planeFmt o.dKind)

def State.twdSrcFmt (s : State) (h : Nat) (o : TwdOp) : Option Nat :=
  if o.sKind = 2 then some o.sFmt else (s.twdSrc h o).map (fun l => l.planeFmt o.sKind)

/-- A rectangle reaches beyond a LAYER or the corners of a DEPTH plane (R310). -/
def beyond (l : Layer) (kind x y w h : Nat) : Bool :=
  if kind = 1 then decide (l.tw + 1 < x + w ∨ l.th + 1 < y + h) else decide (l.width < x + w ∨ l.height < y + h)

/-- A RAW rectangle breaks R317. -/
def rawBeyond (fmt off pitch x y w h size : Nat) : Bool :=
  let row := ceilDiv ((x + w) * bitsPer fmt) 8
  decide (pitch < row) || decide (size < off + (y + h - 1) * pitch + row)

/-- OFFSET or PITCH breaks R316. -/
def rawBad (off pitch : Nat) : Bool := off % 64 != 0 || pitch % 64 != 0 || decide (pitch < 64) || decide (65536 < pitch)

/-- An upload created by TXN. -/
def State.ownUpload (s : State) (h u t : Nat) : Bool := ((s.upl h u).map (fun x => x.txn == t)).getD false

/-- Table 11.1: the host may read the source plane. -/
def State.srcPermitted (s : State) (h : Nat) (o : TwdOp) : Bool :=
  o.sHost == h || h == s.base.owner ||
    (o.sHost == s.base.owner && (((s.twdSrc h o).bind (fun l => s.sealedScene.ctx l.ctx)).map (·.shared)).getD false)

/-- Granule indices of the destination that TXN does not hold yet. -/
def State.twdMissing (s : State) (h : Nat) (o : TwdOp) : List Nat :=
  if o.dKind = 2 then []
  else match s.txn h o.txn, s.twdDst h o with
    | some x, some l =>
      x.missing l o.dKind (rectGrans l o.dKind (o.dx / 32) (o.dy / 32) ((o.dx + o.w - 1) / 32 - o.dx / 32 + 1) ((o.dy + o.h - 1) / 32 - o.dy / 32 + 1))
    | _, _ => []

/-- The checks of Table 11.3 in the order of R92. -/
def State.twdCheck (s : State) (h : Nat) (o : TwdOp) : Option Nat :=
  let src := o.op != 1
  let key := objKey h o.dHand
  let dl := s.twdDst h o
  let sl := s.twdSrc h o
  let df := s.twdDstFmt h o
  let sf := s.twdSrcFmt h o
  let open_ := ((s.txn h o.txn).map (fun x => !x.closing)).getD false && !s.commitFetched h o.txn s.rings.nextId
  firstStatus [
    (o.w == 0 || o.h == 0, stNOOP),
    (!open_ || (o.dKind != 2 && s.foreign h o.txn .layer key) ||
      (o.dKind == 2 && (s.upl h o.dHand).isSome && !s.ownUpload h o.dHand o.txn) ||
      (src && o.sKind == 2 && (o.sHost != h || ((s.upl h o.sHand).isSome && !s.ownUpload h o.sHand o.txn))), stTXN),
    ((o.bgKeep && o.op != 3) ||
      (o.dKind != 2 && o.dFmt != 0) || (src && o.sKind != 2 && o.sFmt != 0) ||
      (o.dKind == 1 && (dl.map (fun l => l.kind != 1)).getD false) || (src && o.sKind == 1 && (sl.map (fun l => l.kind != 1)).getD false) ||
      (o.dKind == 2 && rawBad o.dOff o.dPitch) || (src && o.sKind == 2 && rawBad o.sOff o.sPitch) ||
      (o.op == 2 && df.isSome && sf.isSome && df != sf) ||
      (o.op == 3 && ((sf.map (fun f => f != 3)).getD false || (df.map (fun f => decide (2 < f))).getD false)), stFORMAT),
    (src && o.sKind != 2 && decide (o.sHand ≤ 49151) && !s.srcPermitted h o, stOWNER),
    (decide (16384 < o.w) || decide (16384 < o.h) || (o.dKind != 2 && decide (49151 < o.dHand)) || (src && o.sKind != 2 && decide (49151 < o.sHand)) ||
      (o.dKind != 2 && (dl.map (fun l => beyond l o.dKind o.dx o.dy o.w o.h)).getD false) ||
      (src && o.sKind != 2 && (sl.map (fun l => beyond l o.sKind o.sx o.sy o.w o.h)).getD false) ||
      (o.dKind == 2 && ((s.upl h o.dHand).map (fun u => rawBeyond o.dFmt o.dOff o.dPitch o.dx o.dy o.w o.h u.size)).getD false) ||
      (src && o.sKind == 2 && ((s.upl h o.sHand).map (fun u => rawBeyond o.sFmt o.sOff o.sPitch o.sx o.sy o.w o.h u.size)).getD false), stRANGE),
    ((o.dKind != 2 && dl.isNone) || (o.dKind == 2 && (s.upl h o.dHand).isNone) ||
      (src && o.sKind != 2 && sl.isNone) || (src && o.sKind == 2 && (s.upl h o.sHand).isNone) ||
      !s.base.enabled (pgTWD h) || s.base.ownState (pgTWD h) != uREADY, stSTATE),
    (!(s.twdMissing h o).isEmpty && !s.hasRoom 5 h (s.twdMissing h o).length, stQUOTA)]

/-- The host's DECODEs and UPLOADs accepted before GO that the operation waits for (R319). -/
def State.twdAfter (s : State) (h : Nat) (o : TwdOp) : List Nat :=
  let src := o.op != 1
  (s.codec.decodes.filter (fun d => d.host == h &&
      ((o.dKind != 2 && d.layer == o.dHand) || (src && o.sKind != 2 && o.sHost == h && d.layer == o.sHand) || (o.dKind == 2 && d.upload == o.dHand)))).map (·.id)
    ++ ((s.flights h).filter (fun d => d.op == 9 && d.st == .accepted &&
      ((o.dKind == 2 && d.rec_ 0 4 == o.dHand) || (src && o.sKind == 2 && d.rec_ 0 4 == o.sHand)))).map (·.id)

/-- The source version of an operation, fixed at GO: its granules and its width in tiles (R306). -/
def State.twdFix (s : State) (h : Nat) (o : TwdOp) : TwdOp :=
  let sl := s.twdSrc h o
  { o with
    sGrans := if o.op = 1 then [] else if o.sKind = 2 then s.uplGrans h o.sHand else (sl.map (fun l => l.grans o.sKind)).getD []
    sTw := (sl.map (fun l => l.gridW o.sKind)).getD 0
    after := s.twdAfter h o
    prior := (s.codec.decodes.filter (fun d => d.host == h)).map (·.id) }

/-- The destination's granules are staged when they can be (R311); when nothing can free them, the operation ends with ERR_MEMORY. -/
def State.twdStage (s : State) (h : Nat) : State :=
  match s.twdOp h with
  | none => s
  | some o =>
    if o.staged then s
    else
      let miss := s.twdMissing h o
      let olds := ((s.twdDst h o).map (fun l => miss.map (fun i => (l.grans o.dKind).getD i 0))).getD []
      match s.copyState miss.length olds with
      | 1 => { s with dome := { s.dome with want := (s.dome.want ++ olds.filter isSpillId).dedup } }
      | 2 => (((s.twdEnd h stMEMORY o.op o.tag).memShort h miss.length).refreshHost h).judge h
      | _ =>
        let bad := olds.any (fun g => (List.range 4096).any (fun i => s.dome.poisoned (g * 4096 + i) || s.dome.downWord (g * 4096 + i)))
        (s.copyMany h o.txn (objKey h o.dHand) o.dKind miss).setTwd h (some { o with staged := true, origBad := bad })

/-- A large operation asks for leave (R324). -/
def TwdOp.large (o : TwdOp) : Bool := decide (1048576 < o.w * o.h)

/-- GO with the written OP (R309): checks, then hold, source version, staging and leave. The hold begins at GO even while granules are awaited (R318), and the operation counts as a command of its transaction from then on (R262, R320). -/
def State.twdGo (s : State) (h : Nat) : State :=
  let o := s.base.twdCapture h
  let s0 := s.onBase (·.put (Reg.twdStatus_ROWS h) 0)
  match s0.twdCheck h o with
  | some st =>
    let s1 := s0.twdEnd h st o.op o.tag
    if st = stQUOTA then s1.onBase (·.quotaRefused h 5) else s1
  | none =>
    let s1 := (s0.setTwd h (some (s0.twdFix h o))).modTxn h o.txn (fun t =>
      { (if o.dKind != 2 && (s.sealedScene.layer (objKey h o.dHand)).isSome then t.hold .layer (objKey h o.dHand) else t) with accepted := true })
    let s2 := if o.large then s1.request (ridTwd h) 0 (s.base.get (Reg.twdLeave_UNITS h)) else s1
    (s2.refreshHost h).twdStage h

/-- A write of TWD_OP: refused while the engine is BUSY (R308); GO starts the operation of its OP field. -/
def State.twdOpWrite (s : State) (h : Nat) (a : RegWr) : State :=
  let key := Reg.twdOp h
  if (s.twdOp h).isSome && s.base.visible a.host.toNat (pgTWD h) && s.base.mayWrite a.host.toNat key then
    s.onBase (·.refuse a.host.toNat key vNOTPERM a.val)
  else match s.base.regWrite key 0 a with
    | .refused b => { s with base := b }
    | .applied b act _ _ _ => if act.testBit 31 then (({ s with base := b } : State).twdGo h) else { s with base := b }

/-! ## Writing (R312 to R315, R319, R321, R323) -/

/-- The operation waits for earlier commands (TWD_STATUS.WAIT_ORDER). -/
def State.twdWaitOrder (s : State) (h : Nat) (o : TwdOp) : Bool :=
  o.after.any (fun i => s.codec.decodes.any (fun d => d.id == i) || (s.flights h).any (fun d => d.id == i && d.pendingB))

/-- It waits for leave. -/
def State.twdWaitLeave (s : State) (h : Nat) (o : TwdOp) : Bool := o.large && !s.holds (ridTwd h) 0

/-- The destination's granule list. -/
def State.twdDstGrans (s : State) (h : Nat) (o : TwdOp) : List Nat :=
  if o.dKind = 2 then s.uplGrans h o.dHand else ((s.twdDst h o).map (fun l => l.grans o.dKind)).getD []

/-- TWD_WRITE_START: order, leave, memory and residency waits are over. -/
def State.twdStart (s : State) (h : Nat) : State :=
  match s.twdOp h with
  | none => s
  | some o =>
    if o.writing || !o.staged || s.twdWaitOrder h o || s.twdWaitLeave h o || o.sGrans.any isSpillId || (s.twdDstGrans h o).any isSpillId then s
    else s.setTwd h (some { o with writing := true })

/-- The offsets (i, j) of a rectangle, row by row. -/
def rectCells (w h : Nat) : List (Nat × Nat) := (List.range h).flatMap (fun j => (List.range w).map (fun i => (i, j)))

/-- What the operation writes: destination element, its source element (none for FILL) and its value (none: unchanged). All sources are read first (R314). -/
def State.twdWrites (s : State) (h : Nat) (o : TwdOp) : List ((Nat × Nat) × Option (Nat × Nat) × Option Nat) :=
  let df := (s.twdDstFmt h o).getD 0
  let sf := if o.op = 3 then 3 else df
  let gw := ((s.twdDst h o).map (fun l => l.gridW o.dKind)).getD 0
  (rectCells o.w o.h).map (fun c =>
    let dp := elemAt o.dKind df gw o.dOff o.dPitch (o.dx + c.1) (o.dy + c.2)
    let sp := elemAt o.sKind sf o.sTw o.sOff o.sPitch (o.sx + c.1) (o.sy + c.2)
    match o.op with
    | 1 => (dp, none, some o.value)
    | 2 => (dp, some sp, some (s.dome.elem o.sGrans sf sp))
    | _ => (dp, some sp, if s.dome.elem o.sGrans sf sp = 1 then some o.fg else if o.bgKeep then none else some o.bg))

/-- The rectangle's offsets in the order in which the engine writes them: each axis runs away from the source (R314); FILL has none. -/
def TwdOp.order (o : TwdOp) : List (Nat × Nat) :=
  let up := o.op != 1 && decide (o.sy < o.dy)
  let left := o.op != 1 && decide (o.sx < o.dx)
  (rectCells o.w o.h).map (fun c => (if left then o.w - 1 - c.1 else c.1, if up then o.h - 1 - c.2 else c.2))

/-- Fault detail: destination handle, operation, row and column being written (R326). -/
def TwdOp.detail (o : TwdOp) (c : Nat × Nat) : List Byte :=
  leBytes 2 o.dHand ++ leBytes 1 o.op ++ [0] ++ leBytes 2 (o.dy + c.2) ++ leBytes 2 (o.dx + c.1)

/-- Copies made for the operation's transaction, among these granules, whose original proves uncorrectable when it is read (R323). -/
def State.badCopies (s : State) (ecc : Ecc) (h t : Nat) (gs : List Nat) : List Nat :=
  (((s.txn h t).map (·.copies)).getD []).filterMap (fun p =>
    if gs.contains p.2 && !isSpillId p.1 && !((s.dome.oddIn ecc (p.1 * 4096) 4096).filter (s.dome.wordBad ecc)).isEmpty then some p.2 else none)

/-- Poisoned words that the operation rewrites in all 16 bytes lose their poison (R290). -/
def Dome.cleanse (d : Dome) (addrs : List Nat) : Dome :=
  { d with poison := d.poison.filter (fun w => !(List.range 16).all (fun i => addrs.contains (16 * w + i))) }

/-- TWD_DONE: the originals of the staged copies and the source are read, then the whole rectangle is written; a destination word that would receive a byte of an uncorrectable source word is written poisoned, and the status is then ERR_MEMORY (R323). The fault names the first element, in the engine's order, with an uncorrectable source word, or else the first one in a copy with an uncorrectable original (DESIGN CHOICE, log 26). -/
def State.twdDoneRow (s : State) (h : Nat) (ecc : Ecc) : State :=
  match s.twdOp h with
  | none => s
  | some o =>
    if !o.writing then s
    else
      let df := (s.twdDstFmt h o).getD 0
      let sf := if o.op = 3 then 3 else df
      let gs := s.twdDstGrans h o
      let ws := s.twdWrites h o
      let touched := (ws.map (fun w => objAddr gs w.1.1 / 65536)).dedup
      let worse := if o.dKind = 2 then [] else s.badCopies ecc h o.txn touched
      let s0 := if o.dKind = 2 then s else s.checkCopies 2 ecc h o.txn touched
      let srcRanges := ws.filterMap (fun w => w.2.1.map (fun p => (objAddr o.sGrans p.1, elemBytes sf)))
      let ill (w : (Nat × Nat) × Option (Nat × Nat) × Option Nat) : Bool :=
        (w.2.1.map (fun p => s.dome.rangeBad ecc [(objAddr o.sGrans p.1, elemBytes sf)])).getD false
      let addrs := ws.flatMap (fun w => if w.2.2.isSome then (List.range (elemBytes df)).map (fun i => objAddr gs (w.1.1 + i)) else [])
      let hurt := ws.filter ill
      let bad := !hurt.isEmpty || o.origBad || !worse.isEmpty
      let s1 := s0.checkRead 2 ecc srcRanges
      let d1 := ws.foldl (fun d w => match w.2.2 with | some v => d.setElem gs df w.1 v | none => d) s1.dome
      let s2 : State := { s1 with dome := ((d1.cleanse addrs).touch gs).touch o.sGrans }
      let s3 := s2.poisonWords (hurt.map (fun w => objAddr gs w.1.1 / 16))
      let at_ (c : Nat × Nat) := ws.getD (c.2 * o.w + c.1) ((0, 0), none, none)
      let cell := ((o.order.find? (fun c => ill (at_ c))).or (o.order.find? (fun c => worse.contains (objAddr gs (at_ c).1.1 / 65536)))).getD (o.order.headD (0, 0))
      let s4 := if bad then s3.onBase (fun b => (b.fault (pgTWD h) 2 (o.detail cell)).raise (pgTWD h) 17) else s3
      (((s4.onBase (·.put (Reg.twdStatus_ROWS h) o.h)).twdEnd h (if bad then stMEMORY else stOK) o.op o.tag).refreshHost h).judge h

/-- TWD_SELF_CHECK: the operation stops with ERR_DEVICE, its transaction rolls back as by TX_ABORT, and the engine is FAULT until a unit reset (R322, R326). The element being written is a free value within the rectangle once writing has begun, and its first element before (log 10). -/
def State.twdFault (s : State) (h : Nat) : State :=
  match s.twdOp h with
  | none => if s.base.ownState (pgTWD h) = uREADY then s.onBase (fun b => (b.fault (pgTWD h) 1 []).setOwn (pgTWD h) uFAULT) else s
  | some o =>
    let cell := if o.writing then o.order.getD (Config.freeNat s.base.fresh % (o.w * o.h)) (0, 0) else o.order.headD (0, 0)
    let s1 := (s.abortTxn h o.txn s.rings.nextId stDEVICE).drainHost h
    (s1.onBase (fun b => (b.draw.fault (pgTWD h) 1 (o.detail cell)).setOwn (pgTWD h) uFAULT)).refreshHost h

/-- ALLOCATION_RESUME: the command at the front of a ring, or the host's 2D operation, that waits for granules proceeds if it can, or ends when nothing can free any. -/
def State.resumeTwd (s : State) (h : Nat) : State := s.twdStage h

end Sys2Proof.Machine
end

