-- ==== Sys2Proof/Machine/DomeUnit.lean ====
section
/-! DEFINITION. The Dome's own work (chapter 10): spilling and paging, zeroing, patrol scrub, frame retirement, stack loss, and the BAR2 windows. -/

namespace Sys2Proof.Machine

/-! ## Spill and page-in (R284 to R288) -/

/-- What the reads of a spill and of a retirement's copy find now: free (log 10), since no operand of their rows tells it. -/
def State.found (s : State) : Ecc := ⟨(Config.freeErrors s.base.fresh).1, (Config.freeErrors s.base.fresh).2⟩

/-- The words of a granule that its read for a spill finds uncorrectable. -/
def State.spillBad (s : State) (ecc : Ecc) (g : Nat) : List Nat := (s.dome.oddIn ecc (g * 4096) 4096).filter (s.dome.wordBad ecc)

/-- The bytes that a spill writes: those of a word that is uncorrectable are free values (log 26). -/
def State.spillBytes (s : State) (ecc : Ecc) (g : Nat) : List Byte :=
  (List.range 65536).map (fun i => if (s.spillBad ecc g).contains (g * 4096 + i / 16) then Config.freeByte (s.base.fresh + i) else s.dome.byte (g * 65536 + i))

/-- Some layer version with this granule in its ZT16 plane. -/
def State.reliefOf (s : State) (g : Nat) : Option Layer :=
  let ops (l : List SceneOp) : List Layer := l.filterMap (fun o => match o with | .layer _ v => v | _ => none)
  (s.scenes.live.layers.filterMap (·.2) ++ s.scenes.sealed.flatMap (fun t => ops t.ops) ++ (s.scenes.txns.filterMap (·.2)).flatMap (fun t => ops t.ops)).find?
    (fun l => l.gz.contains g)

/-- Writes one granule, read with its error check, to its host's spill area; its DRAM becomes FREE_DIRTY. Its uncorrectable words stay poisoned: the poison goes with the granule and comes back with it (DESIGN CHOICE, log 26: the spec does not say what becomes of a poisoned word that is spilled). -/
def State.spillOne (s : State) (ecc : Ecc) (g : Nat) : State :=
  let a := s.spillArea g
  match s.freeSlot a with
  | none => s
  | some k =>
    let bs := s.spillBytes ecc g
    let id := spillId a k
    let base := s.base.addr64 (Reg.domSpillLo a) (Reg.domSpillHi a)
    let s1 := ((s.checkBlock 3 ecc (g * 4096) 4096).poisonWords (s.spillBad ecc g)).onBase (fun b => { b with fresh := b.fresh + 65536 })
    let e := s1.dome.gran g
    let peak := ((s1.reliefOf g).map (fun l => l.peak s1.dome g)).getD 0
    let d := ((s1.dome.moveMarks g id).setGran id { e with res := .spilled (crc32c bs) }).freeGran g
    (({ s1 with dome := { d with peaks := sput (fun _ => 0) d.peaks id peak } } : State).renameGran g id).onBase (·.emit (.hostWrite a (base + k * 65536) bs))

/-- Up to `n` granules of one burst, in the order of R284, until the stop level. -/
def State.spillBurst (ecc : Ecc) : Nat → State → State
  | 0, s => s
  | n + 1, s =>
    if s.base.get Reg.domLow_HIGH * 64 ≤ s.dome.freeCount then s
    else match s.spillOrder with
      | [] => s
      | g :: _ => State.spillBurst ecc n (s.spillOne ecc g)

/-- Granules of a page that R294 must move: HELD, and RETIRING ones, which a 2D operation may still read. -/
def State.pageHeld (s : State) (page : Nat) : List Nat := ((List.range 32).map (· + page * 32)).filter (fun g => (s.dome.gran g).st == .held || (s.dome.gran g).st == .retiring)

/-- A move of R294 has its leave and finds too few free granules (the 32 of its own page are moved or free): it first spills (R294). -/
def State.moveShort (s : State) : Bool :=
  s.dome.retire.any (fun r => !r.copied && r.spare.isNone && s.holds ridRetire r.frame && !(s.pageHeld r.page).isEmpty && decide (s.dome.freeCount < 32))

/-- SPILL: begins below the start level, or when a move of R294 finds too few free granules (event SPILL), asks for leave, and with its leave writes a burst of up to 32 granules. -/
def State.spillRow (s : State) (ecc : Ecc) : State :=
  let s1 := if !s.dome.spilling && (decide (s.dome.freeCount < s.base.get Reg.domLow_LOW * 64) || s.moveShort) && !s.spillOrder.isEmpty then
      ({ s with dome := { s.dome with spilling := true } } : State).onBase (·.raise pgDOM 16) else s
  if !s1.dome.spilling then s1
  else if !s1.holds ridPaging 0 then s1.request ridPaging 0 4
  else
    let s2 := (s1.spillBurst ecc 32).release ridPaging 0
    if s2.base.get Reg.domLow_HIGH * 64 ≤ s2.dome.freeCount || s2.spillOrder.isEmpty then
      { s2 with dome := { s2.dome with spilling := false } } else s2

/-- Spilled granules that something needs (R286): pinned, read or written, or missed by BAR2. -/
def State.wanted (s : State) (g : Nat) : Bool :=
  isSpillId g && (s.dome.want.contains g || s.visiblePins.contains g || s.workPins.contains g || (s.dome.gran g).st == .retiring)

/-- SPILL_LOST for a granule (R286, R288). -/
def State.spillLost (s : State) (g host cause : Nat) : State :=
  s.onBase (·.fault pgDOM 4 (leBytes 4 g ++ leBytes 1 host ++ leBytes 1 cause))

/-- PAGE_IN: with its leave, a wanted granule takes a FREE_ZERO granule; a CRC mismatch, a failed read or a lost slot makes it arrive poisoned. -/
def State.pageInRow (s : State) (g : Nat) (reply : HostRead) : State :=
  let e := s.dome.gran g
  if !s.wanted g || e == Granule.free0 then s
  else if !s.holds ridPaging 0 then s.request ridPaging 0 4
  else if s.dome.freeZero = 0 then s
  else
    let area := g / 2 ^ 21 - 1
    let base := s.base.addr64 (Reg.domSpillLo area) (Reg.domSpillHi area)
    let r := s.dome.take e.host e.kind e.hand e.index
    let m := ((({ r.2 with want := r.2.want.filter (· != g) } : Dome).setGran r.1 { r.2.gran r.1 with st := e.st }).setGran g Granule.free0).moveMarks g r.1
    let d : Dome := { m with peaks := sput (fun _ => 0) m.peaks r.1 0 }
    let asked := if e.res = .lost then s else s.onBase (·.emit (.hostRead area (base + g % 2 ^ 21 * 65536) 65536))
    let s1 := (({ asked with dome := d } : State).renameGran g r.1).release ridPaging 0
    let good := match e.res, reply with
      | .spilled c, .data bs => bs.length == 65536 && crc32c bs == c
      | _, _ => false
    let s2 := match good, reply with
      | true, .data bs => { s1 with dome := { s1.dome.write (r.1 * 65536) bs with poison := s1.dome.poison } }
      | _, _ =>
        let cause := match e.res, reply with | .spilled _, .data _ => 0 | .spilled _, .fail _ => 1 | _, _ => 2
        let s3 := (s1.poisonWords ((List.range 4096).map (· + r.1 * 4096))).spillLost r.1 e.host cause
        match reply with
        | .fail c => if cause = 1 then s3.onBase (·.dmaError area (some 3) c.val) else s3
        | _ => s3
    (List.range 4).foldl State.judge s2

/-- The area number under which LOST granules lie: they hold no slot of any host's spill area (R288). -/
abbrev lostArea : Nat := 4

/-- A spilled granule becomes LOST: its slot is given up. -/
def State.loseGran (s : State) (g : Nat) : State :=
  match (List.range (s.dome.slotsUsed lostArea + 1)).find? (fun k => s.dome.gran (spillId lostArea k) == Granule.free0) with
  | none => s
  | some k =>
    let id := spillId lostArea k
    let d := ((s.dome.setGran id { s.dome.gran g with res := .lost }).setGran g Granule.free0).moveMarks g id
    ({ s with dome := { d with want := renameList g id d.want } } : State).renameGran g id

/-- A link reset of a host (R288): its spilled granules are LOST, its spill area and windows are gone. -/
def State.domeLinkReset (s : State) (h : Nat) : State :=
  let gs := (s.dome.grans.filter (fun e => isSpillId e.1 && e.1 / 2 ^ 21 != lostArea + 1 && (e.2.host == h || e.1 / 2 ^ 21 == h + 1))).map (·.1)
  (gs.foldl State.loseGran s).onBase (fun b => (List.range 8).foldl (fun b w => (b.setWord (Reg.domWinObj h w) 0).setWord (Reg.domWinOff h w) 0)
    (b.put (Reg.domSpillSize_SLOTS h) 0))

/-! ## Zeroing and reclaim (R278, R281) -/

/-- ZERO_FILL: a FREE_DIRTY granule is zeroed and becomes FREE_ZERO. -/
def State.zeroFillRow (s : State) (g : Nat) : State :=
  if (s.dome.gran g).st = .freeDirty then { s with dome := (s.dome.wipe (g * 65536) 65536).setGran g Granule.free0 } else s

/-- RETIRING granules whose last subframe has been scanned out become FREE_DIRTY, but those a DECODE or a 2D operation still reads (R281, R147, R306). -/
def State.reclaim (s : State) : State :=
  let keep := s.readNow
  { s with dome := s.dome.freeMany ((s.dome.grans.filter (fun e => e.2.st == .retiring && !keep.contains e.1)).map (·.1)) }

/-! ## Scrub and retirement (R292 to R295) -/

/-- The logical page that a frame carries. -/
def Dome.pageOf (d : Dome) (f : Nat) : Option Nat :=
  match d.map.find? (fun e => e.2 == f) with
  | some e => some e.1
  | none => if d.frameOf f = f then some f else none

/-- Device ticks between two bursts: PERIOD minutes over 65,536 frames. -/
def scrubGap (period : Nat) : Nat := period * 60 * 625000000 / 65536

/-- SCRUB_BURST: when the next burst is due and has its leave, one frame is read; a pass with CE_THR corrected words retires it. -/
def State.scrubRow (s : State) (ecc : Ecc) : State :=
  let p := s.base.get Reg.domScrub_PERIOD
  if p = 0 || s.base.ticks < s.dome.scrubTick + scrubGap p then s
  else if !s.holds ridScrub 0 then s.request ridScrub 0 2
  else
    let f := s.dome.scrubAt
    let s1 := ({ s with dome := { s.dome with scrubAt := (f + 1) % 65536, scrubTick := s.base.ticks } } : State).release ridScrub 0
    if s.dome.retired.contains f then s1
    else match s.dome.pageOf f with
      | none => s1
      | some page =>
        let ws := s.dome.oddIn ecc (page * 131072) 131072
        let s2 := s1.checkBlock 4 ecc (page * 131072) 131072
        let ces := ws.filter (fun w => !s.dome.wordBad ecc w)
        if s.base.get Reg.domScrub_CE_THR ≤ ces.length then s2.startRetire page 0 [] else s2

/-- The copy of a retirement has read these granules or its page: words that prove uncorrectable arrive poisoned (R293). The reader of its UE faults is the scrub's code 4 (DESIGN CHOICE, log 26: Table 10.6 names none for it; R296 puts both into the maintenance class). -/
def State.retireCopy (s : State) (ecc : Ecc) (r : Retirement) (blocks : List (Nat × Nat)) : State :=
  let bad := blocks.flatMap (fun b => (s.dome.oddIn ecc b.1 b.2).filter (s.dome.wordBad ecc))
  ((blocks.foldl (fun x b => x.checkBlock 4 ecc b.1 b.2) s).poisonWords (r.ue ++ bad)).onBase Base.draw

/-- RETIRE: the copy of the oldest retirement that has its leave completes. With a spare frame, its uncorrectable words arrive poisoned; without, the granules of the page are given places elsewhere (R294) once enough are FREE_ZERO. -/
def State.retireRow (s : State) (ecc : Ecc) : State :=
  match s.dome.retire.find? (fun r => !r.copied && s.holds ridRetire r.frame) with
  | none => s
  | some r =>
    let done (x : State) (mv : List (Nat × Nat)) : State :=
      { x with dome := { x.dome with retire := x.dome.retire.map (fun q => if q.frame = r.frame then { q with copied := true, moves := mv } else q) } }
    match r.spare with
    | some _ => (done (s.retireCopy ecc r [(r.page * 131072, 131072)]) []).release ridRetire r.frame
    | none =>
      let gs := s.pageHeld r.page
      if s.dome.zeroOutside (r.page :: (s.dome.withdrawn ++ s.dome.leaving)).dedup < gs.length then s
      else
        let s1 := done (s.retireCopy ecc r (gs.map (fun g => (g * 4096, 4096)))) []
        let step (p : Dome × List (Nat × Nat)) (g : Nat) : Dome × List (Nat × Nat) :=
          let e := p.1.gran g
          let t := p.1.take e.host e.kind e.hand e.index
          (t.2, p.2 ++ [(g, t.1)])
        let q := gs.foldl step (s1.dome, [])
        (done { s1 with dome := q.1 } q.2).release ridRetire r.frame

/-- One move of R294 at the switch: the granule and what names it go to the new number; one that has been freed meanwhile needs no place any more. -/
def State.moveGran (s : State) (m : Nat × Nat) : State :=
  let e := s.dome.gran m.1
  if e.st = .held ∨ e.st = .retiring then
    ({ s with dome := ((s.dome.copyGran m.1 m.2).setGran m.2 e).setGran m.1 Granule.free0 } : State).renameGran m.1 m.2
  else { s with dome := s.dome.freeGran m.2 }

/-- At a subframe start the map entries of copied frames switch (R293); a page without a spare frame gives its granules up and is withdrawn (R294). Fault FRAME_RETIRED and event RETIRE. -/
def State.switchOne (s : State) (r : Retirement) : State :=
  let s1 := match r.spare with
    | some p => { s with dome := { s.dome with map := sput id s.dome.map r.page (s.dome.frameOf p) } }
    | none =>
      let x := r.moves.foldl State.moveGran s
      { x with dome := { x.dome with withdrawn := setInsert x.dome.withdrawn r.page } }
  let new := match r.spare with | some p => s.dome.frameOf p | none => 0xFFFF
  ({ s1 with dome := { s1.dome with retired := setInsert s1.dome.retired r.frame } } : State).onBase (fun b =>
    (b.fault pgDOM 1 (leBytes 2 r.frame ++ leBytes 2 r.page ++ leBytes 1 r.cause ++ [0] ++ leBytes 2 new)).raise pgDOM 18)

def State.switchFrames (s : State) : State :=
  let rs := s.dome.retire.filter (·.copied)
  rs.foldl State.switchOne { s with dome := { s.dome with retire := s.dome.retire.filter (fun r => !r.copied) } }

/-- STACK_DOWN (R295). -/
def State.stackDownRow (s : State) (k : Nat) : State :=
  if s.dome.downStack.contains k then s
  else ({ s with dome := { s.dome with downStack := setInsert s.dome.downStack k } } : State).onBase (fun b => (b.fault (pgSTK k) 1 []).setOwn (pgSTK k) uFAULT)

/-! ## BAR2 (R298 to R300) -/

/-- What host h sees of the object that a DOM_WIN_OBJ value names: granule list, size in bytes, and whether the host may write it (Table 10.3); none: no object that it may name. -/
def State.objectOf (s : State) (h w : Nat) : Option (List Nat × Nat × Bool) :=
  let kind := bits w 31 30
  let oh := bits w 29 28
  let staged := bits w 24 24 == 1
  let t := bits w 23 16
  let hand := bits w 15 0
  let key := objKey oh hand
  let open_ (t : Nat) : Bool := ((s.txn oh t).map (fun x => !x.closing)).getD false
  if kind = 0 then none
  else if kind = 3 then
    match s.upl oh hand with
    | none => none
    | some u =>
      if oh = h && open_ u.txn then some (u.grans, u.size, true)
      else if h = s.base.owner then some (u.grans, u.size, false) else none
  else
    let sc := if staged then s.view oh t else s.scenes.live
    match sc.layer key with
    | none => none
    | some l =>
      let shared := ((sc.ctx l.ctx).map (·.shared)).getD false
      let ok := if staged then oh == h && open_ t else oh == h || h == s.base.owner || (oh == s.base.owner && shared)
      if ok && !(kind == 2 && l.kind != 1) then some (l.grans (kind - 1), l.planeBytes (kind - 1), false) else none

/-- What a window shows; none: the access misses. -/
def State.windowObject (s : State) (h w : Nat) : Option (List Nat × Nat × Bool) := s.objectOf h (s.base.word (Reg.domWinObj h w)).toNat

/-- The byte offset in the object that a BAR2 offset names (R298). -/
def State.windowOff (s : State) (h off : Nat) : Nat := s.base.get (Reg.domWinOff_OFF h (off / 2 ^ 25 % 8)) * 2 ^ 25 + off % 2 ^ 25

/-- A miss is counted. -/
def State.bar2Miss (s : State) : State := s.onBase (·.count Reg.domBar2Miss_COUNT 1)

/-- The granules of a byte range. -/
def granRange (gs : List Nat) (off n : Nat) : List Nat := (granIdx off n).map (fun i => gs.getD i 0)

/-- BAR2_READ: object bytes, poisoned when a word is uncorrectable; a miss returns all ones and starts a page-in when a granule is spilled. -/
def State.bar2ReadRow (s : State) (h off len : Nat) (ecc : Ecc) : State :=
  let ones := s.bar2Miss.onBase (·.emit (.bar2Data h (List.replicate len 0xFF) false))
  match s.windowObject h (off / 2 ^ 25 % 8) with
  | none => ones
  | some (gs, size, _) =>
    let o := s.windowOff h off
    if size < o + len then ones
    else
      let sp := (granRange gs o len).filter isSpillId
      if !sp.isEmpty then { ones with dome := { ones.dome with want := (ones.dome.want ++ sp).dedup } }
      else
        let rs := objRanges gs o len
        let bad := s.dome.rangeBad ecc rs
        let s1 := (s.checkRead 5 ecc rs).onBase (·.emit (.bar2Data h (s.dome.objBytes gs o len) bad))
        { s1 with dome := s1.dome.touch (granRange gs o len) }

/-- A poisoned write on a host's link enters its violation log as LINK (R453): AER bit 12, with a free header. -/
def Base.poisonedWrite (b : Base) (h : Nat) : Base :=
  ({ b with fresh := b.fresh + 12 } : Base).linkViolation h 12 ((List.range 12).map (fun i => Config.freeByte (b.fresh + i)))

/-- What a BAR2 write does to memory: it stores into an upload of an OPEN transaction of the host; any other write is ignored and counted; a poisoned write leaves every 16-byte word it meets poisoned (Table 16.5). -/
def State.bar2Store (s : State) (h off : Nat) (bs : List Byte) (poisoned : Bool) : State :=
  match s.windowObject h (off / 2 ^ 25 % 8) with
  | none => s.bar2Miss
  | some (gs, size, wr) =>
    let o := s.windowOff h off
    if !wr || decide (size < o + bs.length) then s.bar2Miss
    else
      let sp := (granRange gs o bs.length).filter isSpillId
      if !sp.isEmpty then { s.bar2Miss with dome := { s.bar2Miss.dome with want := (s.dome.want ++ sp).dedup } }
      else if poisoned then s.poisonWords (wordsOf (objRanges gs o bs.length))
      else { s with dome := (s.dome.objWrite gs o bs).touch (granRange gs o bs.length) }

/-- BAR2_WRITE. -/
def State.bar2WriteRow (s : State) (h off : Nat) (bs : List Byte) (poisoned : Bool) : State :=
  let s1 := s.bar2Store h off bs poisoned
  if poisoned then s1.onBase (·.poisonedWrite h) else s1

/-- A host may name an object that exists and that Table 10.3 shows it, or none (R299). -/
def State.mayName (s : State) (h w : Nat) : Bool := bits w 31 30 == 0 || (s.objectOf h w).isSome

/-- A write of DOM_WIN_OBJ: refused when it names an object outside Table 10.3. -/
def State.winObjWrite (s : State) (h w : Nat) (a : RegWr) : State :=
  let key := Reg.domWinObj h w
  let new := mergeBytes (s.base.word key).toNat a.val.toNat a.be
  match s.base.regWrite key 0 a with
  | .refused b => { s with base := b }
  | .applied b _ _ _ _ => if s.mayName h new then { s with base := b } else s.onBase (·.refuse a.host.toNat key vNOTPERM a.val)

end Sys2Proof.Machine
end

