-- ==== Sys2Proof/Machine/Geometry.lean ====
section
/-! DEFINITION. The Compass (chapter 3): the phase formula, disparity, depth bounds, the seal checks of the geometry, and the words of the live geometry. Functions take the geometry as a table of register words, so that the Spire can use the words fixed at a cut (R158). -/

namespace Sys2Proof.Machine

abbrev pgCMP : Nat := 0x041

/-- A geometry register of a table of words. -/
def geo (g : Sparse (BitVec 32)) (key : Nat) : Nat := (sget coldWord g key).toNat

/-- The field of a geometry register. -/
def geoF (g : Sparse (BitVec 32)) (f : FieldRef) : Nat := bits (geo g f.key) f.msb f.lsb

/-- K[v] (R78). -/
def geoK (g : Sparse (BitVec 32)) (v : Nat) : Int :=
  toSigned 16 (bits (geo g (Reg.cmpK (v / 2))) (if v % 2 = 0 then 15 else 31) (if v % 2 = 0 then 0 else 16))

/-- Entry e of the lens-correction table (R72). -/
def geoLct (g : Sparse (BitVec 32)) (e : Nat) : Int :=
  toSigned 16 (bits (geo g (Reg.cmpLct (e / 2))) (if e % 2 = 0 then 15 else 31) (if e % 2 = 0 then 0 else 16))

/-- Node (row, col) of the table (R69). -/
def geoNode (g : Sparse (BitVec 32)) (row col : Nat) : Int := geoLct g (31 * row + col)

/-- KMAX: the largest |K[v]| (R78). -/
def geoKmax (g : Sparse (BitVec 32)) : Nat := (List.range 128).foldl (fun a v => max a (geoK g v).natAbs) 0

/-- The bilinear lens correction, in 24 fraction bits (R65; the shift is arithmetic). -/
def lctCorr (g : Sparse (BitVec 32)) (x y : Nat) : Int :=
  let gx := x / 512
  let fx : Int := (x % 512 : Nat)
  let gy := y / 512
  let fy : Int := (y % 512 : Nat)
  let top := geoNode g gy gx * (512 - fx) + geoNode g gy (gx + 1) * fx
  let bot := geoNode g (gy + 1) gx * (512 - fx) + geoNode g (gy + 1) (gx + 1) * fx
  (top * (512 - fy) + bot * fy) / 64

/-- The view coordinate w of a subpixel (R65). -/
def compassW (g : Sparse (BitVec 32)) (x y c : Nat) : Nat :=
  let cc := if geoF g Reg.cmpCtrl_BGR = 1 then 2 - c else c
  let pitch := geo g Reg.cmpPitch
  let pos : Int := ((3 * x + cc : Nat) : Int) * 2 ^ 24 + (y : Int) * toSigned 32 (geo g Reg.cmpSlant) + (geo g Reg.cmpOffset : Nat)
    + (if geoF g Reg.cmpCtrl_LCT_EN = 1 then lctCorr g x y else 0)
  let r := (pos % (pitch : Int)).toNat
  let w := (r * 2 ^ 16 / pitch) % 2 ^ 16
  if geoF g Reg.cmpCtrl_MIRROR = 1 then 0xFFFF - w else w

/-- A depth clamped to ±DMAX (R74). -/
def clampDepth (dmax : Nat) (d : Int) : Int := max (-(dmax : Int)) (min (dmax : Int) d)

/-- The disparity of a depth, in 1/256 pixel, truncated toward zero (R75). -/
def disparity (dmax : Nat) (k d : Int) : Int := Int.tdiv (clampDepth dmax d * k) 256

/-- The largest clamped depth magnitude of a layer (R79). -/
def Layer.maxDepth (l : Layer) (d : Dome) (dmax : Nat) : Nat := (l.depths d).foldl (fun a z => max a (clampDepth dmax z).natAbs) 0

/-- The maximum disparity of a layer in whole pixels (R79). -/
def Layer.maxDisp (l : Layer) (d : Dome) (dmax kmax : Nat) : Nat := (l.maxDepth d dmax * kmax + 65535) / 65536

/-- The 1,116-byte node array (R72). -/
def lctBytes (g : Sparse (BitVec 32)) : List Byte := (List.range 279).flatMap (fun j => leBytes 4 (geo g (Reg.cmpLct j)))

/-- The geometry breaks R63, the least pitch or R81 (R83: REJ_RANGE). -/
def geoRangeBad (g : Sparse (BitVec 32)) : Bool :=
  let w := geoF g Reg.cmpSize_WIDTH
  let h := geoF g Reg.cmpSize_HEIGHT
  w % 128 != 0 || decide (w < 3840 ∨ 15360 < w) || h % 8 != 0 || decide (h < 2160 ∨ 8640 < h) ||
    decide (geo g Reg.cmpPitch < 0x04000000) || decide (16777216 < geoF g Reg.cmpDmax_DMAX * geoKmax g)

/-- The lens table fails its CRC while it is enabled (R83: REJ_FORMAT, LCT_REJECT). -/
def geoLctBad (g : Sparse (BitVec 32)) : Bool := geoF g Reg.cmpCtrl_LCT_EN == 1 && crc32 (lctBytes g) != geo g Reg.cmpLctCrc

/-- The RWS words of the Compass page. -/
def cmpKeys : List Nat :=
  [Reg.cmpCtrl, Reg.cmpSize, Reg.cmpPitch, Reg.cmpSlant, Reg.cmpOffset, Reg.cmpDmax, Reg.cmpLctId, Reg.cmpLctCrc]
    ++ (List.range 64).map Reg.cmpK ++ (List.range 279).map Reg.cmpLct

/-- The live geometry words of a register table. -/
def Base.geometry (b : Base) : Sparse (BitVec 32) := b.regs.filter (fun e => e.1 / 4096 == pgCMP && decide (e.1 < 2 ^ 22) && decide (0x40 ≤ e.1 % 4096))

end Sys2Proof.Machine
end

