-- ==== Sys2Proof/Machine/Render.lean ====
section
/-! DEFINITION. The ray of the Spire (chapter 6, R160 to R168): a pure function of the frame's inputs, the slot and the memory lines that cannot be corrected. -/

namespace Sys2Proof.Machine

/-- Expansion of 8-bit and 2-bit samples, and the 10-bit product (R107). -/
def e8 (c : Nat) : Nat := c * 4 + c / 64
def e2 (a : Nat) : Nat := a * 341
def mul10 (a b : Nat) : Nat := (a * b + 511) / 1023

/-- The frame's inputs (R158): geometry, flat mode, KMAX and DMAX, the layers in composition order (R101), cap, prefilter, background, slot, memory, and the 128-byte lines that read as uncorrectable. -/
structure Frame where
  geom : Sparse (BitVec 32)
  flat : Bool
  dmax : Nat
  kmax : Nat
  lays : List Layer
  cap  : Nat
  pf   : Bool
  bg   : Nat
  slot : Nat
  dome : Dome
  bad  : List Nat
  deriving DecidableEq, Repr

/-- Texel (j, lv) of a layer in one channel: value and alpha with OPACITY (R107); transparent outside the row; grey and opaque in a line that cannot be corrected (R168). -/
def texel (f : Frame) (l : Layer) (j : Int) (lv ch : Nat) : Nat × Nat :=
  if j < 0 || decide ((l.width : Int) ≤ j) then (0, 0)
  else
    let u := j.toNat
    let t := lv / 32 * l.tw + u / 32
    let p := lv % 32 * 32 + u % 32
    let o := if l.format = 3 then t * 128 + lv % 32 * 4 + u % 32 / 8 else t * tileBytes l.format + p * bitsPer l.format / 8
    let a := objAddr l.gc o
    if f.bad.contains (a / 128) then (512, 1023)
    else
      let byte (k : Nat) : Nat := (f.dome.byte (a + k)).toNat
      let word (w : Nat) : Nat × Nat := (bits w (10 * ch + 9) (10 * ch), e2 (bits w 31 30))
      let (r, al) := match l.format with
        | 0 => (e8 (byte ch), e8 (byte 3))
        | 1 => word (byte 0 + byte 1 * 2 ^ 8 + byte 2 * 2 ^ 16 + byte 3 * 2 ^ 24)
        | 2 => (bits l.fg (10 * ch + 9) (10 * ch), mul10 (e8 (byte 0)) (e2 (bits l.fg 31 30)))
        | _ => word (if (byte 0).testBit (u % 8) then l.fg else l.bg)
      (r, mul10 al (e8 l.opacity))

/-- The address of corner (cx, cy). -/
def cornerAddr (l : Layer) (cx cy : Nat) : Nat := objAddr l.gz ((cy / 32 * l.gridW 1 + cx / 32) * 2048 + (cy % 32 * 32 + cx % 32) * 2)

/-- A corner value; 0 in a line that cannot be corrected (R168). -/
def cornerZ (f : Frame) (l : Layer) (cx cy : Nat) : Int := if f.bad.contains (cornerAddr l cx cy / 128) then 0 else l.corner f.dome cx cy

/-- A column of a layer row, kept inside it. -/
def clampCol (l : Layer) (u : Int) : Nat := (max 0 (min u ((l.width : Int) - 1))).toNat

/-- The interpolated depth of a RELIEF layer (R162). -/
def reliefDepth (f : Frame) (l : Layer) (u0 : Int) (lv : Nat) : Int :=
  let u := clampCol l u0
  let cx := u / 32
  let fx : Int := (u % 32 : Nat)
  let cy := lv / 32
  let fy : Int := (lv % 32 : Nat)
  let top := cornerZ f l cx cy * (32 - fx) + cornerZ f l (cx + 1) cy * fx
  let bot := cornerZ f l cx (cy + 1) * (32 - fx) + cornerZ f l (cx + 1) (cy + 1) * fx
  (top * (32 - fy) + bot * fy + 512) / 1024

/-- The column of the second step of R162. -/
def reliefCol (f : Frame) (l : Layer) (x lv v : Nat) : Int :=
  let u : Int := (x : Int) - toSigned 16 l.x
  let d1 := clampDepth f.dmax (reliefDepth f l u lv)
  let q1 := if f.flat then 0 else Int.tdiv (d1 * geoK f.geom v) 256
  (u * 256 - q1 + 128) / 256

/-- Sample position in 1/256 pixel and clamped depth (R162). -/
def place (f : Frame) (l : Layer) (x lv v : Nat) : Int × Int :=
  let u : Int := (x : Int) - toSigned 16 l.x
  let d := clampDepth f.dmax (if l.kind = 1 then reliefDepth f l (reliefCol f l x lv v) lv else toSigned 16 l.depth)
  (u * 256 - (if f.flat then 0 else Int.tdiv (d * geoK f.geom v) 256), d)

/-- The kernel's half-width in 1/256 pixel (R163). -/
def halfWidth (f : Frame) (l : Layer) (dc : Int) (v ph : Nat) : Nat :=
  if !f.pf || l.kind == 2 then 256
  else
    let kl := geoK f.geom (if v = 0 then 0 else v - 1)
    let kr := geoK f.geom (if v = 127 then 127 else v + 1)
    let dk0 := (kr - kl).natAbs
    let dk := if v != 0 && v != 127 then dk0 / 2 else dk0
    let h := min 768 (dc.natAbs * dk / 256)
    let off := if 2048 < ph then ph - 2048 else 2048 - ph
    max 256 (min 768 (h + h * off / 4096))

/-- The columns and weights of a sample (R164). -/
def taps (pos : Int) (hf : Nat) : List (Int × Nat) :=
  ((List.range 7).map (fun (i : Nat) => (pos - (hf : Int)) / 256 + (i : Int))).filterMap (fun j =>
    let wt : Int := (hf : Int) - ((j * 256 - pos).natAbs : Int)
    if wt ≤ 0 then none else some (j, wt.toNat))

/-- A premultiplied channel value and alpha (R164). -/
def sample (f : Frame) (l : Layer) (lv : Nat) (pos : Int) (hf ch : Nat) : Nat × Nat :=
  let ts := (taps pos hf).map (fun t => (t.2, texel f l t.1 lv ch))
  let ws := (ts.map (·.1)).foldl (· + ·) 0
  let cs := (ts.map (fun t => t.1 * mul10 t.2.1 t.2.2)).foldl (· + ·) 0
  let as := (ts.map (fun t => t.1 * t.2.2)).foldl (· + ·) 0
  ((cs + ws / 2) / ws, (as + ws / 2) / ws)

/-- A layer covers a pixel (R161). -/
def covers (f : Frame) (l : Layer) (x y : Nat) : Bool :=
  let lv : Int := (y : Int) - toSigned 16 l.y
  let m : Int := ((l.maxDisp f.dome f.dmax f.kmax + 3 : Nat) : Int)
  l.visible && l.opacity != 0 && decide (0 ≤ lv ∧ lv < (l.height : Int)) &&
    decide (toSigned 16 l.x - m ≤ (x : Int) ∧ (x : Int) < toSigned 16 l.x + (l.width : Int) + m)

/-- Accumulated colour and alpha of the three channels, and the demand. -/
structure RayAcc where
  c : List Nat
  a : List Nat
  d : Nat
  deriving DecidableEq, Repr

/-- The views and phases of a pixel's subpixels in a slot (R60, R160). -/
def rayViews (f : Frame) (x y : Nat) : List (Nat × Nat) :=
  (List.range 3).map (fun c => let w := compassW f.geom x y c; (8 * (w / 4096) + f.slot, w % 4096))

/-- One layer composited under the ray so far (R160, R165). -/
def rayLayer (f : Frame) (x y : Nat) (vs : List (Nat × Nat)) (r : RayAcc) (l : Layer) : RayAcc :=
  if r.a.all (· == 1023) then r
  else
    let lv := ((y : Int) - toSigned 16 l.y).toNat
    let per := (List.range 3).map (fun c =>
      let v := vs.getD c (0, 0)
      let p := place f l x lv v.1
      let hf := halfWidth f l p.2 v.1 v.2
      (hf, sample f l lv p.1 hf c))
    let hmax := (per.map (·.1)).foldl max 0
    let t (c : Nat) : Nat := 1023 - r.a.getD c 0
    ⟨(List.range 3).map (fun c => r.c.getD c 0 + mul10 (per.getD c (0, 0, 0)).2.1 (t c)),
     (List.range 3).map (fun c => r.a.getD c 0 + mul10 (per.getD c (0, 0, 0)).2.2 (t c)),
     r.d + (if 512 < hmax then 2 else 1)⟩

/-- The candidates of a ray and whether more layers cover it than the cap (R160). -/
def rayLayers (f : Frame) (x y : Nat) : List Layer × Bool :=
  let cs := f.lays.filter (fun l => covers f l x y)
  (cs.take f.cap, decide (f.cap < cs.length))

/-- The colour word bits [29:0] of a ray, its demand, and whether the cap cut it (R160). -/
def renderRay (f : Frame) (x y : Nat) : Nat × Nat × Bool :=
  let cand := rayLayers f x y
  let r := cand.1.foldl (rayLayer f x y (rayViews f x y)) ⟨[0, 0, 0], [0, 0, 0], 0⟩
  let col (c : Nat) : Nat := r.c.getD c 0 + mul10 (bits f.bg (10 * c + 9) (10 * c)) (1023 - r.a.getD c 0)
  (col 0 + col 1 * 2 ^ 10 + col 2 * 2 ^ 20, if r.d = 0 then 1 else r.d, cand.2)

/-- The memory addresses that a ray's layers read: texels of every tap, and corners (R162, R164). A layer under an opaque stack is not read. -/
def rayReads (f : Frame) (x y : Nat) : List Nat :=
  let vs := rayViews f x y
  let step (p : RayAcc × List Nat) (l : Layer) : RayAcc × List Nat :=
    if p.1.a.all (· == 1023) then p
    else
      let lv := ((y : Int) - toSigned 16 l.y).toNat
      let corners (u : Int) : List Nat :=
        let c := clampCol l u / 32
        [cornerAddr l c (lv / 32), cornerAddr l (c + 1) (lv / 32), cornerAddr l c (lv / 32 + 1), cornerAddr l (c + 1) (lv / 32 + 1)]
      let here := (List.range 3).flatMap (fun c =>
        let v := vs.getD c (0, 0)
        let q := place f l x lv v.1
        let hf := halfWidth f l q.2 v.1 v.2
        let tx := (taps q.1 hf).filterMap (fun t =>
          if t.1 < 0 || decide ((l.width : Int) ≤ t.1) then none
          else
            let u := t.1.toNat
            let tl := lv / 32 * l.tw + u / 32
            some (objAddr l.gc (if l.format = 3 then tl * 128 + lv % 32 * 4 + u % 32 / 8 else tl * tileBytes l.format + (lv % 32 * 32 + u % 32) * bitsPer l.format / 8)))
        if l.kind = 1 then tx ++ corners ((x : Int) - toSigned 16 l.x) ++ corners (reliefCol f l x lv v.1) else tx)
      (rayLayer f x y vs p.1 l, p.2 ++ here)
  ((rayLayers f x y).1.foldl step (⟨[0, 0, 0], [0, 0, 0], 0⟩, [])).2

/-- The live layers in composition order: descending STACK, then ascending host and handle (R101). -/
def compositionOrder (layers : Sparse (Option Layer)) : List Layer :=
  (layers.filterMap (·.2)).mergeSort (fun a b => decide (b.stack ≤ a.stack))

/-- XOR of bits [29:0] of a word. -/
def parity30 (w : Nat) : Nat := ((List.range 30).map (fun i => if w.testBit i then 1 else 0)).foldl (· + ·) 0 % 2

/-- A buffer word for subframe j: LPAR makes the XOR of bits [29:0] and LPAR equal (j >> 1) & 1; STALE is 0 (R192, R193). -/
def bufferWord (col j : Nat) : BitVec 32 := BitVec.ofNat 32 (col + ((parity30 col + j / 2) % 2) * 2 ^ 31)

/-- The check of R193. -/
def lparOk (w : BitVec 32) (j : Nat) : Bool := (parity30 w.toNat + w.toNat / 2 ^ 31) % 2 == j / 2 % 2

/-- The CRC of line y in slot s (R207). -/
def lineCrc (y s : Nat) (words : List (BitVec 32)) : Nat :=
  crc32c (leBytes 2 y ++ leBytes 1 s ++ [0] ++ words.flatMap (fun w => leBytes 4 (w.toNat % 2 ^ 30)))

end Sys2Proof.Machine
end

