-- ==== Sys2Proof/Machine/Units.lean ====
section
/-! DEFINITION. Register writes with staging (R45 to R53), UNIT_CTRL with its enable and unit reset (Table 2.3), and the parts of a configuration transaction that every unit shares: staging, the value a seal would make live, completion, application at a cut and at slot 0. -/

namespace Sys2Proof.Machine

/-! ## Staged registers -/

/-- The staged word of a key, if any. -/
def State.stagedWord (s : State) (k : Nat) : Option (BitVec 32) := sget (fun _ => none) s.cfg.staged k

/-- The value that a key would take at the cut of the transaction: staged, else waiting for slot 0, else in force (R83). -/
def State.sealWord (s : State) (k : Nat) : BitVec 32 :=
  match s.stagedWord k with
  | some w => w
  | none => (sget (fun _ => none) s.cfg.slot0 k).getD (s.base.word k)

/-- A field of the value that would become live. -/
def State.sealGet (s : State) (f : FieldRef) : Nat := getBits (s.sealWord f.key) f.msb f.lsb

/-- The registers staged in the transaction. -/
def State.stagedKeys (s : State) : List Nat := s.cfg.staged.map (·.1)

/-- Host h holds the open transaction (R49). -/
def State.holdsCfg (s : State) (h : Nat) : Bool := s.base.holdsOpen h

/-- CFG_REFUSED (Table 9.9). -/
def State.cfgRefuse (s : State) (h op page off : Nat) : State :=
  let holder := if s.base.flag Reg.cfgStatus_OPEN || s.base.flag Reg.cfgStatus_SEALED then s.base.get Reg.cfgStatus_HOLDER else 0xFF
  s.onBase (·.violation h 0 vCFG (leBytes 1 holder ++ leBytes 1 op ++ leBytes 2 page ++ leBytes 2 off))

/-- A write of RWS fields goes to the staged copy of the open transaction's holder; from any other host it is refused (R49). -/
def State.stageRws (s : State) (h key w : Nat) : State :=
  if s.holdsCfg h then
    let st := sput (fun _ => none) s.cfg.staged key (some (BitVec.ofNat 32 w))
    ({ s with cfg := { s.cfg with staged := st } } : State).onBase (·.put Reg.cfgStatus_STAGED (min 4095 st.length))
  else s.cfgRefuse h 0xFF (key / 4096) (key % 4096)

/-- A register write: refused, or its fields written and staged and the register's own effect `k` (bits written in W1S and WO fields, the word before and after). -/
def State.write (s : State) (key : Nat) (a : RegWr) (k : Nat → Nat → Nat → State → State) : State :=
  match s.base.regWrite key (s.sealWord key).toNat a with
  | .refused b => { s with base := b }
  | .applied b act old new rws =>
    let s1 : State := { s with base := b }
    k act old new (match rws with | none => s1 | some w => s1.stageRws a.host.toNat key w)

/-- A register write without an effect of its own. -/
def State.plainWrite (s : State) (key : Nat) (a : RegWr) : State := s.write key a (fun _ _ _ x => x)

/-- A write that a chapter forbids in this state: refused as NOT_PERMITTED when `bad` holds and the write is otherwise permitted. -/
def State.guardedWrite (s : State) (key : Nat) (a : RegWr) (bad : Bool) (k : Nat → Nat → Nat → State → State) : State :=
  if bad && s.base.visible a.host.toNat (key / 4096) && s.base.mayWrite a.host.toNat key then
    s.onBase (·.refuse a.host.toNat key vNOTPERM a.val)
  else s.write key a k

/-- The mask of a register's RWS fields. -/
def rwsMask (key : Nat) : Nat := ((descAt key).map (fun d => d.maskOf (· == .rws))).getD 0

/-- A staged word becomes live: its RWS fields, and no other bit of the register. -/
def State.applyRws (s : State) (key : Nat) (w : BitVec 32) : State :=
  let m := BitVec.ofNat 32 (rwsMask key)
  s.onBase (fun b => b.setWord key ((b.word key &&& ~~~m) ||| (w &&& m)))

/-- Pages whose staged values take effect at slot 0 of the frame (R198, R233, R359): scan-out, guard, Beacon and zones, ports and panel lanes. -/
def slot0Page (p : Nat) : Bool :=
  p == 0x042 || p == 0x043 || p == 0x049 || p == 0x04A || decide (0x050 ≤ p ∧ p < 0x074) || decide (0x080 ≤ p ∧ p ≤ 0x08C)

/-- A configuration transaction completes with a status (R47, R52, R53). -/
def State.cfgEnd (s : State) (status : Nat) : State :=
  ({ s with cfg := { s.cfg with staged := [], sealAt := 0, anyCut := false, target := none, strict := false, late := false } } : State).onBase (fun b =>
    ((((b.put Reg.cfgStatus_LAST status).putFlag Reg.cfgStatus_OPEN false).putFlag Reg.cfgStatus_SEALED false).put Reg.cfgStatus_STAGED 0).raise 0 16)

/-- The sealed transaction applies at a cut at E: a seal at the cut's own nanosecond waits for the next cut (R51); one re-examined after a SET does not compare its seal (R432). -/
def State.cfgDue (s : State) (cut : Nat) : Bool :=
  s.base.flag Reg.cfgStatus_SEALED &&
    (s.cfg.anyCut || (decide (s.cfg.sealAt < cut) && (s.cfg.late || (match s.cfg.target with | some t => decide (t ≤ cut) | none => true))))

/-- The staged values of a cut take effect: at once, or from slot 0. -/
def State.cfgApply (s : State) : State :=
  let put (x : State) (e : Nat × Option (BitVec 32)) : State :=
    match e.2 with
    | none => x
    | some w => if slot0Page (e.1 / 4096) then { x with cfg := { x.cfg with slot0 := sput (fun _ => none) x.cfg.slot0 e.1 (some w) } } else x.applyRws e.1 w
  s.cfg.staged.foldl put s

/-- The values that waited for slot 0 take effect. -/
def State.cfgSlot0 (s : State) : State :=
  let put (x : State) (e : Nat × Option (BitVec 32)) : State := match e.2 with | none => x | some w => x.applyRws e.1 w
  s.cfg.slot0.foldl put { s with cfg := { s.cfg with slot0 := [] } }

/-- After a SET is loaded, a waiting configuration transaction is examined again (R432). -/
def State.cfgReexamine (s : State) : State :=
  if !s.base.flag Reg.cfgStatus_SEALED then s
  else match s.cfg.target with
    | none => { s with cfg := { s.cfg with anyCut := true } }
    | some t =>
      if s.cfg.late then { s with cfg := { s.cfg with anyCut := true } }
      else if future32 t s.base.now then { s with cfg := { s.cfg with target := some (extend32 t s.base.E), sealAt := 0 } }
      else if s.cfg.strict then s.cfgEnd stSTATE
      else { s with cfg := { s.cfg with late := true, anyCut := true } }

/-! ## UNIT_CTRL -/

/-- A write of UNIT_CTRL: the effect of a changed ENABLE, then that of RESET; a page in NO_CLOCK stays in reset (R505). -/
def State.unitCtrl (s : State) (p : Nat) (a : RegWr) (onEnable : Bool → State → State) (onReset : State → State) : State :=
  s.write (hdr p 0x20) a (fun act old new x =>
    if s.base.ownState p = uNOCLOCK then x else
    let x1 := if old % 2 = new % 2 then x
      else onEnable (new % 2 == 1) (x.onBase (fun b => Base.stateEvents s.base b (ancestors 5 p)))
    if act.testBit 1 then onReset x1 else x1)

/-- UNIT_CTRL.RESET reads 1 from here until the unit reset completes. -/
def State.resetBegins (s : State) (p : Nat) : State := s.onBase (·.putFlag ⟨hdr p 0x20, 1, 1⟩ true)

/-- A unit reset completes; the root's does with the last that it started (Table 2.3). -/
def State.resetEnds (s : State) (p : Nat) : State :=
  s.onBase (fun b =>
    let b1 := b.putFlag ⟨hdr p 0x20, 1, 1⟩ false
    let left := b.rootWaits.filter (· != p)
    let b2 : Base := { b1 with rootWaits := left }
    if left.isEmpty && !b.rootWaits.isEmpty then b2.putFlag ⟨hdr 0 0x20, 1, 1⟩ false else b2)

/-- A unit reset of a page is in progress. -/
def State.inReset (s : State) (p : Nat) : Bool := s.base.flag ⟨hdr p 0x20, 1, 1⟩

/-- Sets the own state of a page that is powered: an OFF page stays OFF. -/
def State.setUnit (s : State) (p st : Nat) : State := if s.base.ownState p = uOFF then s else s.onBase (·.setOwn p st)

end Sys2Proof.Machine
end

