-- ==== Sys2Proof/Machine/Guard.lean ====
section
/-! DEFINITION. The freshness guard (chapter 8): ticks, the hand-over of a cut to slot 0, staleness at subframe starts, the veil of a word, table checks and the unit reset. -/

namespace Sys2Proof.Machine

abbrev pgFRS : Nat := 0x042

/-! ## Ticks (R221, R224, R225, R228) -/

/-- An age one millisecond later. -/
def ageUp (a : Nat) : Nat := min 0xFFFFFF (a + 1)

def StagedAge.up (a : StagedAge) : StagedAge := { a with age := ageUp a.age }

/-- A freshness tick: every AGE and staged age rises by 1, FRS_MS counts, and the overload window advances. -/
def State.freshTick (s : State) : State :=
  { s with
    guard := { s.guard with
      ctxs := s.guard.ctxs.map (fun e => (e.1, e.2.map (fun (c : GCtx) => { c with age := ageUp c.age })))
      next := s.guard.next.map (fun (n : GuardNext) => { n with ages := n.ages.map StagedAge.up }) }
    scenes := { s.scenes with
      txns := s.scenes.txns.map (fun e => (e.1, e.2.map (fun (t : Txn) => { t with ages := t.ages.map StagedAge.up })))
      sealed := s.scenes.sealed.map (fun t => { t with ages := t.ages.map StagedAge.up }) }
    rings := { s.rings with window := s.rings.window + 1 }
    base := s.base.put Reg.frsMs_TICKS (s.base.get Reg.frsMs_TICKS + 1) }

/-- One millisecond in 2⁻³² ns. -/
abbrev msAcc : Nat := 1000000 * 2 ^ 32

/-- 1.05 ms and 1.000 ms in device ticks (four to the always-on tick). -/
abbrev tickLate : Nat := 164063 * 4
abbrev tickLocal : Nat := 156250 * 4

/-- FRS_STATUS and FRS_SUMMARY follow the guard's tables (Table 8.5). -/
def State.guardRegs (s : State) : State :=
  let st := s.guard.regs.filterMap (fun e => e.2.bind (fun r => if r.stale then some (e.1, r) else none))
  let crit := st.filter (fun e => e.2.critical)
  let hosts (l : List (Nat × GReg)) : Nat := (List.range 4).foldl (fun a h => if l.any (fun e => e.1 / 65536 == h) then a + 2 ^ h else a) 0
  let global := !s.guard.badRegs.isEmpty
  s.onBase (fun b =>
    let b1 := ((b.putFlag Reg.frsStatus_GLOBAL global).put Reg.frsStatus_CRIT_STALE crit.length).put Reg.frsStatus_STALE st.length
    let bad := global || b1.flag Reg.frsStatus_TICK_LOCAL || b1.ownState pgFRS == uFAULT
    ((((b1.putFlag Reg.frsSummary_FAULT bad).putFlag Reg.frsSummary_CRIT (!crit.isEmpty)).putFlag Reg.frsSummary_ANY (!st.isEmpty)).put
      Reg.frsSummary_HOST_CRIT (hosts crit)).put Reg.frsSummary_HOST_STALE (hosts st))

/-- FRESHNESS_TICK: the accumulator has passed a millisecond. While the guard ticks locally, Sextant ticks are only watched; the 1,000th good one in a row is applied and ends local ticking. -/
def State.freshnessTickRow (s : State) : State :=
  if s.guard.accum < msAcc then s
  else
    let s1 : State := { s with guard := { s.guard with accum := s.guard.accum - msAcc, sxtAt := s.base.ticks } }
    if !s.base.flag Reg.frsStatus_TICK_LOCAL then ({ s1 with guard := { s1.guard with lastAt := s.base.ticks } } : State).freshTick
    else
      let run := if s.base.ticks ≤ s.guard.sxtAt + tickLate then s.guard.goodRun + 1 else 0
      if run < 1000 then { s1 with guard := { s1.guard with goodRun := run } }
      else
        ((({ s1 with guard := { s1.guard with goodRun := 0, lastAt := s.base.ticks } } : State).onBase (·.putFlag Reg.frsStatus_TICK_LOCAL false)).freshTick).guardRegs

/-- TICK_LOST: no tick for 1.05 ms; the guard ticks from the always-on count (R225). -/
def State.tickLostRow (s : State) : State :=
  if s.base.flag Reg.frsStatus_TICK_LOCAL || s.base.ownState pgFRS == uOFF || decide (s.base.ticks < s.guard.lastAt + tickLate) then s
  else
    let s1 : State := { s with guard := { s.guard with lastAt := s.base.ticks, goodRun := 0 } }
    ((s1.onBase (fun b => (((b.putFlag Reg.frsStatus_TICK_LOCAL true).count Reg.frsTickLost_COUNT 1).raise pgFRS 19).fault pgFRS 4 [])).freshTick).guardRegs

/-- Repeats a change. -/
def State.times (f : State → State) : Nat → State → State
  | 0, s => s
  | n + 1, s => State.times f n (f s)

/-- LOCAL_TICK: 156,250 always-on ticks after the last one. -/
def State.localTickRow (s : State) : State :=
  if !s.base.flag Reg.frsStatus_TICK_LOCAL || decide (s.base.ticks < s.guard.lastAt + tickLocal) then s
  else (({ s with guard := { s.guard with lastAt := s.guard.lastAt + tickLocal } } : State).onBase (·.count Reg.frsTickLost_COUNT 1)).freshTick

/-- The ticks that are due, which a subframe start on the same nanosecond applies first (R223). -/
def State.dueTicks (s : State) : State :=
  let s1 := (State.times State.freshnessTickRow (s.guard.accum / msAcc) s).tickLostRow
  State.times State.localTickRow ((s1.base.ticks - s1.guard.lastAt) / tickLocal) s1

/-! ## Veiled rectangles (R116, R117) -/

/-- The widening of a region: its visible layer's largest disparity, else the worst case over all depths; plus one pixel. A region whose layer was destroyed takes the layer that is LIVE under the handle by now (DESIGN CHOICE, log 51: R117 gives the worst case for a layer that is not LIVE and does not speak of a new one). -/
def widen (sc : Scene) (d : Dome) (dmax kmax : Nat) (r : Region) : Nat :=
  let m := match if r.layer = 0xFFFF then none else (sc.layer (objKey r.lhost r.layer)).filter (·.visible) with
    | some l => l.maxDisp d dmax kmax
    | none => (dmax * kmax + 65535) / 65536
  (m + 1) % 65536

/-- The veiled rectangle of a region on a panel of this size. -/
def veiledRect (sc : Scene) (d : Dome) (dmax kmax width height : Nat) (r : Region) : GReg :=
  let w := widen sc d dmax kmax r
  ⟨r.ctx, r.critical, min width (r.x - w), min width (r.x + r.w + w), min height r.y, min height (r.y + r.h), false⟩

/-! ## From the cut to slot 0 (R229, R233) -/

/-- What a cut hands to the guard: the scene's contexts and rectangles, the ages in sequencer order, what the commits touched. An earlier hand-over that no slot 0 has taken yet is joined. While the Compass is FAULT, rectangles keep the widening of the last cut before it (R241). -/
def State.guardHandOver (s : State) (ages : List StagedAge) (tctx treg : List Nat) : State :=
  let sc := s.scenes.live
  let keeps := s.base.ownState 0x041 == uFAULT
  let dmax := if keeps then s.guard.dmax else s.base.get Reg.cmpDmax_DMAX
  let kmax := if keeps then s.guard.kmax else s.base.get Reg.cmpKmax_KMAX
  let w := s.base.get Reg.cmpSize_WIDTH
  let h := s.base.get Reg.cmpSize_HEIGHT
  let gone := s.guard.gone.filter (fun k => !treg.contains k)
  let rects := (sc.regions.filter (fun e => !gone.contains e.1)).map (fun e => (e.1, e.2.map (veiledRect sc s.dome dmax kmax w h)))
  let old := s.guard.next.getD ⟨[], [], [], [], []⟩
  { s with guard := { s.guard with gone := gone, dmax := dmax, kmax := kmax, next := some ⟨sc.ctxs, rects, old.ages ++ ages, (old.tctx ++ tctx).dedup, (old.treg ++ treg).dedup⟩ } }

/-- A context as the guard takes it over: an older version of the same object keeps AGE and, unless a commit wrote it, its bad entry. A CTX_OPEN with UPDATE ends a bad entry but carries no age: AGE stays 0xFF_FFFF (DESIGN CHOICE, log 17: R238 does not say what AGE then is). -/
def takeCtx (old : Option GCtx) (touched : Bool) (c : Ctx) : GCtx :=
  match old with
  | some g => if g.oid = c.oid then { g with veil := c.veil, bound := c.bound, bad := g.bad && !touched } else ⟨c.oid, c.veil, c.bound, 0, false, false⟩
  | none => ⟨c.oid, c.veil, c.bound, 0, false, false⟩

/-- Slot 0 of the frame: contexts, regions and staged ages of the cut take effect. -/
def State.guardSlot0 (s : State) : State :=
  match s.guard.next with
  | none => s
  | some n =>
    let ctxs := n.ctxs.map (fun e => (e.1, e.2.map (takeCtx (sget (fun _ => none) s.guard.ctxs e.1) (n.tctx.contains e.1))))
    let aged := n.ages.foldl (fun (t : Sparse (Option GCtx)) a =>
      smod (fun _ => none) t a.key (fun o => o.map (fun c => if c.oid = a.oid then { c with age := a.age } else c))) ctxs
    let regs := n.regs.map (fun e => (e.1, e.2.map (fun r =>
      { r with stale := ((sget (fun _ => none) s.guard.regs e.1).map (·.stale)).getD false })))
    ({ s with guard := { s.guard with ctxs := aged, regs := regs, next := none, badRegs := s.guard.badRegs.filter (fun k => !n.treg.contains k) } } : State).guardRegs

/-! ## Staleness (R222, R237, R238, R243) -/

/-- A context is stale. -/
def GCtx.isStale (force : Bool) (c : GCtx) : Bool := c.bad || (c.bound != 0 && (force || decide (c.bound ≤ c.age)))

/-- The staleness judgement of a subframe start: contexts, regions, events, status, summary and the veil of this subframe. A region whose entry is bad in both copies counts neither in STALE and CRIT_STALE nor in the summary's host bits (DESIGN CHOICE, log 17: R244 is silent); its loss raises no FRESH while its context is stale. -/
def State.guardJudge (s : State) (start : Nat) : State :=
  let force := s.base.flag Reg.frsCtrl_FORCE_ALL
  let ctxs := s.guard.ctxs.map (fun e => (e.1, e.2.map (fun (c : GCtx) => { c with stale := c.isStale force })))
  let on (k : Nat) (r : GReg) : Bool := ((sget (fun _ => none) ctxs r.ctx).map (·.stale)).getD false && !s.guard.badRegs.contains k
  let regs := s.guard.regs.map (fun e => (e.1, e.2.map (fun (r : GReg) => { r with stale := on e.1 r })))
  let rose (p : GReg → Bool) : Bool := s.guard.regs.any (fun e => (e.2.map (fun r => p r && !r.stale && on e.1 r)).getD false)
  let old (r : GReg) : Bool := ((sget (fun _ => none) ctxs r.ctx).map (·.stale)).getD false
  let fell : Bool := s.guard.regs.any (fun e => (e.2.map (fun r => r.stale && !old r)).getD false)
  let mask := (if rose (fun _ => true) then 2 ^ 16 else 0) + (if rose (·.critical) then 2 ^ 17 else 0) + (if fell then 2 ^ 18 else 0)
  let mode (r : GReg) : Nat := match sget (fun _ => none) ctxs r.ctx with | some c => if c.bad then 0 else c.veil | none => 0
  let veil : Veil := ⟨regs.filterMap (fun e => e.2.bind (fun r => if r.stale then some (r, mode r) else none)), !s.guard.badRegs.isEmpty,
    start / 1000000 / 250 % 2 == 0, (s.base.word Reg.frsCritColor).toNat⟩
  let s1 : State := { s with guard := { s.guard with ctxs := ctxs, regs := regs, prev := s.guard.veil, veil := veil } }
  (if mask = 0 then s1 else s1.onBase (·.raiseMask pgFRS mask)).guardRegs

/-! ## The veil of a word (R234) -/

/-- The word lies in a veiled rectangle. -/
def GReg.covers (r : GReg) (x y : Nat) : Bool := decide (r.x0 ≤ x ∧ x < r.x1 ∧ r.y0 ≤ y ∧ y < r.y1)

/-- The word lies on the inner border of two pixels. -/
def GReg.border (r : GReg) (x y : Nat) : Bool := decide (x < r.x0 + 2 ∨ r.x1 ≤ x + 2 ∨ y < r.y0 + 2 ∨ r.y1 ≤ y + 2)

/-- The three channels of a word under a veil, and whether the veil covers it. Modes: 0 HATCH, 1 GREY, 2 BLINK_HATCH; a whole-panel hatch covers every word. -/
def Veil.word (v : Veil) (x y : Nat) (rgb : List Nat) : List Nat × Bool :=
  let here := v.regions.filter (fun r => r.1.covers x y)
  let grey := here.any (fun r => r.2 == 1)
  let hatch := v.global || here.any (fun r => r.2 == 0 || (r.2 == 2 && v.blink))
  let edge := here.any (fun r => r.1.critical && r.1.border x y)
  let out := (List.range 3).map (fun c =>
    let w := rgb.getD c 0
    if edge then bits v.crit (10 * c + 9) (10 * c)
    else if grey then 512
    else if hatch && decide ((x + y) % 16 < 8) then (w + 513) / 2 else w)
  (out, edge || grey || hatch)

/-! ## Integrity (R238, R239, R240) -/

/-- Detail of the copy faults. -/
def guardDetail (g : GuardBad) : List Byte := [BitVec.ofNat 8 g.host.toNat, if g.region then 1 else 0] ++ leBytes 2 g.handle.toNat

/-- One bad entry: repaired from the other copy, or stale (a context, from the next subframe start) or the whole panel hatched (a region, at once; DEDUCED, log 17). A region entry that the re-check of a unit reset finds bad in both copies is discarded (R240). -/
def State.guardBad (s : State) (g : GuardBad) : State :=
  let key := objKey g.host.toNat g.handle.toNat
  if !g.both then s.onBase (fun b => ((b.count Reg.frsCopyErr_COUNT 1).fault pgFRS 1 (guardDetail g)).raise pgFRS 20)
  else if g.region && s.guard.reset.isSome then
    (({ s with guard := { s.guard with
        gone := setInsert s.guard.gone key, regs := s.guard.regs.filter (fun e => e.1 != key)
        next := s.guard.next.map (fun (n : GuardNext) => { n with regs := n.regs.filter (fun e => e.1 != key) }) } } : State).onBase
      (·.fault pgFRS 3 (guardDetail g))).guardRegs
  else if g.region then
    let first := s.guard.badRegs.isEmpty
    let s1 := ({ s with guard := { s.guard with badRegs := setInsert s.guard.badRegs key, veil := { s.guard.veil with global := true } } } : State).onBase (·.fault pgFRS 3 (guardDetail g))
    (if first then s1.onBase (·.raise pgFRS 21) else s1).guardRegs
  else
    ({ s with guard := { s.guard with ctxs := s.guard.ctxs.map (fun e =>
        if e.1 = key then (e.1, e.2.map (fun (c : GCtx) => { c with bad := true, age := 0xFFFFFF })) else e) } } : State).onBase (·.fault pgFRS 2 (guardDetail g))

/-- GUARD_COPY_CHECK: the check of a light-field frame, the re-check of a unit reset, or a word found bad as it is read (R238, R240). -/
def State.guardCheckRow (s : State) (bad : List GuardBad) : State := bad.foldl State.guardBad { s with guard := { s.guard with checked := true } }

/-- A line whose two veil computations disagree: counted and logged; the second in a frame makes the guard FAULT (R239). -/
def State.veilDisagree (s : State) (j y : Nat) : State :=
  let n := s.guard.checks + 1
  let s1 := ({ s with guard := { s.guard with checks := n } } : State).onBase (fun b => (b.count Reg.frsVeilCheck_COUNT 1).fault pgFRS 5 (leBytes 4 j ++ leBytes 2 y))
  if n < 2 then s1 else (s1.onBase (fun b => (b.putFlag Reg.frsStatus_VEIL_DARK true).setOwn pgFRS uFAULT)).guardRegs

/-- A unit reset of the guard: entries bad in both copies are discarded at once, what its re-check finds arrives as GUARD_COPY_CHECK while it runs, and it ends at the next slot 0 (R240). -/
def State.guardReset (s : State) (testOk : Bool) : State :=
  (({ s with guard := { s.guard with
      reset := some testOk, gone := s.guard.badRegs.foldl setInsert s.guard.gone, badRegs := []
      regs := s.guard.regs.filter (fun e => !s.guard.badRegs.contains e.1)
      next := s.guard.next.map (fun (n : GuardNext) => { n with regs := n.regs.filter (fun e => !s.guard.badRegs.contains e.1) }) } } : State).resetBegins pgFRS).guardRegs

/-- The unit reset completes at slot 0: the guard leaves FAULT only if its veil test passed. -/
def State.guardResetEnd (s : State) : State :=
  match s.guard.reset with
  | none => s
  | some ok =>
    let s1 := ({ s with guard := { s.guard with reset := none } } : State).resetEnds pgFRS
    if ok then (({ s1 with guard := { s1.guard with checks := 0 } } : State).onBase (fun b => (b.putFlag Reg.frsStatus_VEIL_DARK false).setOwn pgFRS uBUSY)).guardRegs else s1

end Sys2Proof.Machine
end

