-- ==== Sys2Proof/Machine/Timeline.lean ====
section
/-! DEFINITION. The timeline of subframes and lines (R190, R191, R195, R198 to R200): where the next subframe starts, on the wall timeline, on a re-anchored one, or in the gap before the return. -/

namespace Sys2Proof.Machine

abbrev pgSCO : Nat := 0x043

/-- F in Hz of a rate code. -/
def hzOf (code : Nat) : Nat := match code with | 0 => 60 | 1 => 50 | _ => 40

/-- T_SUB in whole nanoseconds (R171, Table 7.1). -/
def tSub (code : Nat) : Nat := 1000000000 / (8 * hzOf code)

/-- V_TOTAL of a height (R191). -/
def vTotal (h : Nat) : Nat := h + ceilDiv (2 * h) 9

def Sco.height (c : Sco) : Nat := getBits c.size 31 16
def Sco.width (c : Sco) : Nat := getBits c.size 15 0

/-- Start of subframe i of the timeline in force (R190; the division rounds down). -/
def Sco.subAt (c : Sco) (i : Int) : Int := c.origin + i * 1000000000 / ((8 * hzOf c.rate : Nat) : Int)

/-- Start of line l of the current subframe (R190). -/
def Sco.lineAt (c : Sco) (l : Nat) : Int :=
  let v := vTotal c.height
  c.origin + (c.idx * (v : Int) + (l : Int)) * 1000000000 / ((8 * hzOf c.rate * v : Nat) : Int)

/-- An instant at a fraction a / 65,536 of the current subframe (R217). -/
def Sco.partAt (c : Sco) (a : Nat) : Int := c.startAt + ((a * 1000000000 / (65536 * 8 * hzOf c.rate) : Nat) : Int)

/-- T_EPOCH in force (R416). -/
def State.epoch (s : State) : Int := ((s.base.addr64 Reg.sxtEpochLo Reg.sxtEpochHi : Nat) : Int)

/-- The wall rate. -/
def State.wallRate (s : State) : Nat := s.base.get Reg.scoCtrl_RATE

/-- Start of subframe k of the wall timeline of a rate. -/
def wallStart (epoch : Int) (rate : Nat) (k : Int) : Int := epoch + k * 1000000000 / ((8 * hzOf rate : Nat) : Int)

/-- The least subframe of a wall timeline that starts after an instant. -/
def wallNextAfter (epoch : Int) (rate : Nat) (t : Int) : Int := -((-((t - epoch + 1) * ((8 * hzOf rate : Nat) : Int))) / 1000000000)

/-- The least one with k ≡ 7 (mod 8) (R200). -/
def wall7NextAfter (epoch : Int) (rate : Nat) (t : Int) : Int :=
  let k := wallNextAfter epoch rate t
  k + (7 - k) % 8

/-- Start of wall subframe k. -/
def State.wallAt (s : State) (k : Int) : Int := wallStart s.epoch s.wallRate k

/-- The least wall subframe that starts after an instant. -/
def State.wallAfter (s : State) (t : Int) : Int := wallNextAfter s.epoch s.wallRate t

/-- The least wall subframe k ≡ 7 (mod 8) that starts after an instant (R200). -/
def State.wall7After (s : State) (t : Int) : Int := wall7NextAfter s.epoch s.wallRate t

/-- Start of the next subframe: on the timeline in force; in the gap, the wall subframe of the return if it comes first (R200). -/
def State.nextStart (s : State) : Int :=
  let own := s.sco.subAt (s.sco.idx + 1)
  if s.sco.mode = .gap then min own (s.wallAt (s.wall7After s.sco.startAt)) else own

/-- The next subframe start is the return to the wall timeline. -/
def State.returnsNow (s : State) : Bool :=
  s.sco.mode == .gap && decide (s.wallAt (s.wall7After s.sco.startAt) ≤ s.sco.subAt (s.sco.idx + 1))

/-- Start of the next slot-7 subframe, the next commit cut (SCO_NEXT_CUT): what the cut of this slot 7 has decided, and a gap that begins at the next subframe, included. -/
def State.nextCut (s : State) : Int :=
  let d := (7 - s.base.get Reg.scoSubframe_J % 8 + 8) % 8
  let own := s.sco.subAt (s.sco.idx + ((if d = 0 then 8 else d : Nat) : Int))
  let back (rate : Nat) (t own : Int) : Int := min own (wallStart s.epoch rate (wall7NextAfter s.epoch rate t))
  if s.sco.mode = .gap then back s.wallRate s.sco.startAt own
  else if s.sco.leave then back s.wallRate s.nextStart own
  else match s.sco.decided with
    | none => own
    | some (r, m) =>
      let moved := wallStart s.nextStart r 7
      if m = .gap then back r s.nextStart moved else moved

/-- The wall subframe before which subframes are placed at step 3 of the cold release: the first one starts after E (R195, R505). -/
def State.armTimeline (s : State) : State :=
  { s with sco := { s.sco with
      armed := true, running := false, origin := s.epoch, idx := s.wallAfter (s.base.E : Int) - 1, rate := s.wallRate, mode := .wall
      startAt := (s.base.E : Int), dark := some 1, beaconDark := true, fresh := true, aborted := false, gapped := true, refZero := true, cutDue := false
      decided := none, leave := false } }

/-- The subframe number being sent. -/
def State.j (s : State) : Nat := s.base.get Reg.scoSubframe_J

end Sys2Proof.Machine
end

