-- ==== Sys2Proof/Machine/Compass.lean ====
section
/-! DEFINITION. The Compass as a unit (R82 to R89): the seal check, the effects of a cut, the check of the two copies, flat mode and the unit reset. -/

namespace Sys2Proof.Machine

/-- The words that would become live at the cut. -/
def State.sealGeometry (s : State) : Sparse (BitVec 32) := cmpKeys.map (fun k => (k, s.sealWord k))

/-- The seal checks of R83: REJ_FORMAT with LCT_REJECT, REJ_RANGE. -/
def State.cmpSeal (s : State) : State × List Nat :=
  let g := s.sealGeometry
  let lct := geoLctBad g
  (if lct then s.onBase (·.raise pgCMP 16) else s, (if lct then [stFORMAT] else []) ++ (if geoRangeBad g then [stRANGE] else []))

/-- A word is bad in both copies. -/
def State.bothBad (s : State) : List Nat := (s.cmp.bad.filter (fun e => e.2 == 3)).map (·.1)

/-- The Compass page follows the Spire: BUSY while it renders, READY otherwise; FAULT stays. -/
def State.cmpState (s : State) : State := s.onBase (·.busyIf pgCMP s.spr.rendering)

/-- The state that the Compass returns to from FAULT. -/
def State.cmpRest (s : State) : State := s.onBase (·.setOwn pgCMP (if s.spr.rendering then uBUSY else uREADY))

/-- COPY_REPAIRED and BOTH_COPIES_BAD detail. -/
def cmpDetail (off mask : Nat) : List Byte := leBytes 2 off ++ leBytes 1 mask

/-- The words held in two copies: the configuration words, and the live ones that the device computes (R87). -/
def cmpWords : List Nat := cmpKeys ++ [Reg.cmpKmax, Reg.cmpLctCrcLive]

/-- One word found bad (bit 0 first copy, bit 1 second copy). COPY_REPAIR is raised at the finding, with the fault, and not at the cut that rewrites the word (DESIGN CHOICE, log 51: R89 does not say when). -/
def State.cmpBad (s : State) (e : BitVec 12 × BitVec 2) : State :=
  let off := e.1.toNat / 4 * 4
  let old := sget (fun _ => 0) s.cmp.bad off
  let m := old ||| e.2.toNat
  if e.2 = 0 || !cmpWords.contains (hdr pgCMP off) then s
  else if m = 3 then
    let s1 : State := { s with cmp := { s.cmp with bad := sput (fun _ => 0) s.cmp.bad off 3, logged := setInsert s.cmp.logged off } }
    let s2 := s1.onBase (fun b => (b.setWord (hdr pgCMP off) (coldWord (hdr pgCMP off))).setOwn pgCMP uFAULT)
    if s.cmp.logged.contains off then s2 else s2.onBase (·.fault pgCMP 2 (cmpDetail off 3))
  else
    ({ s with cmp := { s.cmp with bad := sput (fun _ => 0) s.cmp.bad off m } } : State).onBase (fun b => (b.fault pgCMP 1 (cmpDetail off m)).raise pgCMP 19)

/-- COMPASS_COPY_CHECK: once in a light-field frame, and the re-check of a unit reset (R87, R88). -/
def State.cmpCheckRow (s : State) (bad : List (BitVec 12 × BitVec 2)) : State :=
  if s.cmp.checked && !s.cmp.reset then s else bad.foldl State.cmpBad { s with cmp := { s.cmp with checked := true } }

/-- The effects of a cut on the Compass (R84, R87, R88), `keys` being the registers that a configuration transaction applied at it: KMAX at every cut (R78), unless its word is bad in both copies; both copies rewritten, the CRC of the live table, GEOM_APPLIED, FAULT left when every bad word was staged. -/
def State.cmpCut (s : State) (keys : List Nat) : State :=
  let mine := keys.filter (fun k => cmpKeys.contains k)
  let both := s.bothBad
  let s1 : State :=
    if mine.isEmpty then
      ({ s with cmp := { s.cmp with bad := s.cmp.bad.filter (fun e => e.2 == 3), checked := false } } : State).onBase (fun b =>
        if both.any (fun off => hdr pgCMP off == Reg.cmpKmax) then b else b.put Reg.cmpKmax_KMAX (geoKmax b.geometry))
    else
      let g := s.base.geometry
      let s2 := ({ s with cmp := { s.cmp with bad := [], logged := [], checked := false } } : State).onBase (fun b =>
        ((b.put Reg.cmpKmax_KMAX (geoKmax g)).put Reg.cmpLctCrcLive_CRC (crc32 (lctBytes g))).raise pgCMP 17)
      if both.all (fun off => mine.contains (hdr pgCMP off) || !cmpKeys.contains (hdr pgCMP off)) && s.base.ownState pgCMP == uFAULT then s2.cmpRest else s2
  if !s.cmp.reset then s1
  else
    let s3 := ({ s1 with cmp := { s1.cmp with reset := false } } : State).resetEnds pgCMP
    if s3.bothBad.isEmpty && s3.base.ownState pgCMP == uFAULT then s3.cmpRest else s3

/-- Flat rendering from a cut on: ENABLE 0 (R85) or a Compass fault (R87). -/
def State.cmpFlat (s : State) : Bool := !s.base.enabled pgCMP || s.base.ownState pgCMP == uFAULT

/-- A unit reset of the Compass checks both copies again and completes at the next cut (R88). -/
def State.cmpReset (s : State) : State := ({ s with cmp := { s.cmp with reset := true } } : State).resetBegins pgCMP

end Sys2Proof.Machine
end

