-- ==== Sys2Proof/Machine/Spire.lean ====
section
/-! DEFINITION. The Spire array (chapter 6): hand-out of spans, the line writer and the scan-out store, faults, repair, unit resets, aborted frames, the limits and the budget. -/

namespace Sys2Proof.Machine

abbrev pgSPR : Nat := 0x100
abbrev pgSPQ (q : Nat) : Nat := 0x101 + q
abbrev pgSPC (c : Nat) : Nat := 0x110 + c
abbrev pgSPE (c k : Nat) : Nat := 0x200 + 4 * c + k

/-! ## Size and inputs of the frame being rendered -/

def Spire.width (p : Spire) : Nat := geoF p.geom Reg.cmpSize_WIDTH
def Spire.height (p : Spire) : Nat := geoF p.geom Reg.cmpSize_HEIGHT

/-- Spans of a line. -/
def Spire.spans (p : Spire) : Nat := p.width / 128

/-- The frame's inputs (R158). -/
def State.frame (s : State) : Frame :=
  { geom := s.spr.geom, flat := s.spr.flat, dmax := geoF s.spr.geom Reg.cmpDmax_DMAX, kmax := geoKmax s.spr.geom
    lays := compositionOrder s.scenes.live.layers, cap := s.base.get Reg.sprLimits_CAP, pf := s.base.flag Reg.sprLimits_PF
    bg := (s.base.word Reg.sprBg).toNat, slot := s.spr.k % 8, dome := s.dome, bad := s.spr.ueLines }

/-! ## Clusters -/

/-- The span a cluster works on. -/
def State.spanOf (s : State) (c : Nat) : Option Span := sget (fun _ => none) s.spr.work c

def State.setSpan (s : State) (c : Nat) (x : Option Span) : State := { s with spr := { s.spr with work := sput (fun _ => none) s.spr.work c x } }

/-- The cluster renders (SPQ_MAP). -/
def State.renders (s : State) (c : Nat) : Bool := (s.base.get (Reg.spqMap_ACTIVE (c / 17))).testBit (c % 17)

/-- Sets a cluster's role (0 active, 1 spare, 2 retired, 3 withdrawn) and its bit in SPQ_MAP. -/
def State.setRole (s : State) (c role : Nat) (on : Bool) : State :=
  let f := Reg.spqMap_ACTIVE (c / 17)
  s.onBase (fun b => (b.put (Reg.spcRole_ROLE c) role).put ⟨f.key, c % 17, c % 17⟩ (if on then 1 else 0))

/-- Active clusters of a quadrant. -/
def State.activeIn (s : State) (q : Nat) : Nat := ((List.range 17).filter (fun i => s.renders (17 * q + i))).length

/-- The smallest number of active clusters in any quadrant (R171). -/
def State.nmin (s : State) : Nat := ((List.range 4).map s.activeIn).foldl min 17

/-- SPR_BUDGET for the rate in force (R171, R182). -/
def State.refreshBudget (s : State) : State :=
  s.onBase (·.put Reg.sprBudget_BUDGET (4 * s.nmin * 20 * (tSub s.sco.rate - 16000)))

/-- BUSY while rendering, READY otherwise, for the array, its quadrants, the active clusters and their cells, and the Compass (R89, R186). -/
def State.spireStates (s : State) : State :=
  let r := s.spr.rendering
  let pages := (List.range 68).flatMap (fun c => (pgSPC c, r && s.renders c) :: (List.range 4).map (fun k => (pgSPE c k, r && s.renders c)))
    ++ (List.range 4).map (fun q => (pgSPQ q, r)) ++ [(pgSPR, r)]
  (s.onBase (fun b => pages.foldl (fun x p => x.busyIf p.1 p.2) b)).cmpState

/-! ## Hand-out (R174) -/

/-- The next span of a quadrant in line order (line × 256 + index). -/
def State.nextSpanOf (s : State) (q : Nat) : Nat := sget (fun q => q * 256) s.spr.nextSpan q

/-- Lines written by a quadrant. -/
def State.wroteOf (s : State) (q : Nat) : Nat := sget (fun _ => 0) s.spr.wrote q

/-- Every span of a line is present. -/
def State.lineDone (s : State) (y : Nat) : Bool :=
  (List.range s.spr.spans).all (fun i => !(sget (fun _ => []) s.spr.got (y * 256 + i)).isEmpty)

/-- A quadrant may begin a line: at most 4 in flight, and room for every line begun among the 16 that may wait for the interlock (R174, R196). -/
def State.mayBegin (s : State) (q y : Nat) : Bool :=
  let w := s.wroteOf q
  let open_ := (List.range (y / 4 - w)).map (fun i => 4 * (w + i) + q)
  decide (open_.length - (open_.filter s.lineDone).length < 4) && decide (open_.length < 16)

/-- A cluster takes a span that was taken back: never the one that lost it, but where its quadrant has no other (R177). -/
def State.mayTake (s : State) (c : Nat) (p : Span) : Bool := p.y % 4 == c / 17 && (p.from_ != some c || decide (s.activeIn (c / 17) = 1))

/-- Gives the next span of a quadrant to a cluster. -/
def State.giveSpan (q : Nat) (s : State) (c : Nat) : State :=
  if !s.spr.rendering || !s.renders c || (s.spanOf c).isSome || s.spr.off.contains c then s
  else match s.spr.again.find? (s.mayTake c) with
    | some p => ({ s with spr := { s.spr with again := s.spr.again.erase p } } : State).setSpan c (some { p with at_ := s.base.ticks })
    | none =>
      let n := s.nextSpanOf q
      let y := n / 256
      if s.spr.height ≤ y || (n % 256 == 0 && !s.mayBegin q y) then s
      else
        let n' := if n % 256 + 1 < s.spr.spans then n + 1 else (y + 4) * 256
        ({ s with spr := { s.spr with nextSpan := sput (fun q => q * 256) s.spr.nextSpan q n' } } : State).setSpan c (some ⟨y, n % 256, s.base.ticks, none⟩)

/-- The free active clusters of a quadrant take spans, lowest number first (R587 leaves the choice open). -/
def State.handOut (s : State) (q : Nat) : State := ((List.range 17).map (· + 17 * q)).foldl (State.giveSpan q) s

def State.handOutAll (s : State) : State := (List.range 4).foldl State.handOut s

/-! ## The line writer (R175, R192, R193, R196) -/

/-- Words of a buffer of the scan-out store. -/
abbrev bufferSize : Nat := 132710400

/-- A word of the store. -/
def State.storeWord (s : State) (buf y x : Nat) : BitVec 32 := sget (fun _ => 0) s.spr.words (buf * bufferSize + y * s.sco.width + x)

/-- Line y of the subframe being rendered waits for the overdrive read of the same line; a line that the subframe being sent does not have is never read (R196). -/
def State.interlocked (s : State) (y : Nat) : Bool :=
  s.sco.running && s.base.flag Reg.scoCtrl_OD_EN && s.sco.dark.isNone && s.pnl.linkDark.isNone && decide (s.sco.line ≤ y) && decide (y < s.sco.height)

/-- Stores words from a place on. -/
def storeWords (m : Sparse (BitVec 32)) (a : Nat) : List (BitVec 32) → Sparse (BitVec 32)
  | [] => m
  | w :: ws => storeWords (sput (fun _ => 0) m a w) (a + 1) ws

/-- Writes one complete line with its CRC. -/
def State.writeLine (s : State) (y : Nat) : State :=
  let ws := (List.range s.spr.spans).flatMap (fun i => sget (fun _ => []) s.spr.got (y * 256 + i))
  let buf := s.spr.k % 2
  { s with spr := { s.spr with
      words := storeWords s.spr.words (buf * bufferSize + y * s.spr.width) ws
      crcs := sput (fun _ => 0) s.spr.crcs (buf * 16384 + y) (lineCrc y (s.spr.k % 8) ws)
      got := s.spr.got.filter (fun e => e.1 / 256 != y)
      wrote := sput (fun _ => 0) s.spr.wrote (y % 4) (s.wroteOf (y % 4) + 1) } }

/-- Writes the complete lines of a quadrant in order; a line held by the interlock is counted once in SCO_WAIT. -/
def State.writeLines (q : Nat) : Nat → State → State
  | 0, s => s
  | n + 1, s =>
    let y := 4 * s.wroteOf q + q
    if s.spr.height ≤ y || !s.lineDone y then s
    else if s.interlocked y then
      if s.spr.delayed.contains y then s
      else ({ s with spr := { s.spr with delayed := y :: s.spr.delayed } } : State).onBase (·.count Reg.scoWait_COUNT 1)
    else State.writeLines q n (s.writeLine y)

/-- DEMAND_HIGH, once a frame, for the demand of a subframe; a demand equal to the threshold exceeds it (R172, R10). -/
def State.judgeDemand (s : State) (d : Nat) : State :=
  if s.spr.demandHigh || decide (d * 100 < s.base.get Reg.sprDemandThr_PCT * s.base.get Reg.sprBudget_BUDGET) then s
  else ({ s with spr := { s.spr with demandHigh := true } } : State).onBase (·.raise pgSPR 17)

/-- The subframe is complete when all quadrants have written their last line: SPR_DEMAND, the peak and DEMAND_HIGH (R172, R175). -/
def State.renderDone (s : State) : State :=
  if !s.spr.rendering || (List.range 4).any (fun q => decide (4 * s.wroteOf q + q < s.spr.height)) then s
  else
    let d := min (2 ^ 32 - 1) s.spr.demand
    let s1 := (s.onBase (fun b => (b.put Reg.sprDemand_DEMAND d).put Reg.sprDemandPeak_PEAK (max (b.get Reg.sprDemandPeak_PEAK) d))).judgeDemand s.spr.demand
    ({ s1 with spr := { s1.spr with rendering := false, complete := true } } : State).spireStates

/-- Lines, completion and new spans after something changed in a quadrant. -/
def State.advanceQuadrant (s : State) (q : Nat) : State := ((s.writeLines q (s.spr.height + 1)).renderDone).handOut q

/-- Every quadrant (a line of scan-out has been read). -/
def State.advanceRender (s : State) : State := (List.range 4).foldl State.advanceQuadrant s

/-- The render of subframe k begins (R159); nothing is rendered while the array is FAULT, OFF or without clock. -/
def State.beginRender (s : State) (k : Nat) : State :=
  let own := s.base.ownState pgSPR
  let stuck := (List.range 4).any (fun q => s.base.ownState (pgSPQ q) == uNOCLOCK || s.base.ownState (pgSPQ q) == uFAULT)
  let on := (own == uREADY || own == uBUSY) && !stuck
  let s1 : State := { s with spr := { s.spr with
    rendering := on, complete := false, k := k, nextSpan := [], again := [], work := [], got := [], wrote := [], delayed := [], demand := 0, ueLines := [] } }
  (s1.spireStates).handOutAll

/-- The Spire abandons its subframe (R159). -/
def State.abandonRender (s : State) : State :=
  ({ s with spr := { s.spr with rendering := false, again := [], work := [], got := [] } } : State).spireStates

/-! ## SPAN_DONE (R160, R168, R174, R587) -/

/-- The demand of a whole subframe (R169). -/
def Frame.demand (f : Frame) (w h : Nat) : Nat :=
  ((List.range h).map (fun y => ((List.range w).map (fun x => (renderRay f x y).2.1)).foldl (· + ·) 0)).foldl (· + ·) 0

/-- The words of a 128-byte memory line. -/
def wordsOfLine (l : Nat) : List Nat := (List.range 8).map (· + 8 * l)

/-- The memory lines that the rays of a span read. -/
def State.spanLines (s : State) (p : Span) : List Nat :=
  ((List.range 128).flatMap (fun i => (rayReads s.frame (p.i * 128 + i) p.y).map (· / 128))).dedup

/-- A span's gathers: each uncorrectable line is substituted in this subframe, and what the rays read then is read in turn (a corner that reads 0 moves the taps, R168). Answers the state with the new substitutions and every line read. -/
def State.gather (p : Span) (ecc : Ecc) : Nat → State → List Nat → State × List Nat
  | 0, s, seen => (s, seen)
  | n + 1, s, seen =>
    let lines := s.spanLines p
    let bad := lines.filter (fun l => !s.spr.ueLines.contains l && (wordsOfLine l).any (s.dome.wordBad ecc))
    let all := (seen ++ lines).dedup
    if bad.isEmpty then (s, all)
    else State.gather p ecc n { s with spr := { s.spr with ueLines := s.spr.ueLines ++ bad } } all

/-- What gathered lines mean for the Dome: words found corrected or newly uncorrectable are checked, and every line counts as read (R289, R304). -/
def State.gathered (s : State) (ecc : Ecc) (new all : List Nat) : State :=
  let odd := all.filter (fun l => new.contains l || (wordsOfLine l).any (namesWord ecc.ce))
  let rest := (all.filter (fun l => !odd.contains l)).map (8 * ·)
  ({ s with dome := s.dome.tally 0 (fun k => 8 * s.dome.wordBytes rest k) } : State).checkRead 0 ecc (odd.map (fun l => (l * 128, 128)))

/-- SPE_SAMPLES of a cell in units of 2²⁰. -/
def State.addSamples (s : State) (c k n : Nat) : State :=
  let t := sget (fun _ => 0) s.spr.samples (4 * c + k) + n
  ({ s with spr := { s.spr with samples := sput (fun _ => 0) s.spr.samples (4 * c + k) (t % 2 ^ 20) } } : State).onBase (·.count (Reg.speSamples_MCOUNT (4 * c + k)) (t / 2 ^ 20))

/-- Rounds in which substitutions can move what a ray reads: two corner reads and the texels of 16 layers. -/
abbrev gatherRounds : Nat := 64

/-- SPAN_DONE: a cluster finishes its 128 pixels; lines that its cache and its quadrant's refetched after parity errors are counted and change nothing (R176). -/
def State.spanDoneRow (s : State) (c : Nat) (ecc : Ecc) (clusterPe quadPe : Nat) : State :=
  match s.spanOf c with
  | none => s
  | some p =>
    let g := State.gather p ecc gatherRounds s []
    let new := g.1.spr.ueLines.drop s.spr.ueLines.length
    let s0 := (g.1.gathered ecc new g.2).onBase (fun b => (b.count (Reg.spcCachePe_COUNT c) clusterPe).count (Reg.spqCachePe_COUNT (c / 17)) quadPe)
    let s2 := if new.isEmpty then s0 else s0.onBase (fun b => (b.count Reg.sprGatherEcc_COUNT new.length).raise pgSPR 20)
    let rays := (List.range 128).map (fun i => renderRay s2.frame (p.i * 128 + i) p.y)
    let capped := (rays.filter (·.2.2)).length
    let s3 := if capped = 0 then s2 else s2.onBase (fun b => (b.count Reg.sprCapped_COUNT capped).raise pgSPR 16)
    let cost (l : List (Nat × Nat × Bool)) : Nat := (l.map (·.2.1)).foldl (· + ·) 0
    let s4 := (List.range 4).foldl (fun x k => x.addSamples c k (cost ((rays.drop (32 * k)).take 32))) s3
    let s5 := (s4.setSpan c none).onBase (·.count (Reg.spcSpans_COUNT c) 1)
    let s6 : State := { s5 with spr := { s5.spr with
      demand := s5.spr.demand + cost rays
      got := sput (fun _ => []) s5.spr.got (p.y * 256 + p.i) (rays.map (fun r => bufferWord r.1 s.spr.k)) } }
    s6.advanceQuadrant (c / 17)

/-! ## Faults and repair (R177 to R179, R184, R185) -/

/-- Detail of R188: line, span, cell, slot. -/
def spanDetail (y i k slot : Nat) : List Byte := leBytes 2 y ++ leBytes 2 i ++ leBytes 1 k ++ leBytes 1 slot

/-- A cluster's span in flight is taken back and will be handed out again (R177). -/
def State.reissue (s : State) (c : Nat) : State :=
  match s.spanOf c with
  | none => s
  | some p =>
    (({ s with spr := { s.spr with again := s.spr.again ++ [{ p with from_ := some c }] } } : State).setSpan c none).onBase (fun b =>
      (b.count (Reg.spqReissue_COUNT (c / 17)) 1).count (Reg.spcReissue_COUNT c) 1)

/-- A cluster becomes FAULT: no further spans; its place is taken at the next subframe start (R178). -/
def State.clusterFault (s : State) (c : Nat) : State :=
  ((s.reissue c).setRole c (s.base.get (Reg.spcRole_ROLE c)) false).setUnit (pgSPC c) uFAULT

/-- A detected error abandons the span of a cluster: fault logged, and FAULT at the second in a frame or for a permanent one. -/
def State.abandon (s : State) (c code cell : Nat) (permanent : Bool) : State :=
  match s.spanOf c with
  | none => s
  | some p =>
    let n := sget (fun _ => 0) s.spr.faults c + 1
    let s1 := (({ s with spr := { s.spr with faults := sput (fun _ => 0) s.spr.faults c n } } : State).reissue c).onBase
      (·.fault (pgSPC c) code (spanDetail p.y p.i cell (s.spr.k % 8)))
    (if permanent || decide (2 ≤ n) then s1.clusterFault c else s1).handOut (c / 17)

/-- STALL: the span was handed out 64 µs (40,000 device ticks) ago. -/
def State.stallRow (s : State) (c : Nat) : State :=
  match s.spanOf c with
  | none => s
  | some p => if s.base.ticks < p.at_ + 40000 then s else s.abandon c 2 0xFF false

/-- DATAPATH: a cell of a working cluster finds an error (R189). -/
def State.datapathRow (s : State) (c k : Nat) (permanent : Bool) : State :=
  match s.spanOf c with
  | none => s
  | some p =>
    let d := spanDetail p.y p.i k (s.spr.k % 8) ++ [if permanent then 1 else 0]
    (s.onBase (fun b => (b.count (Reg.speErrors_COUNT (4 * c + k)) 1).fault (pgSPE c k) 1 d)).abandon c 1 k permanent

/-- The spare of a quadrant that can be put into service. -/
def State.readySpare (s : State) (q : Nat) : Option Nat :=
  let c := s.base.get (Reg.spqSpare_CLUSTER q)
  if s.base.flag (Reg.spqSpare_VALID q) && s.base.enabled (pgSPC c) && s.base.ownState (pgSPC c) == uREADY && !s.spr.off.contains c then some c else none

/-- Repair at a subframe start: a failed cluster of the quadrant is RETIRED and its spare takes its place (R178). -/
def State.repair (s : State) (q : Nat) : State :=
  let failed := ((List.range 17).map (· + 17 * q)).find? (fun c => s.base.ownState (pgSPC c) == uFAULT && s.base.get (Reg.spcRole_ROLE c) == 0)
  match failed, s.readySpare q with
  | some c, some sp =>
    ((((s.setRole c 2 false).setUnit (pgSPC c) uRETIRED).setRole sp 0 true).onBase (·.putFlag (Reg.spqSpare_VALID q) false)).onBase (·.raise pgSPR 18)
  | _, _ => s

/-- The role of a cluster that returns to dispatch. -/
def State.homeRole (s : State) (c : Nat) : Nat :=
  if s.base.flag (Reg.spqSpare_VALID (c / 17)) && s.base.get (Reg.spqSpare_CLUSTER (c / 17)) == c then 1 else 0

/-- A unit reset of a cluster (and of the cell pages below it) completes. -/
def State.clusterResetEnd (s : State) (c : Nat) : State :=
  if !s.spr.resets.contains c then s
  else (List.range 4).foldl (fun x k => x.resetEnds (pgSPE c k)) ((({ s with spr := { s.spr with resets := s.spr.resets.filter (· != c) } } : State)).resetEnds (pgSPC c))

/-- At a subframe start each cluster follows its ENABLE, and unit resets end (R184, R185). ENABLE 0 and then 1 brings a cluster that had failed back into dispatch (DESIGN CHOICE, log 51: R179 names only the unit reset). -/
def State.syncCluster (s : State) (c : Nat) : State :=
  let own := s.base.ownState (pgSPC c)
  let s0 := s.clusterResetEnd c
  if own = uRETIRED || own = uTEST then s0
  else if !s.base.enabled (pgSPC c) then
    if own = uOFF then s0
    else (({ s0 with spr := { s0.spr with off := setInsert s0.spr.off c } } : State).setRole c 3 false).setUnit (pgSPC c) uOFF
  else if s.spr.off.contains c then
    let s1 : State := { s0 with spr := { s0.spr with off := setErase s0.spr.off c } }
    (s1.setRole c (s1.homeRole c) (s1.homeRole c == 0)).onBase (·.setOwn (pgSPC c) uREADY)
  else s0

/-- The Spire at a subframe start, before the next render begins. -/
def State.spireSubframe (s : State) : State :=
  (((List.range 68).foldl State.syncCluster ((List.range 4).foldl State.repair s)).refreshBudget)

/-- A unit reset of a cluster takes it out of dispatch at once and back at the next subframe start; a RETIRED one stays so. -/
def State.clusterReset (s : State) (c : Nat) : State :=
  let s1 : State := { s with spr := { s.spr with resets := setInsert s.spr.resets c } }
  let own := s.base.ownState (pgSPC c)
  if own = uRETIRED || own = uOFF || own = uTEST then s1
  else
    ((((({ s1 with spr := { s1.spr with off := setInsert s1.spr.off c } } : State).reissue c).setRole c 3 false).setUnit (pgSPC c) uREADY).handOut (c / 17))

/-- SPIRE_UNIT_RESET on any page of the array: clusters and cells at once, quadrants and the array at the next cut. -/
def State.spireReset (s : State) (p : Nat) : State :=
  let s1 := s.resetBegins p
  if 0x200 ≤ p then s1.clusterReset ((p - 0x200) / 4)
  else if 0x110 ≤ p then s1.clusterReset (p - 0x110)
  else { s1 with spr := { s1.spr with waitCut := setInsert s1.spr.waitCut p } }

/-- At the cut a reset of a quadrant or of the array returns its failed clusters that are not RETIRED to service, and completes. -/
def State.spireResetsEnd (s : State) : State :=
  let qs := (List.range 4).filter (fun q => s.spr.waitCut.contains pgSPR || s.spr.waitCut.contains (pgSPQ q))
  let cs := qs.flatMap (fun q => (List.range 17).map (· + 17 * q))
  let back (x : State) (c : Nat) : State :=
    if x.base.ownState (pgSPC c) == uFAULT then (x.setRole c (x.homeRole c) (x.homeRole c == 0)).setUnit (pgSPC c) uREADY else x
  let s1 := cs.foldl back s
  { s.spr.waitCut.foldl State.resetEnds s1 with spr := { s1.spr with waitCut := [] } }

/-! ## Aborted frames and limits (R170, R180 to R182) -/

/-- A light-field frame ends, aborted or whole; at 8 aborted frames in a row the array becomes FAULT and the Watch sweeps it. -/
def State.frameEnds (s : State) (aborted : Bool) : State :=
  if !aborted then ({ s with spr := { s.spr with runFull := false } } : State).onBase (·.put Reg.sprAbortRun_RUN 0)
  else
    let n := min 8 (s.base.get Reg.sprAbortRun_RUN + 1)
    let s1 := s.onBase (·.put Reg.sprAbortRun_RUN n)
    if n < 8 || s.spr.runFull then s1
    else
      (({ s1 with spr := { s1.spr with runFull := true, sweep := 1 } } : State).onBase (fun b =>
        ((b.busyIf 3 true).fault pgSPR 1 (leBytes 4 s.spr.lost ++ leBytes 4 (b.get Reg.sprBudget_BUDGET))).raise pgSPR 21)).setUnit pgSPR uFAULT

/-- What a commit cut fixes for the Spire: the end of a sweep, AUTOCAP and L2 limits, geometry and flat mode, and the budget with the clusters that return (R171). The faults that R177 counts within one frame are counted from cut to cut (DESIGN CHOICE, log 51). -/
def State.spireCut (s : State) : State :=
  let clean := s.spr.sweep == 2
  let auto0 := s.base.flag Reg.sprLimits_AUTOCAP && !s.spr.autoEnd
  let new := clean && s.base.flag Reg.sprCtrl_AUTOCAP_EN
  let auto := auto0 || new
  let l2 := decide (2 ≤ s.base.get Reg.thmStatus_LEVEL)
  let lim := auto || l2
  let cap := s.base.get Reg.sprCtrl_CAP
  let swept := clean || s.spr.sweep == 3
  let s1 := if swept then s.setUnit pgSPR uREADY else s
  let s2 := if clean then s1.onBase (·.fault pgSPR 2 (leBytes 4 s.spr.lost ++ leBytes 4 (s.base.get Reg.sprBudget_BUDGET))) else s1
  let s3 := s2.onBase (fun b => (((b.putFlag Reg.sprLimits_AUTOCAP auto).putFlag Reg.sprLimits_L2 l2).putFlag Reg.sprLimits_PF
    (b.flag Reg.sprCtrl_PF_EN && !lim)).put Reg.sprLimits_CAP (if lim then min 8 cap else cap))
  let s4 := if auto && !s.base.flag Reg.sprLimits_AUTOCAP then s3.onBase (·.raise pgSPR 19) else s3
  ({ s4 with spr := { s4.spr with
      sweep := if swept then 0 else s.spr.sweep, autoEnd := false, demandHigh := false, faults := [], geom := s.base.geometry, flat := s.cmpFlat } } : State).spireResetsEnd.refreshBudget

/-- A write of SPR_LIMITS: AUTOCAP written 1 ends the limits at the next cut (R181). -/
def State.autocapWrite (s : State) (a : RegWr) : State :=
  s.write Reg.sprLimits a (fun _ old new x =>
    if old.testBit 15 && !new.testBit 15 then ({ x with spr := { x.spr with autoEnd := true } } : State).onBase (·.putFlag Reg.sprLimits_AUTOCAP true) else x)

end Sys2Proof.Machine
end

