-- ==== Sys2Proof/Machine/Panel.lean ====
section
/-! DEFINITION. The Elwen panel link (chapter 12): rows, rates of a port, bring-up and end of service, the back-channel, sparing and retraining, loops. Lanes are numbered 0 to 43 by page (0x050 + l): P0–P15, Q0–Q15, BP0, BP1, BQ0, BQ1, XT0–XT3, XR0–XR3. -/

namespace Sys2Proof.Machine

abbrev pgPNL : Nat := 0x048
abbrev pgPRT (p : Nat) : Nat := 0x049 + p
abbrev pgLNK (l : Nat) : Nat := 0x050 + l

/-- Transmit lane n and back-channel lane b of port p. -/
abbrev txLane (p n : Nat) : Nat := 16 * p + n
abbrev bcLane (p b : Nat) : Nat := 32 + 2 * p + b

/-- Device ticks of 1.6 ns in a second. -/
abbrev secTicks : Nat := 625000000

def State.port (s : State) (p : Nat) : Port := sget (fun _ => Port.off) s.pnl.ports p
def State.setPort (s : State) (p : Nat) (x : Port) : State := { s with pnl := { s.pnl with ports := sput (fun _ => Port.off) s.pnl.ports p x } }
def State.lane (s : State) (l : Nat) : Lane := sget (fun _ => Lane.rest) s.pnl.lanes l
def State.setLane (s : State) (l : Nat) (x : Lane) : State := { s with pnl := { s.pnl with lanes := sput (fun _ => Lane.rest) s.pnl.lanes l x } }

/-! ## Rates of a port (R335, R336) -/

/-- Row blocks of a line. -/
def rowBlocks (width : Nat) : Nat := 15 * width / 128

/-- A port with n active lanes can carry a rate code. -/
def carries (width height n code : Nat) : Bool :=
  n != 0 && decide (1 + ceilDiv (rowBlocks width) n + 2 ≤ 1000000000 * 6375 / (8140 * 8 * hzOf code * vTotal height))

/-- The highest rate that n lanes carry, as a code; 3: none. -/
def rateMax (width height n : Nat) : Nat := ((List.range 3).find? (carries width height n)).getD 3

/-! ## Lanes -/

/-- Third failure: RETIRED. -/
def State.laneRetired (s : State) (l : Nat) : Bool := decide (3 ≤ s.base.get (Reg.lnkStatus_FAILS l))

/-- The lane is out of service: FAULT, RETIRED, withdrawn or retraining. -/
def State.laneOut (s : State) (l : Nat) : Bool :=
  (s.lane l).dead || (s.lane l).retrain.isSome || s.laneRetired l || !s.base.enabled (pgLNK l) || s.base.ownState (pgLNK l) == uTEST ||
    s.base.ownState (pgLNK l) == uNOCLOCK

/-- A receive lane is LOCKED and in service. -/
def State.rxGood (s : State) (l : Nat) : Bool := s.base.get (Reg.lnkStatus_ALIGN l) == 2 && !s.laneOut l

/-- The last STATUS shows a lane LOCKED. -/
def Port.lockedLane (x : Port) (n : Nat) : Bool := x.lock.testBit n

/-- The set of values that is newest: for the subframe after next, the next one, or in force. -/
def Port.target (x : Port) : PortSet := (x.later.orElse (fun _ => x.next)).getD x.now

/-- The port carries the panel's rows. -/
def Port.sends (x : Port) : Bool := x.phase == .training || x.phase == .service || x.phase == .ending

/-- A lane has a role in the set. -/
def PortSet.has (t : PortSet) (n : Nat) : Bool := t.map.contains n || t.par == some n

/-- Idle spares of a port, ascending. -/
def State.idleSpares (s : State) (p : Nat) (t : PortSet) : List Nat := (List.range 16).filter (fun n => !s.laneOut (txLane p n) && !t.has n)

/-- UNIT_STATE of a panel or back-channel lane (R367). -/
def State.panelLaneState (s : State) (l : Nat) : Nat :=
  let p := if l < 32 then l / 16 else (l - 32) / 2
  if s.laneRetired l then uRETIRED
  else if s.base.ownState (pgLNK l) = uTEST then uTEST
  else if !s.base.enabled (pgLNK l) || !s.base.enabled (pgPRT p) then uOFF
  else if (s.lane l).dead || (s.lane l).retrain.isSome then uFAULT
  else if 32 ≤ l then (if s.base.get (Reg.lnkStatus_ALIGN l) = 2 then uBUSY else uFAULT)
  else if (s.port p).sends && (s.port p).now.has (l % 16) then uBUSY else uREADY

/-- ROLE and LOGICAL of a transmit lane; while its port sends nothing, the places of the full set. -/
def State.txRole (s : State) (p n : Nat) : Nat × Nat :=
  let x := s.port p
  if s.laneOut (txLane p n) then (3, 0xF)
  else if !x.sends then (if n < 12 then (0, n) else if n < 15 then (1, 0xF) else (2, 0xF))
  else if x.now.map.contains n then (0, x.now.map.idxOf n)
  else if x.now.par = some n then (2, 0xF) else (1, 0xF)

/-- The registers and states of a port's lanes follow (Table 12.11). -/
def State.refreshLanes (s : State) (p : Nat) : State :=
  let s1 := (List.range 16).foldl (fun (x : State) n =>
    let r := s.txRole p n
    x.onBase (fun b => ((b.put (Reg.lnkStatus_ROLE (txLane p n)) r.1).put (Reg.lnkStatus_LOGICAL (txLane p n)) r.2).setOwn (pgLNK (txLane p n)) (s.panelLaneState (txLane p n)))) s
  (List.range 2).foldl (fun (x : State) b =>
    let l := bcLane p b
    x.onBase (·.setOwn (pgLNK l) (s.panelLaneState l))) s1

/-- Registers and state of a port follow (Table 12.10, R366), and the group is BUSY while a port sends (R39, R365); nothing is shown of a device whose scan-out domain is off. -/
def State.refreshPort (s : State) (p : Nat) : State :=
  if s.base.ownState pgPNL = uOFF then s
  else
    let x := s.port p
    let on := x.sends
    let t := x.now
    let spares := if on then ((s.idleSpares p t).map (2 ^ ·)).foldl (· + ·) 0 else 0
    let mapWord := (t.map.zip (List.range 12)).foldl (fun a e => a + e.1 * 16 ^ e.2) 0
    let s1 := s.onBase (fun b =>
      let b1 := ((b.putFlag (Reg.prtStatus_IN_SERVICE p) (x.phase == .service || (x.phase == .ending && b.flag (Reg.prtStatus_IN_SERVICE p)))).putFlag (Reg.prtStatus_PARITY p) (on && t.par.isSome)).putFlag (Reg.prtStatus_BC_LOST p)
        (on && !s.rxGood (bcLane p 0) && !s.rxGood (bcLane p 1))
      let b2 := ((b1.put (Reg.prtStatus_BC_SEL p) t.bc).put (Reg.prtStatus_RATE_MAX p) (if on then rateMax s.sco.width s.sco.height t.map.length else 0)).put (Reg.prtStatus_N p) (if on then t.map.length else 0)
      let b3 := (b2.put (Reg.prtStatus_PARITY_LANE p) (t.par.getD 0)).put (Reg.prtStatus_SPARES p) spares
      let b4 := if on then (b3.put (Reg.prtMap0_L7_L0 p) mapWord).put (Reg.prtMap1_L11_L8 p) (mapWord / 2 ^ 32) else b3
      (b4.setOwn (pgPRT p) (if !b4.enabled (pgPRT p) then uOFF else if on then uBUSY else uREADY)).setOwn pgPNL
        (if (s.port 0).sends || (s.port 1).sends then uBUSY else uREADY))
    s1.refreshLanes p

/-! ## Rows (R337 to R340) -/

/-- The wait between the start of a line and its row (R328), in ticks. -/
abbrev lineWait : Nat := 375

/-- Sends a control row on a port in the first row that nothing else takes. -/
def State.sendRow (s : State) (p : Nat) (body : List Byte) : State := s.onBase (·.placeControl p 0 body)

/-- Sends a control row that takes the place of a line's row (R328, R338). -/
def State.sendLineRow (s : State) (p : Nat) (body : List Byte) : State := s.onBase (·.placeControl p lineWait body)

/-- J of the next subframe. -/
def State.nextJ (s : State) : Nat := if s.returnsNow then (s.wall7After s.sco.startAt % 2 ^ 32).toNat else (s.j + 1) % 2 ^ 32

/-- The rate of the next subframe. -/
def State.nextRate (s : State) : Nat :=
  if s.returnsNow then s.wallRate
  else if s.j % 8 = 7 then (match s.sco.decided with | some (r, _) => r | none => s.sco.rate) else s.sco.rate

/-- CMP_SIZE as it governs the next subframe. -/
def State.nextSize (s : State) : BitVec 32 := if s.j % 8 = 7 then s.base.word Reg.cmpSize else s.sco.size

/-- PARITY_EN as a slot 0 brings it into force (R198): row parity ends, or the highest LOCKED idle spare carries it. -/
def State.withParity (s : State) (p : Nat) (t : PortSet) : PortSet :=
  match sget (fun _ => none) s.cfg.slot0 (Reg.prtCtrl p) with
  | none => t
  | some w =>
    if getBits w 8 8 = s.base.get (Reg.prtCtrl_PARITY_EN p) then t
    else if getBits w 8 8 = 0 then { t with par := none }
    else if t.par.isSome then t
    else { t with par := ((s.idleSpares p t).filter (s.port p).lockedLane).getLast? }

/-- A port's values for the next subframe, the map that waits for slot 0 included. -/
def State.nextSet (s : State) (p : Nat) : PortSet :=
  let x := s.port p
  let t0 := x.next.getD x.now
  let t := if s.j % 8 = 7 then s.withParity p t0 else t0
  match x.fewer with
  | some m => if s.j % 8 = 7 && decide (rateMax (getBits s.nextSize 15 0) (getBits s.nextSize 31 16) m.length ≤ s.nextRate) then { t with map := m } else t
  | none => t

/-- The TIMING row of a port (Table 12.3). -/
def State.timingRow (s : State) (p : Nat) : List Byte :=
  let t := s.nextSet p
  let z := s.nextSize
  let h := getBits z 31 16
  let change := t != (s.port p).now || s.nextRate != s.sco.rate || z != s.sco.size
  [0x04, if change then 1 else 0] ++ leBytes 1 t.bc ++ leBytes 1 s.nextRate ++ leBytes 4 s.nextJ ++ leBytes 2 (vTotal h) ++ leBytes 2 h
    ++ leBytes 2 (getBits z 15 0) ++ leBytes 1 t.map.length ++ leBytes 1 (t.par.getD 0xFF)
    ++ (List.range 12).map (fun i => BitVec.ofNat 8 (t.map.getD i 0xFF))

/-- New values of a port take effect at the next subframe, announced by a further TIMING row, or one subframe later when that row would come too late (R339). -/
def State.setNext (s : State) (p : Nat) (t : PortSet) : State :=
  let x := s.port p
  if (s.base.E : Int) + 1000 ≤ s.nextStart || !s.sco.running then
    let s1 := s.setPort p { x with next := some t, later := none }
    if s.pnl.linkDark.isSome then s1 else s1.sendRow p (s1.timingRow p)
  else s.setPort p { x with later := some t }

/-! ## Bring-up and end of service (R347, R356) -/

/-- A port begins: leave is requested. -/
def State.portAsks (s : State) (p : Nat) : State := ((s.setPort p { Port.off with phase := .asks, temp := (s.port p).temp }).request (ridPort p) 0 8).refreshPort p

/-- A port's service ends at the next subframe start; leave is given back when it had not entered service. Pending maps are discarded (Table 12.6). -/
def State.portEnds (s : State) (p : Nat) : State :=
  let x := s.port p
  match x.phase with
  | .idle => s.refreshPort p
  | .asks => ((s.release (ridPort p) 0).setPort p { Port.off with temp := x.temp }).refreshPort p
  | .training => ((s.release (ridPort p) 0).setPort p { x with phase := .ending, next := none, later := none, fewer := none }).refreshPort p
  | _ => (s.setPort p { x with phase := .ending, next := none, later := none, fewer := none }).refreshPort p

/-- A port with too few lanes for 40 Hz at the newest CMP_SIZE leaves service (R336, R356). -/
def State.checkMin (s : State) (p : Nat) (n : Nat) : State :=
  let z := s.base.word Reg.cmpSize
  if rateMax (getBits z 15 0) (getBits z 31 16) n < 3 then s
  else (s.onBase (·.fault (pgPRT p) 4 (leBytes 1 n))).portEnds p

/-- The leave of a port is granted: it leaves electrical idle with the initial roles. -/
def State.portTrains (s : State) (p : Nat) : State :=
  let x := s.port p
  if x.phase != .asks then s
  else
    let ok := (List.range 16).filter (fun n => !s.laneOut (txLane p n))
    let map := ok.take 12
    let par := if s.base.flag (Reg.prtCtrl_PARITY_EN p) then (ok.drop 12).getLast? else none
    let s1 := s.setPort p { x with phase := .training, good := 0, now := ⟨map, par, s.base.get (Reg.prtCtrl_BC_PREF p)⟩, lock := 0, seen := [] }
    let s2 := if s1.rxGood (bcLane p 0) || s1.rxGood (bcLane p 1) then s1 else s1.onBase (·.raise (pgPRT p) 20)
    (s2.refreshPort p).checkMin p map.length

/-- A CMP_SIZE that a cut has made live is held to every port that works (R336, R356). -/
def State.portsFit (s : State) : State :=
  (List.range 2).foldl (fun (x : State) p =>
    let y := x.port p
    if y.phase == .training || y.phase == .service then x.checkMin p (y.fewer.getD y.target.map).length else x) s

/-- The rate code that a port needs with its remaining lanes (R199). -/
def State.portRate (s : State) (p : Nat) : Nat :=
  let x := s.port p
  if x.phase == .training || x.phase == .service then
    min 2 (rateMax (getBits (s.base.word Reg.cmpSize) 15 0) (getBits (s.base.word Reg.cmpSize) 31 16) ((x.fewer.getD x.target.map).length))
  else 0

/-- Some enabled port is in service (R356). -/
def State.anyService (s : State) : Bool := (List.range 2).any (fun p => (s.port p).phase == .service)

/-! ## Loss of a lane (R353 to R355) -/

/-- Removes a lane from a set of values, or tells the map of N − 1 lanes that waits for a lower rate. -/
def replaceLane (t : PortSet) (spares : List Nat) (n : Nat) : PortSet × Option (List Nat) :=
  if t.map.contains n then
    match spares with
    | sp :: _ => ({ t with map := t.map.map (fun m => if m = n then sp else m) }, none)
    | [] => match t.par with
      | some q => ({ t with map := t.map.map (fun m => if m = n then q else m), par := none }, none)
      | none => (t, some ((t.map.filter (· != n)).mergeSort (fun a b => decide (a ≤ b))))
  else if t.par = some n then ({ t with par := spares.getLast? }, none)
  else (t, none)

/-- An active lane, parity spare or idle spare of a port is lost with a cause (0 LANE_LOSS, 1 LOCK, 2 UE, 3 CE, 4 ENABLE, 5 unit reset). -/
def State.loseLane (s : State) (p n cause : Nat) (dead : Bool) : State :=
  let l := txLane p n
  let x := s.port p
  let s1 := ((s.setLane l { s.lane l with dead := dead, ue := 0, ce := 0 }).setPort p { x with seen := x.seen.filter (· != n) }).onBase
    (·.fault (pgPRT p) 1 ([BitVec.ofNat 8 n, BitVec.ofNat 8 cause, 0, 0] ++ leBytes 4 s.j))
  let x1 := s1.port p
  let t := x1.target
  if !t.has n || (x1.fewer.map (fun m => !m.contains n && t.par != some n)).getD false then s1.refreshPort p
  else
    let spares := ((s1.idleSpares p t).filter x1.lockedLane).filter (· != n)
    match replaceLane t spares n with
    | (_, some m) =>
      let m' := match x1.fewer with | some f => f.filter (· != n) | none => m
      let s2 := (s1.setPort p { x1 with fewer := some m' }).onBase (fun b => (b.fault (pgPRT p) 2 (leBytes 1 n ++ leBytes 1 m'.length)).raise (pgPRT p) 17)
      (s2.refreshPort p).checkMin p m'.length
    | (t', none) => (s1.setNext p t').refreshPort p

/-! ## Retraining (R357) -/

/-- The port or pair unit that a lane belongs to is in service. -/
def State.laneHome (s : State) (l : Nat) : Bool :=
  if l < 32 then (s.port (l / 16)).phase == .service
  else if l < 36 then (s.port ((l - 32) / 2)).phase == .service
  else s.base.enabled 0x00C

/-- Refreshes the page of the lane's port; pair lanes show their own state. -/
def State.refreshLane (s : State) (l : Nat) : State :=
  if l < 36 then s.refreshPort (if l < 32 then l / 16 else (l - 32) / 2)
  else
    let st := if s.laneRetired l then uRETIRED else if s.base.ownState (pgLNK l) = uTEST then uTEST
      else if !s.base.enabled (pgLNK l) || !s.base.enabled 0x00C then uOFF
      else if s.laneOut l then uFAULT
      else if l < 40 then (if s.base.get (Reg.lnkStatus_ROLE l) = 0 then uBUSY else uREADY)
      else if s.base.get (Reg.lnkStatus_ALIGN l) = 2 then uBUSY else uFAULT
    if s.base.ownState pgPNL = uOFF then s else s.onBase (·.setOwn (pgLNK l) st)

/-- A retraining begins: 2 units of leave are requested. -/
def State.retrain (s : State) (l : Nat) : State :=
  if (s.lane l).retrain.isSome || s.laneRetired l then s
  else ((s.setLane l { s.lane l with retrain := some none, run := 0, dead := true }).request ridLane l 2).refreshLane l

/-- The test of class 4 that the Watch makes of a lane (Table 20.8), if its retraining is one. -/
def State.watchLane (s : State) (l : Nat) : Option WatchTest :=
  s.wch.test.bind (fun t => if t.cls = 4 ∧ t.target = pgLNK l then some t else none)

/-- Its leave is granted: 500 ms from now at the most. -/
def State.retrainGranted (s : State) (l : Nat) : State :=
  match (s.lane l).retrain with
  | some none =>
    let s1 := s.setLane l { s.lane l with retrain := some (some (s.base.ticks + secTicks / 2)), run := 0 }
    match s.watchLane l with
    | some t => { s1 with wch := { s1.wch with test := some { t with runs := true, at_ := s.base.ticks } } }
    | none => s1
  | _ => s

/-- The Watch's test of a lane is over, with its verdict if it has one: it is counted, and a failure is logged (R557). -/
def State.watchLaneOver (s : State) (l : Nat) (verdict : Option Bool) : State :=
  match s.watchLane l with
  | none => s
  | some t =>
    let s1 : State := { s with wch := { s.wch with test := none, last := sput (fun _ => 0) s.wch.last 4 s.base.ticks } }
    s1.onBase (fun b =>
      let b1 := b.busyIf 3 false
      match verdict with
      | some true => b1.count Reg.wchPass_COUNT 1
      | some false => ((b1.count Reg.wchFail_COUNT 1).fault 3 1 ([4, 0] ++ leBytes 2 t.target ++ leBytes 4 s.j)).raise 3 16
      | none => b1)

/-- A unit reset of the pair unit completes when those of its lanes have. -/
def State.pairResetEnd (s : State) : State :=
  if s.inReset 0x00C && (List.range 8).all (fun k => !s.inReset (pgLNK (36 + k))) then s.resetEnds 0x00C else s

/-- A retraining ends, whichever way: leave released, unit reset complete. -/
def State.retrainEnds (s : State) (l : Nat) (dead : Bool) : State :=
  let x := s.lane l
  (((s.setLane l { x with retrain := none, run := 0, ue := 0, ce := 0, reset := false, dead := dead }).release ridLane l).resetEnds (pgLNK l)).pairResetEnd

/-- A lane that returned joins its port: in the place that a map of fewer lanes would give up; as an active lane of a larger map, with the idle spares, when that allows a higher rate; as the parity spare if there is none; else as an idle spare (R357, R200). -/
def State.joinPort (s : State) (p n : Nat) : State :=
  let x := s.port p
  let t := x.target
  let z := s.base.word Reg.cmpSize
  let rate (m : List Nat) : Nat := rateMax (getBits z 15 0) (getBits z 31 16) m.length
  let larger := (t.map ++ (((s.idleSpares p t).filter x.lockedLane).filter (· != n) ++ [n]).take (12 - t.map.length)).mergeSort (fun a b => decide (a ≤ b))
  match x.fewer.bind (fun m => t.map.find? (fun k => !m.contains k)) with
  | some lost =>
    let m := t.map.map (fun k => if k = lost then n else k)
    let left := (x.fewer.getD []) ++ [n]
    ((s.setPort p { x with fewer := if left.length < t.map.length then some (left.mergeSort (fun a b => decide (a ≤ b))) else none }).setNext p { t with map := m })
  | none =>
    if rate larger < rate t.map then s.setPort p { x with fewer := some larger }
    else if t.par.isNone && s.base.flag (Reg.prtCtrl_PARITY_EN p) then s.setNext p { t with par := some n }
    else s

/-- The device selects a back-channel lane (R350). -/
def State.selectBc (s : State) (p b : Nat) : State := (s.setNext p { (s.port p).target with bc := b }).onBase (·.raise (pgPRT p) 19)

/-- A back-channel lane has become LOCKED: it is selected when the selected one is not; of two that return at the same instant, the preferred one (R350). -/
def State.bcReturns (s : State) (p b : Nat) : State :=
  let sel := (s.port p).target.bc
  let o := bcLane p (1 - b)
  let pref := s.base.get (Reg.prtCtrl_BC_PREF p)
  let other := pref == 1 - b && (s.lane o).retrain.isSome && decide (64 ≤ (s.lane o).run)
  let both := pref == b && (s.port p).bcAt == some s.base.ticks
  let choose (k : Nat) : State := (s.setPort p { s.port p with bcAt := some s.base.ticks }).selectBc p k
  if !(s.port p).sends || s.laneOut (bcLane p b) then s
  else if sel != b && s.rxGood (bcLane p sel) && !both then s
  else if other then choose (1 - b) else choose b

/-- RETRAIN_PASS: 64 in a row. -/
def State.retrainPassRow (s : State) (l : Nat) : State :=
  match (s.lane l).retrain with
  | some (some _) =>
    if (s.lane l).run < 64 then s
    else
      let s1 := (s.watchLaneOver l (some true)).retrainEnds l false
      (if l < 32 then s1.joinPort (l / 16) (l % 16) else if l < 36 then s1.bcReturns ((l - 32) / 2) (l % 2) else s1).refreshLane l
  | _ => s

/-- RETRAIN_FAIL: no such run within 500 ms of the grant; the third failure retires the lane. -/
def State.retrainFailRow (s : State) (l : Nat) : State :=
  match (s.lane l).retrain with
  | some (some t) =>
    if s.base.ticks < t || decide (64 ≤ (s.lane l).run) then s
    else (((s.watchLaneOver l (some false)).retrainEnds l true).onBase (fun b => (b.count (Reg.lnkStatus_FAILS l) 1).fault (pgLNK l) 1 (leBytes 4 s.j))).refreshLane l
  | _ => s

/-! ## The back-channel (R348 to R353) -/

/-- Bytes of a message outside its fields and SEQ are 0. -/
def zeroOutside (m : List Byte) (used : List Nat) : Bool := (List.range 28).all (fun i => used.contains i || m.getD i 0 == 0)

/-- A message of a known TYPE whose reserved bytes are 0 and whose lane is at most 15. -/
def backFormOk (m : List Byte) : Bool :=
  m.length == 32 &&
  match leAt m 0 1 with
  | 0x00 => zeroOutside m [0]
  | 0x10 => zeroOutside m [0, 1, 2, 3, 4, 5, 6, 7, 8, 9, 10, 11] && decide (leAt m 1 1 < 8)
  | 0x11 => zeroOutside m (List.range 27)
  | 0x12 => zeroOutside m [0, 1, 4, 5, 6, 7, 8, 9, 10, 11, 12, 13, 14, 15] && decide (leAt m 1 1 < 2)
  | 0x13 => zeroOutside m [0, 1] && decide (leAt m 1 1 < 16)
  | 0x14 => zeroOutside m [0, 1, 2, 4, 5, 6, 7, 8, 9, 10, 11] && decide (leAt m 1 1 < 16)
  | _ => false

/-- J is one of the last 4 subframes. -/
def State.recentJ (s : State) (j : Nat) : Bool := decide (sub32 s.j j < 4)

/-- A block that the device ignores and counts (R351). -/
def State.bcGarbage (s : State) (p : Nat) : State :=
  let x := s.port p
  let s1 := s.onBase (·.count (Reg.prtBcGarbage_COUNT p) 1)
  if x.garbage then s1 else (s1.setPort p { x with garbage := true }).onBase (·.raise (pgPRT p) 21)

/-- A back-channel block of a TYPE on a lane of a port: ignored and counted when R351 says so, else handed on. -/
def State.backBlock (s : State) (p b type : Nat) (m : BackBlock) (k : List Byte → State → State) : State :=
  let x := s.port p
  let l := bcLane p b
  let s1 := if (decodeBlock m).2 = 0 then s else s.onBase (·.count (Reg.lnkCe_COUNT l) (decodeBlock m).2)
  if !x.sends then s
  else match (decodeBlock m).1 with
    | .control bs =>
      let t := leAt bs 0 1
      if !backFormOk bs || (t != 0 && x.now.bc != b) || ((t == 0x10 || t == 0x12) && !s.recentJ (leAt bs 4 4)) then s1.bcGarbage p
      else if t = type then k bs s1 else s1
    | .uncorrectable => (s1.onBase (·.count (Reg.lnkUe_COUNT l) 1)).bcGarbage p
    | _ => s1.bcGarbage p

/-- The lock bit of a transmit lane changes in a STATUS: ALIGN, LOCK and LOCK_LOST. -/
def State.txLock (p lock : Nat) (s : State) (n : Nat) : State :=
  let l := txLane p n
  let was := s.base.get (Reg.lnkStatus_ALIGN l) == 2
  let now := lock.testBit n
  let s1 := s.onBase (·.put (Reg.lnkStatus_ALIGN l) (if now then 2 else 0))
  if was && !now then s1.onBase (fun b => (b.count (Reg.lnkLockLoss_COUNT l) 1).raise (pgLNK l) 17)
  else if !was && now then s1.onBase (·.raise (pgLNK l) 16) else s1

/-- The consecutive locked reports of a retraining lane. -/
def State.retrainCount (p lock : Nat) (s : State) (n : Nat) : State :=
  let l := txLane p n
  match (s.lane l).retrain with
  | some (some _) => s.setLane l { s.lane l with run := if lock.testBit n then (s.lane l).run + 1 else 0 }
  | _ => s

/-- STATUS. -/
def State.statusMsg (p : Nat) (m : List Byte) (s : State) : State :=
  let lock := leAt m 2 2
  let x := s.port p
  let temp := if (leAt m 1 1).testBit 2 then some (toSigned 16 (leAt m 8 2), s.base.ticks) else x.temp
  let all := (x.now.map ++ x.now.par.toList).all (fun n => lock.testBit n)
  let fallen := (x.now.map ++ x.now.par.toList).filter (fun n => x.seen.contains n && !lock.testBit n)
  let seen := (x.seen ++ (List.range 16).filter (fun n => lock.testBit n && !s.laneOut (txLane p n))).dedup
  let s1 := (List.range 16).foldl (State.retrainCount p lock) ((List.range 16).foldl (State.txLock p lock) s)
  let s2 := s1.setPort p { x with
    lock := lock, temp := temp, good := if x.phase != .training then x.good else if all then x.good + 1 else 0
    seen := if x.phase == .service then seen else x.seen }
  let s3 : State := if (leAt m 1 1).testBit 2 then { s2 with pnl := { s2.pnl with noTemp := none } } else s2
  if x.phase == .service then (fallen.foldl (fun y n => y.loseLane p n 1 true) s3).refreshPort p else s3.refreshPort p

/-- HEALTH of one lane: counters and the triggers of R353. -/
def State.healthLane (p : Nat) (m : List Byte) (s : State) (n : Nat) : State :=
  let l := txLane p n
  let ue := (leAt m 1 2).testBit n
  let ce := bits (leAt m 3 24) (12 * n + 11) (12 * n)
  let s1 := s.onBase (fun b => (b.count (Reg.lnkUe_COUNT l) (if ue then 1 else 0)).count (Reg.lnkCe_COUNT l) ce)
  let x := s.port p
  if x.phase == .service && x.now.has n && x.seen.contains n then
    let nu := if ue then (s.lane l).ue + 1 else 0
    let nc := if s.base.get (Reg.prtHealth_CE_THR p) ≤ ce then (s.lane l).ce + 1 else 0
    let s2 := s1.setLane l { s.lane l with ue := nu, ce := nc }
    if 4 ≤ nu then s2.loseLane p n 2 true else if 8 ≤ nc then s2.loseLane p n 3 true else s2
  else s1

/-- HEALTH. -/
def State.healthMsg (p : Nat) (m : List Byte) (s : State) : State := (List.range 16).foldl (State.healthLane p m) s

/-- CRC_REPORT (R352). -/
def State.crcMsg (p : Nat) (m : List Byte) (s : State) : State :=
  let j := leAt m 4 4
  let tsig := leAt m 8 4
  let own := (s.sco.sigs.find? (fun g => g.j == j)).map (·.tsig)
  let s1 := s.onBase (fun b => (((b.put (Reg.prtReportJ_J p) j).put (Reg.prtReportTsig_TSIG p) tsig).count (Reg.prtLinesDamaged_COUNT p) (leAt m 12 2)).count (Reg.prtLinesRebuilt_COUNT p) (leAt m 14 2))
  if leAt m 1 1 = 1 && own == some tsig then s1
  else
    let x := s.port p
    let recent := x.faults.filter (fun t => decide (s.base.ticks < t + secTicks))
    let s2 := s1.onBase (fun b => (b.count (Reg.prtTsigBad_COUNT p) 1).raise (pgPRT p) 18)
    if 16 ≤ recent.length then s2
    else (s2.setPort p { x with faults := s.base.ticks :: recent }).onBase (·.fault (pgPRT p) 3 (leBytes 4 j ++ leBytes 4 tsig ++ leBytes 4 (own.getD 0)))

/-- LANE_LOSS. -/
def State.laneLossMsg (p : Nat) (m : List Byte) (s : State) : State :=
  let n := leAt m 1 1
  let x := s.port p
  if x.phase == .service && x.target.has n && x.seen.contains n then s.loseLane p n 0 true else s

/-- LOOP_RESULT. -/
def State.loopMsg (p : Nat) (m : List Byte) (s : State) : State :=
  let l := txLane p (leAt m 1 1)
  let e := leAt m 4 4
  s.onBase (fun b =>
    let b1 := (b.count (Reg.lnkPrbsErr_COUNT l) e).count (Reg.lnkPrbsMbits_COUNT l) (leAt m 8 4)
    if e = 0 then b1 else b1.raise (pgLNK l) 18)

/-- The panel temperature: from port P, else from Q, of the last 1,000 ms (R213). -/
def State.panelTemp (s : State) : Option Int :=
  let fresh (p : Nat) : Option Int := (s.port p).temp.bind (fun t => if s.base.ticks < t.2 + secTicks then some t.1 else none)
  (fresh 0).orElse (fun _ => fresh 1)

/-! ## Receive lanes (R341, R350) -/

/-- RX_LANE_LOCKED. -/
def State.rxLockedRow (s : State) (l : Nat) : State :=
  if l < 32 || (36 ≤ l && decide (l < 40)) || s.base.get (Reg.lnkStatus_ALIGN l) == 2 then s
  else
    let s1 := s.onBase (fun b => ((b.setHunt l Hunt.rest).put (Reg.lnkStatus_ALIGN l) 2).raise (pgLNK l) 16)
    (if l < 36 then s1.bcReturns ((l - 32) / 2) (l % 2) else s1).refreshLane l

/-- A back-channel lane is gone: the other is selected if LOCKED, else BC_LOST. -/
def State.bcLeaves (s : State) (p b : Nat) : State :=
  if !(s.port p).sends || (s.port p).target.bc != b then s
  else if s.rxGood (bcLane p (1 - b)) then s.selectBc p (1 - b)
  else s.onBase (·.raise (pgPRT p) 20)

/-- LOCK_LOSS: 16 invalid headers out of 64. -/
def State.lockLossRow (s : State) (l : Nat) : State :=
  if l < 32 || (36 ≤ l && decide (l < 40)) || s.base.get (Reg.lnkStatus_ALIGN l) != 2 then s
  else
    let s1 := s.onBase (fun b => (((b.put (Reg.lnkStatus_ALIGN l) 0).count (Reg.lnkLockLoss_COUNT l) 1).raise (pgLNK l) 17).fault (pgLNK l) 2 (leBytes 4 s.j))
    let s2 := s1.setLane l { s1.lane l with run := 0 }
    (if l < 36 then s2.bcLeaves ((l - 32) / 2) (l % 2) else s2).refreshLane l

/-! ## Lane pages (R353, R357, R363, R364, R367) -/

/-- A lane taken out by software: a panel lane as a loss, a back-channel lane out of the selection; pair lanes are not listed for striping any more. -/
def State.takeOut (s : State) (l cause : Nat) (dead : Bool) : State :=
  if l < 32 then
    if (s.port (l / 16)).phase == .service || (s.port (l / 16)).phase == .training then s.loseLane (l / 16) (l % 16) cause dead
    else s.setLane l { s.lane l with dead := (s.lane l).dead || dead }
  else
    let s1 := s.setLane l { s.lane l with dead := (s.lane l).dead || dead }
    if l < 36 then s1.bcLeaves ((l - 32) / 2) (l % 2) else s1

/-- Gives up a retraining under way. -/
def State.dropRetrain (s : State) (l : Nat) : State := if (s.lane l).retrain.isSome then (s.watchLaneOver l none).retrainEnds l true else s

/-- A write of a lane's ENABLE. -/
def State.laneEnabled (l : Nat) (on : Bool) (s : State) : State :=
  if on then (s.retrain l).refreshLane l
  else (((s.dropRetrain l).takeOut l 4 (s.lane l).dead)).refreshLane l

/-- A write of a lane's RESET. -/
def State.laneReset (l : Nat) (s : State) : State :=
  if s.laneRetired l || !s.base.enabled (pgLNK l) || !s.laneHome l || (s.lane l).retrain.isSome then s
  else
    let s1 := if (s.lane l).dead || (32 ≤ l && l != 36 && l != 37 && l != 38 && l != 39 && !s.rxGood l) then s else s.takeOut l 5 true
    ((s1.resetBegins (pgLNK l)).retrain l).refreshLane l

/-- The lane carries rows: an active lane or parity spare, the selected back-channel lane, a pair lane in the striping. LOOP and PATTERN may be written on every other lane (R363). -/
def State.loopAllowed (s : State) (l : Nat) : Bool :=
  if l < 32 then !((s.port (l / 16)).sends && (s.port (l / 16)).now.has (l % 16) && !s.laneOut l)
  else if l < 36 then !((s.port ((l - 32) / 2)).sends && (s.port ((l - 32) / 2)).now.bc == l % 2 && s.rxGood l)
  else !(s.base.enabled 0x00C && s.base.get (Reg.lnkStatus_ROLE l) == 0 && !s.laneOut l)

/-- LOOP and PATTERN act only on a lane that is withdrawn, under retraining, in TEST or an idle spare (R363). -/
def State.loopActs (s : State) (l : Nat) : Bool :=
  !s.base.enabled (pgLNK l) || (s.lane l).retrain.isSome || s.base.ownState (pgLNK l) == uTEST ||
    (decide (l < 32) && (s.port (l / 16)).sends && (s.idleSpares (l / 16) (s.port (l / 16)).now).contains (l % 16))

/-- The LOOP block for a lane: operation and pattern (Table 12.3, Table 12.8); none for pair lanes and near-end loops. -/
def loopBlock (l loop pat : Nat) : Option (Nat × List Byte) :=
  if l < 32 then some (l / 16, [0x06, if loop = 3 && pat != 0 then 1 else 0] ++ leBytes 1 (l % 16) ++ leBytes 1 pat)
  else if l < 36 then some ((l - 32) / 2, [0x06, if loop = 3 && pat != 0 then 2 else 0] ++ leBytes 1 (0x10 + l % 2) ++ leBytes 1 pat)
  else none

/-- LOOP: a write of LNK_CTRL; nonzero LOOP or PATTERN on an active lane or the parity spare is refused. The checker seeds itself anew, and the LOOP block is sent in the first row that is free; while every row holds LINK_DARK there is none. -/
def State.loopWrite (s : State) (l : Nat) (a : RegWr) : State :=
  let new := mergeBytes (s.base.word (Reg.lnkCtrl l)).toNat a.val.toNat a.be
  s.guardedWrite (Reg.lnkCtrl l) a (!s.loopAllowed l && (bits new 5 4 != 0 || bits new 11 8 != 0)) (fun _ _ w x =>
    let loop := bits w 5 4
    let pat := bits w 11 8
    let x1 := (x.setLane l { x.lane l with loop := if loop = 0 || pat = 0 then none else some (loop, pat) }).onBase (·.setPrbs l Prbs.rest)
    match loopBlock l loop pat with
    | some (p, blk) => if (x1.port p).sends && x1.pnl.linkDark.isNone then x1.sendRow p blk else x1
    | none => x1)

/-- The LOOP blocks repeated in a subframe's TIMING position while their loops act (R363, R364). -/
def State.repeatLoops (s : State) (p : Nat) : State :=
  ((List.range 16).map (txLane p) ++ [bcLane p 0, bcLane p 1]).foldl (fun (x : State) l =>
    match (x.lane l).loop with
    | some (loop, pat) => (match loopBlock l loop pat with | some (_, blk) => if x.loopActs l then x.sendLineRow p blk else x | none => x)
    | none => x) s

/-! ## Link-dark (R346, R365) -/

/-- LINK_DARK in every row of every port that sends, with a cause. -/
def State.sendLinkDark (s : State) (cause : Nat) : State :=
  (List.range 2).foldl (fun (x : State) p => if (x.port p).sends then x.sendRow p ([0x03] ++ leBytes 1 cause) else x) s

/-- A write of PNL_CTRL. -/
def State.linkDarkWrite (s : State) (a : RegWr) : State :=
  s.write Reg.pnlCtrl a (fun _ old new x =>
    if new % 2 = 1 && old % 2 = 0 then ({ x with pnl := { x.pnl with linkDark := some 2, resume := false } } : State).sendLinkDark 2
    else if new % 2 = 0 && old % 2 = 1 then { x with pnl := { x.pnl with resume := true } } else x)

/-! ## Port pages (R347, R366) -/

/-- A unit reset of the group page completes when those of both ports have (R365). -/
def State.panelResetEnd (s : State) : State :=
  if s.inReset pgPNL && !s.inReset (pgPRT 0) && !s.inReset (pgPRT 1) then s.resetEnds pgPNL else s

/-- A write of a port's ENABLE. -/
def State.portEnabled (p : Nat) (on : Bool) (s : State) : State :=
  if on then (match (s.port p).phase with | .idle => s.portAsks p | .ending => (s.setPort p { s.port p with restart := true }).refreshPort p | _ => s.refreshPort p)
  else (((s.setPort p { s.port p with restart := false }).portEnds p).resetEnds (pgPRT p)).panelResetEnd

/-- A unit reset of a port: its service ends, and it is brought up anew while ENABLE is 1. -/
def State.portReset (p : Nat) (s : State) : State :=
  if !s.base.enabled (pgPRT p) then s
  else
    let s1 := s.resetBegins (pgPRT p)
    if (s1.port p).phase == .idle then s1.portAsks p
    else
      let s2 := (s1.portEnds p).setPort p { (s1.portEnds p).port p with restart := true }
      if (s2.port p).phase == .idle then s2.portAsks p else s2

/-! ## A port at a subframe start -/

/-- The values for this subframe take effect; LANE_SPARED when the map or the parity spare changed; a waiting map at a slot 0 whose rate allows it. While LINK_DARK goes on they wait for the next lit subframe (R358). -/
def State.portApply (s : State) (p : Nat) (slot0 : Bool) : State :=
  let x := s.port p
  if s.pnl.linkDark.isSome && !(slot0 && s.pnl.resume) then s.setPort p { x with garbage := if slot0 then false else x.garbage } else
  let t0 := x.next.getD x.now
  let t := if slot0 then s.withParity p t0 else t0
  let w := match x.fewer with
    | some m => if slot0 && decide (rateMax s.sco.width s.sco.height m.length ≤ s.sco.rate) then some m else none
    | none => none
  let t1 := match w with | some m => { t with map := m } | none => t
  let x1 := { x with now := t1, next := x.later, later := none, fewer := if w.isSome then none else x.fewer, garbage := if slot0 then false else x.garbage }
  let spared := t.map != x.now.map || t.par != x.now.par
  let s1 := s.setPort p x1
  if spared && x.phase == .service then s1.onBase (·.raise (pgPRT p) 16) else s1

/-- An ending port stops: LINK_DARK with cause 3 for 64 codewords, electrical idle, and bring-up anew when its ENABLE is 1 and a unit reset or a write asks for it. -/
def State.portStop (s : State) (p : Nat) : State :=
  let x := s.port p
  if x.phase != .ending then s
  else
    let was := s.base.flag (Reg.prtStatus_IN_SERVICE p)
    let s1 := ((s.sendRow p [0x03, 3]).setPort p { Port.off with temp := x.temp }).onBase (fun b =>
      { b with wire := { b.wire with tails := sput (fun _ => none) b.wire.tails p (some (3, 64)) } })
    let s2 := if was then s1.onBase (·.raise (pgPRT p) 23) else s1
    let again := s.base.enabled (pgPRT p) && x.restart
    (if again then (s2.portAsks p) else s2).refreshPort p

/-- A trained port enters service at slot 0 (R347). -/
def State.portEnters (s : State) (p : Nat) : State :=
  let x := s.port p
  if x.phase == .training && decide (8 ≤ x.good) then
    let s1 := (s.release (ridPort p) 0).setPort p { x with phase := .service, seen := [] }
    ((s1.onBase (·.raise (pgPRT p) 22)).resetEnds (pgPRT p)).refreshPort p
  else s

/-- Subframe starts counted by retraining receive lanes (R357); pair transmit lanes count with the partner's MAP. -/
def State.rxCount (s : State) (named : Nat → Bool) : State :=
  ((List.range 12).map (· + 32)).foldl (fun (x : State) l =>
    match (x.lane l).retrain with
    | some (some _) =>
      let good := if 36 ≤ l ∧ l < 40 then named (l - 36) else x.base.get (Reg.lnkStatus_ALIGN l) == 2
      x.setLane l { x.lane l with run := if good then (x.lane l).run + 1 else 0 }
    | _ => x) s

/-- A unit reset of the group page: one of both ports. -/
def State.panelReset (s : State) : State := (((s.resetBegins pgPNL).portReset 0).portReset 1).panelResetEnd

/-- Both ports at a subframe start. -/
def State.portsSubframe (s : State) (slot0 : Bool) : State :=
  ((List.range 2).foldl (fun (x : State) p =>
    let x1 := (x.portApply p slot0).portStop p
    ((if slot0 then x1.portEnters p else x1).refreshPort p)) s).panelResetEnd

/-- A warm reset abandons every retraining; the lane stays FAULT (R357). -/
def State.lanesWarm (s : State) : State := (List.range 44).foldl (fun x l => (x.dropRetrain l).refreshLane l) s

end Sys2Proof.Machine
end

