-- ==== Sys2Proof/Machine/Beacon.lean ====
section
/-! DEFINITION. The Beacon (chapter 13): zones and their start-up, light windows and pulses, verdicts, trips, diagnostic pulses and accumulation, neighbouring-pin tests, re-arm. -/

namespace Sys2Proof.Machine

/-- The Beacon fires nothing: the subframe is flagged dark, or LINK_DARK is being sent (R219, R365). -/
def State.flaggedDark (s : State) : Bool := s.sco.beaconDark || s.pnl.linkDark.isSome

abbrev pgBCN : Nat := 0x080
abbrev pgZON (z : Nat) : Nat := 0x081 + z

/-- String states of Table 13.2. -/
abbrev strOFF : Nat := 0
abbrev strOK : Nat := 1
abbrev strUNVERIFIED : Nat := 2
abbrev strPENDING : Nat := 3
abbrev strNEIGHBOUR : Nat := 7

def State.zone (s : State) (z : Nat) : Zone := sget (fun _ => Zone.rest) s.bcn.zones z
def State.setZone (s : State) (z : Nat) (x : Zone) : State := { s with bcn := { s.bcn with zones := sput (fun _ => Zone.rest) s.bcn.zones z x } }
def State.str (s : State) (z i : Nat) : Str := sget (fun _ => Str.rest) s.bcn.strs (8 * z + i)
def State.setStr (s : State) (z i : Nat) (x : Str) : State := { s with bcn := { s.bcn with strs := sput (fun _ => Str.rest) s.bcn.strs (8 * z + i) x } }
def State.strState (s : State) (z i : Nat) : Nat := s.base.get (Reg.strState_STATE z i)

/-- The zone is past its grant: its strings may fire. -/
def Zone.on (x : Zone) : Bool := match x.phase with | .ramp _ => true | .started => true | _ => false

/-- A string fires in these states. -/
def fires (st : Nat) : Bool := st == strOK || st == strUNVERIFIED || st == strPENDING

/-! ## Balls (R368, R382, R568) -/

/-- The number of a ball: 4 × (8z + s) + role. -/
def ballNum (b : Ball) : Nat :=
  4 * (8 * b.z.toNat + b.s.toNat) + (match b.role with | .gate => 0 | .dim => 1 | .isns => 2 | .vsns => 3)

/-- Row and column of a ball (R568). -/
def ballPos (n : Nat) : Nat × Nat :=
  let i := n / 4 % 8
  let z := n / 32
  let r0 := 3 + 8 * (z % 6) + 2 * (i / 2)
  let c := (if z < 6 then 0 else 50) + 2 * (i % 2)
  match n % 4 with
  | 0 => (r0, c)
  | 1 => (r0, c + 1)
  | 2 => (r0 + 1, c + 1)
  | _ => (r0 + 1, c)

/-- Orthogonal or diagonal neighbours. -/
def adjacent (a b : Nat) : Bool :=
  let p := ballPos a
  let q := ballPos b
  a != b && decide (p.1 ≤ q.1 + 1 ∧ q.1 ≤ p.1 + 1 ∧ p.2 ≤ q.2 + 1 ∧ q.2 ≤ p.2 + 1)

/-- The pairs with a ball among the given ones, lower number first; neighbours lie in the same zone or the next one. -/
def pairsOf (balls : List Nat) : List (Nat × Nat) :=
  (balls.flatMap (fun a =>
    let z := a / 32
    let near := (List.range 96).map (fun k => 32 * (z - 1) + k)
    (near.filter (fun b => decide (b < 384) && adjacent a b)).map (fun b => (min a b, max a b)))).dedup

/-- The pairs of a zone and of a string. -/
def zonePairs (z : Nat) : List (Nat × Nat) := pairsOf ((List.range 32).map (· + 32 * z))
def strPairs (z i : Nat) : List (Nat × Nat) := pairsOf ((List.range 4).map (· + 4 * (8 * z + i)))

/-- Tests of a zone or a string still to come. -/
def State.zoneTests (s : State) (z : Nat) : Bool := s.bcn.tests.any (fun p => p.1 / 32 == z || p.2 / 32 == z)
def State.strTests (s : State) (z i : Nat) : Bool := s.bcn.tests.any (fun p => p.1 / 4 == 8 * z + i || p.2 / 4 == 8 * z + i)

/-- Adds tests. -/
def State.addTests (s : State) (l : List (Nat × Nat)) : State := { s with bcn := { s.bcn with tests := (s.bcn.tests ++ l).dedup } }

/-! ## Registers and states that follow (R387, R388) -/

/-- A zone's state and the group's counts. -/
def State.refreshZone (s : State) (z : Nat) : State :=
  let st := (List.range 8).map (s.strState z)
  let bad := st.filter (fun x => decide (4 ≤ x))
  let own := if (s.zone z).phase != .started || !s.base.enabled (pgZON z) || !s.base.enabled pgBCN then uOFF
    else if bad.length = 8 then uFAULT else if !bad.isEmpty || st.contains strUNVERIFIED then uDEGRADED else uBUSY
  let all := (List.range 12).flatMap (fun z => (List.range 8).map (s.strState z))
  s.onBase (fun b =>
    ((((b.setOwn (pgZON z) own).put Reg.bcnStatus_UNVERIFIED (all.filter (· == strUNVERIFIED)).length).put Reg.bcnStatus_FAULTED
      (all.filter (fun x => decide (4 ≤ x))).length).putFlag Reg.bcnStatus_WAIT_LEAVE ((List.range 12).any (fun z => (s.zone z).phase == .asks))).put Reg.bcnStatus_STARTED
      ((List.range 12).foldl (fun a z => if (s.zone z).phase == .started then a + 2 ^ z else a) 0))

/-- Two decimal digits. -/
def twoDigits (z : Nat) : String := (if z < 10 then "0" else "") ++ toString z

/-- GATE and DIM of a string are driven low. -/
def Base.lowPins (b : Base) (z i : Nat) : Base :=
  (b.emit (.pin ("GATE_" ++ twoDigits z ++ "_" ++ toString i) false)).emit (.pin ("DIM_" ++ twoDigits z ++ "_" ++ toString i) false)

/-- GATE and DIM of a string go low for good: nothing planned is left, and its accumulator is not in use. -/
def State.lowString (s : State) (z i : Nat) : State :=
  (s.setStr z i { s.str z i with plan := [] }).onBase (fun b => (b.lowPins z i).putFlag (Reg.strState_ACC z i) false)

def State.putStr (s : State) (z i st : Nat) : State := s.onBase (·.put (Reg.strState_STATE z i) st)

/-- A string becomes OPEN, SHORT, OVERCURRENT or NEIGHBOUR_SHORT (codes 1 to 4): low, fault and event; a string already in the state stays so. -/
def State.faultString (s : State) (z i code partner roles : Nat) : State :=
  if s.strState z i = 3 + code then s
  else
    ((((s.lowString z i).putStr z i (3 + code)).onBase (fun b =>
      (b.fault (pgZON z) code (leBytes 1 i ++ leBytes 1 partner ++ leBytes 1 roles ++ [0] ++ leBytes 4 s.j)).raise (pgZON z) (15 + code))).refreshZone z)

/-! ## Start-up of zones (R376, R385) -/

/-- A string as its zone starts: enabled, and not faulted or its retest over (R384), it is PENDING. -/
def State.startStr (z : Nat) (s : State) (i : Nat) : State :=
  let x := s.str z i
  let st := s.strState z i
  if !s.base.flag (Reg.strCtrl_ENABLE z i) then s
  else if 4 ≤ st && !(x.retest && !s.strTests z i) then s
  else ((s.setStr z i { x with retest := false, ramp := none }).putStr z i strPENDING).onBase (fun b =>
    (b.put (Reg.strState_FAILS z i) 0).put (Reg.strState_NOVERDICT z i) 0)

/-- Step 2 of the zone whose pin tests are over, no earlier than the frame after the last grant. -/
def State.zoneAsks (s : State) (z : Nat) : State :=
  if (s.zone z).phase == .pinTest && !s.zoneTests z && (match s.bcn.grant with | some g => decide (g < s.bcn.frame) | none => true) then
    ((s.setZone z { s.zone z with phase := .asks }).request ridZone z (s.base.get Reg.bcnInrush_UNITS)).refreshZone z
  else s

/-- The zone in step 1 or 2 goes on; when there is none, the lowest waiting zone begins. -/
def State.zonesAdvance (s : State) : State :=
  match (List.range 12).find? (fun z => (s.zone z).phase == .pinTest || (s.zone z).phase == .asks) with
  | some z => s.zoneAsks z
  | none => match (List.range 12).find? (fun z => (s.zone z).phase == .waits) with
    | some z => (s.setZone z { s.zone z with phase := .pinTest }).addTests (zonePairs z)
    | none => s

/-- A zone begins to wait for its turn. -/
def State.zoneWaits (s : State) (z : Nat) : State :=
  if s.base.enabled pgBCN && s.base.enabled (pgZON z) && s.base.ownState pgBCN != uNOCLOCK && s.base.ownState (pgZON z) != uNOCLOCK && (s.zone z).phase == .off then s.setZone z { s.zone z with phase := .waits } else s

/-- A pair has a ball of a string that waits for its retest. -/
def State.retestPair (s : State) (p : Nat × Nat) : Bool := (s.str (p.1 / 32) (p.1 / 4 % 8)).retest || (s.str (p.2 / 32) (p.2 / 4 % 8)).retest

/-- A zone stops: its balls low, its start given up with the tests of that start (a re-armed string keeps its own, R384); strings without a fault read OFF. -/
def State.zoneStop (s : State) (z : Nat) : State :=
  let s1 : State := (s.setZone z { s.zone z with phase := .off }).release ridZone z
  let s2 : State := if (s.zone z).phase == .pinTest then { s1 with bcn := { s1.bcn with tests := s1.bcn.tests.filter (fun p => !(p.1 / 32 == z || p.2 / 32 == z) || s1.retestPair p) } } else s1
  ((List.range 8).foldl (fun (x : State) i =>
    let y := (x.lowString z i).setStr z i { x.str z i with plan := [], ramp := none, acc := 0 }
    if y.strState z i < 4 then y.putStr z i strOFF else y) s2).refreshZone z

/-- The leave of a zone is granted: the soft start begins with the next frame. -/
def State.zoneGranted (s : State) (z : Nat) : State :=
  if (s.zone z).phase != .asks then s
  else
    let s1 : State := { s.setZone z { s.zone z with phase := .ramp 0 } with bcn := { (s.setZone z { s.zone z with phase := .ramp 0 }).bcn with grant := some s.bcn.frame } }
    (((List.range 8).foldl (State.startStr z) s1).refreshZone z).zonesAdvance

/-- STARTED: frame 8 of the soft start is over. -/
def State.zoneStartedRow (s : State) (z : Nat) : State :=
  if (s.zone z).phase != .ramp 9 then s
  else (((((s.setZone z { s.zone z with phase := .started }).release ridZone z).resetEnds (pgZON z)).onBase (·.raise (pgZON z) 21)).refreshZone z)

/-- A write of the group's ENABLE. -/
def State.beaconEnabled (on : Bool) (s : State) : State :=
  let s0 := s.setUnit pgBCN uOFF
  if on then
    ((List.range 12).foldl State.zoneWaits { s with bcn := { s.bcn with grant := none } }).zonesAdvance.onBase (·.setOwn pgBCN uBUSY)
  else (List.range 12).foldl State.zoneStop s0

/-- A write of a zone's ENABLE. -/
def State.zoneEnabled (z : Nat) (on : Bool) (s : State) : State :=
  let s1 := s.zoneStop z
  (if on then (s1.zoneWaits z).zonesAdvance else (s1.resetEnds (pgZON z)).zonesAdvance)

/-- A unit reset of a zone: low, its faulted strings to be retested, and the zone restarts (R384, R385). -/
def State.zoneReset (z : Nat) (s : State) : State :=
  let s1 := s.zoneStop z
  let s2 := (List.range 8).foldl (fun (x : State) i =>
    let y := x.setStr z i { x.str z i with retest := decide (4 ≤ x.strState z i) }
    if 4 ≤ x.strState z i then y.addTests (strPairs z i) else y) s1
  let s3 := s2.zoneWaits z
  (if (s3.zone z).phase == .waits then s3.resetBegins (pgZON z) else s3).zonesAdvance

/-- A unit reset of the group restarts every zone; it completes at once. -/
def State.beaconReset (s : State) : State := (List.range 12).foldl (fun x z => x.zoneReset z) s

/-- Every GATE and DIM low (power loss, R385). -/
def State.beaconLow (s : State) : State := (List.range 12).foldl State.zoneStop s

/-- What the sense balls ISNS and VSNS are (Table 13.3). -/
inductive SenseMode where
  | highZ | sensed | unpowered
  deriving DecidableEq, Repr

/-- The sense balls: unpowered without VAON, sensed while the Beacon is enabled and no dark sequence runs, high-impedance otherwise (R385). -/
def State.senseBalls (s : State) : SenseMode :=
  if s.pwr.off then .unpowered
  else if s.pwr.held || s.pwr.dark.isSome || !s.base.enabled pgBCN then .highZ
  else .sensed

/-! ## Strings (R377, R384) -/

/-- A string starts with its own soft start, if its zone fires. -/
def State.ownStart (s : State) (z i : Nat) : State :=
  let s1 := s.setStr z i { s.str z i with retest := false, acc := 0 }
  if (s.zone z).on && s.base.flag (Reg.strCtrl_ENABLE z i) then
    (((s1.setStr z i { s1.str z i with ramp := some 0 }).putStr z i strPENDING).onBase (fun b =>
      (b.put (Reg.strState_FAILS z i) 0).put (Reg.strState_NOVERDICT z i) 0)).refreshZone z
  else (s1.putStr z i strOFF).refreshZone z

/-- STRING_ENABLE: a write of STR_CTRL. -/
def State.strCtrlWrite (s : State) (z i : Nat) (a : RegWr) : State :=
  s.write (Reg.strCtrl z i) a (fun _ old new x =>
    if old.testBit 31 == new.testBit 31 then x
    else if new.testBit 31 then (if 4 ≤ x.strState z i then x else x.ownStart z i)
    else
      let y := (x.lowString z i).setStr z i { x.str z i with plan := [], ramp := none, acc := 0 }
      (if y.strState z i < 4 then y.putStr z i strOFF else y).refreshZone z)

/-- REARM: a faulted string's ball pairs are tested again. -/
def State.strRearmWrite (s : State) (z i : Nat) (a : RegWr) : State :=
  s.write (Reg.strState z i) a (fun act _ _ x =>
    if act.testBit 31 && decide (4 ≤ x.strState z i) then (x.setStr z i { x.str z i with retest := true }).addTests (strPairs z i) else x)

/-- A string's retest is over: it restarts. -/
def State.retestOver (s : State) (z i : Nat) : State :=
  if (s.str z i).retest && !s.strTests z i && ((s.zone z).on || (s.zone z).phase == .off) then s.ownStart z i else s

/-- A short found between two balls: both strings, or the one, become NEIGHBOUR_SHORT; a re-arm of theirs has failed. -/
def State.shortPair (s : State) (a b : Nat) : State :=
  let hit (x : State) (own other : Nat) : State :=
    let z := own / 32
    let i := own / 4 % 8
    (x.setStr z i { x.str z i with retest := false }).faultString z i 4 (other / 4) (own % 4 + 16 * (other % 4))
  if a / 4 = b / 4 then hit s a b else hit (hit s a b) b a

/-- The closed interval of a zone in the current subframe, as instants. -/
def State.closedAt (s : State) (z : Nat) : Int × Int :=
  let a := s.base.get Reg.scoClosed_CL_START + z * s.base.get Reg.scoLwStep_LW_STEP
  (s.sco.partAt a, s.sco.partAt (a + s.base.get Reg.scoClosed_CL_LEN))

/-! ## Firing (R373, R374, R381) -/

/-- The step of an instant after the subframe start. -/
def stepOf (t : Int) : Nat := (2 * t.toNat + 4) / 5

/-- The pulses of plan(), start and length in steps, with the 32-bit wraps of its pseudocode (R13). -/
def planPulses (wo wc duty np : Nat) : List (Nat × Nat) :=
  let w := sub32 wc wo
  let on := w * duty / 65536 % 2 ^ 32
  (List.range np).map (fun k =>
    let s0 := k * w / np % 2 ^ 32
    let s1 := (k + 1) * w / np % 2 ^ 32
    let l := sub32 ((k + 1) * on / np % 2 ^ 32) (k * on / np % 2 ^ 32)
    ((wo + s0 + sub32 (sub32 s1 s0) l / 2) % 2 ^ 32, l))

/-- The window and the closed interval of a zone in steps. -/
def State.windowSteps (s : State) (z : Nat) : Nat × Nat :=
  let a := s.base.get Reg.scoLw_LW_START + z * s.base.get Reg.scoLwStep_LW_STEP
  (stepOf (s.sco.partAt a - s.sco.startAt), stepOf (s.sco.partAt (a + s.base.get Reg.scoLw_LW_LEN) - s.sco.startAt))
def State.closedSteps (s : State) (z : Nat) : Nat × Nat :=
  (stepOf ((s.closedAt z).1 - s.sco.startAt), stepOf ((s.closedAt z).2 - s.sco.startAt))

/-- DUTY under the soft starts of the zone and of the string. -/
def State.dutyNow (s : State) (z i : Nat) : Nat :=
  let fz := match (s.zone z).phase with | .ramp f => min f 8 | _ => 8
  let f := match (s.str z i).ramp with | some f => min f 8 | none => 8
  s.base.get (Reg.strCtrl_DUTY z i) * min f fz / 8

/-- The string may fire: the group, the zone and the string are enabled, the zone is past its grant, no fault. -/
def State.mayFire (s : State) (z i : Nat) : Bool :=
  s.base.enabled pgBCN && s.base.enabled (pgZON z) && s.base.flag (Reg.strCtrl_ENABLE z i) && (s.zone z).on && fires (s.strState z i)

/-- The nonempty planned pulses of a string. -/
def State.planned (s : State) (z i : Nat) : List (Nat × Nat) :=
  if s.base.get Reg.scoLw_LW_LEN = 0 then []
  else
    let w := s.windowSteps z
    (planPulses w.1 w.2 (s.dutyNow z i) (s.base.get (Reg.strCtrl_NP z i))).filter (fun p => decide (0 < p.2))

/-- All planned pulses are too short for a verdict. -/
def shortPlan (l : List (Nat × Nat)) : Bool := !l.isEmpty && l.all (fun p => decide (p.2 < 800))

/-- The closed interval can hold a diagnostic pulse: DIAG_LEN steps, three times that on a standby device (R464). -/
def State.closedUsable (s : State) (z : Nat) : Bool :=
  let c := s.closedSteps z
  let d := s.base.get Reg.bcnDiag_DIAG_LEN
  s.base.get Reg.scoClosed_CL_LEN != 0 && decide ((if s.sco.standby then 3 * d else d) ≤ c.2 - c.1)

/-- A diagnostic pulse of the slot's string is due in a zone's closed interval. -/
def State.diagDue (s : State) (z : Nat) : Bool :=
  let i := s.j % 8
  let due := match (s.str z i).diag with | some f => decide (f + s.base.get Reg.bcnDiag_PERIOD ≤ s.bcn.frame) | none => true
  s.mayFire z i && shortPlan (s.planned z i) && due

/-- A zone's closed interval of this subframe holds a diagnostic pulse, fired or due. -/
def State.diagHere (s : State) (z : Nat) : Bool :=
  s.closedUsable z && !s.flaggedDark && (if (s.zone z).closed then (s.str z (s.j % 8)).diag == some s.bcn.frame else s.diagDue z)

/-- A pair that the Watch wants tested may be tested now: in the closed interval of the lower-numbered zone, in a slot of neither string, and not where a diagnostic pulse falls (R383, R386). -/
def State.watchPairNow (s : State) (p : Nat × Nat) : Bool :=
  let z := min (p.1 / 32) (p.2 / 32)
  let c := s.closedAt z
  let e := (s.base.E : Int)
  s.bcn.watch == some p && s.base.get Reg.scoClosed_CL_LEN != 0 && p.1 / 4 % 8 != s.j % 8 && p.2 / 4 % 8 != s.j % 8 && decide (c.1 ≤ e ∧ e < c.2) && !s.diagHere z

/-- NEIGHBOUR_PIN_TEST: the test of a pair completes. -/
def State.pinTestRow (s : State) (a b : Nat) (short : Bool) : State :=
  let p := (min a b, max a b)
  let mine := s.bcn.tests.contains p
  if !mine && !s.watchPairNow p then s
  else
    let s1 : State := { s with bcn := { s.bcn with tests := s.bcn.tests.filter (· != p), watch := if mine then s.bcn.watch else none } }
    let s2 := if mine then s1 else s1.onBase (fun b0 =>
      let b := b0.busyIf 3 false
      if short then
        ((b.count Reg.wchFail_COUNT 1).fault 3 1 ([5, 0] ++ leBytes 2 (pgZON (p.1 / 32)) ++ leBytes 4 s.j)).raise 3 16 else b.count Reg.wchPass_COUNT 1)
    let s2 := if short then s2.shortPair p.1 p.2 else s2
    ([(a / 32, a / 4 % 8), (b / 32, b / 4 % 8)].foldl (fun (x : State) q => x.retestOver q.1 q.2) s2).zonesAdvance

/-- A string fires pulses. -/
def State.fire (s : State) (z i : Nat) (l : List (Nat × Nat)) : State :=
  let s1 := ((l.zip (List.range l.length)).foldl (fun (x : State) p => x.onBase (·.emit (.pulse z i s.j p.2 p.1.1 (p.1.1 + p.1.2)))) s)
  s1.setStr z i { s1.str z i with plan := (s1.str z i).plan ++ l.map (·.2) }

/-- LIGHT_WINDOW_OPEN: the strings of direction group s fire their planned pulses, or accumulate (R381). -/
def State.lightWindowRow (s : State) (z : Nat) : State :=
  let i := s.j % 8
  let a := s.base.get Reg.scoLw_LW_START + z * s.base.get Reg.scoLwStep_LW_STEP
  if !s.sco.running || s.flaggedDark || s.sco.standby || (s.zone z).opened || s.base.get Reg.scoLw_LW_LEN = 0
      || decide ((s.base.E : Int) < s.sco.partAt a) then s
  else
    let s1 := s.setZone z { s.zone z with opened := true }
    if !s.mayFire z i then s1
    else
      let l := s.planned z i
      let acc := shortPlan l && !s.closedUsable z && s.base.flag Reg.bcnDiag_ACC_EN
      let s2 := s1.onBase (·.putFlag (Reg.strState_ACC z i) acc)
      if !acc then s2.fire z i l
      else
        let w := s.windowSteps z
        let sum := (s.str z i).acc + (w.2 - w.1) * s.dutyNow z i / 65536
        if w.2 - w.1 < sum then s2.fire z i l
        else if sum < 800 then s2.setStr z i { s2.str z i with acc := sum }
        else (s2.setStr z i { s2.str z i with acc := 0 }).fire z i [(w.1 + (w.2 - w.1 - sum) / 2, sum)]

/-- CLOSED_INTERVAL: the diagnostic pulse of the slot's string, centred, or at the interval's start on a standby device. -/
def State.closedIntervalRow (s : State) (z : Nat) : State :=
  let i := s.j % 8
  if !s.sco.running || s.flaggedDark || (s.zone z).closed || !s.closedUsable z || decide ((s.base.E : Int) < (s.closedAt z).1) then s
  else
    let s1 := s.setZone z { s.zone z with closed := true }
    if !s.diagDue z then s1
    else
      let c := s.closedSteps z
      let d := s.base.get Reg.bcnDiag_DIAG_LEN
      let st := if s.sco.standby then c.1 else c.1 + (c.2 - c.1 - d) / 2
      (s1.setStr z i { s1.str z i with diag := some s.bcn.frame }).fire z i [(st, d)]

/-! ## Verdicts and trips (R371, R378 to R380) -/

/-- A verdict: 0 pass, 1 open, 2 short. An UNVERIFIED string takes the state of its next verdict (R380); otherwise two in a row fault the string. -/
def State.verdict (s : State) (z i v : Nat) : State :=
  let s1 := (s.setStr z i { s.str z i with verdict := true }).onBase (·.put (Reg.strState_NOVERDICT z i) 0)
  if v = 0 then ((s1.onBase (·.put (Reg.strState_FAILS z i) 0)).putStr z i strOK).refreshZone z
  else
    let n := min 2 (s.base.get (Reg.strState_FAILS z i) + 1)
    let s2 := s1.onBase (·.put (Reg.strState_FAILS z i) n)
    if n = 2 || s.strState z i = strUNVERIFIED then s2.faultString z i v 0xFF 0xFF else s2

/-- A per-string trim of the ISNS converter at a tick: new trims act from the next comparator decision (R533). -/
def State.isnsTrim (s : State) (z i m tick : Nat) : Int :=
  sget (fun _ => (0 : Int)) (if tick < s.cal.since then s.cal.before else s.cal.live) (512 * 2 + 4 * (8 * z + i) + m)

/-- A comparator threshold of a string: the code of STR_ITH plus its trims (R370); how a gain trim scales a code is left open, so with one in force the sum is a free value (DESIGN CHOICE, log 52). -/
def State.ithNow (s : State) (z i code tick : Nat) : Int :=
  let gain := s.isnsTrim z i 1 tick
  (code : Int) + s.isnsTrim z i 0 tick + (if gain = 0 then 0 else (Config.freeReading code (ofSigned 16 gain) % 1024 : Nat))

/-- The switching of GATE while DIM is high, from ISNS readings (ns after DIM went high, code): on below the low threshold, off at or above the high one, each state at least 10 ns long. Answers the changes and the last level. -/
def gateRun (lo hi : Nat → Int) : Bool → Option Nat → List (Nat × Nat) → List (Nat × Bool) × Bool
  | on, _, [] => ([], on)
  | on, last, (t, c) :: r =>
    let want := if on then !decide (hi t ≤ (c : Int)) else decide ((c : Int) < lo t)
    if want != on && last.all (fun a => decide (a + 10 ≤ t)) then
      let q := gateRun lo hi want (some t) r
      ((t, want) :: q.1, q.2)
    else gateRun lo hi on last r

/-- GATE of a string over a pulse of some steps that ends now; it is low when DIM goes low (R370). -/
def State.regulate (s : State) (z i len : Nat) (isns : List (Nat × Nat)) : State :=
  let whole := len * 5 / 2
  let tick (t : Nat) : Nat := s.base.ticks - (whole - t) * 5 / 8
  let g := gateRun (fun t => s.ithNow z i (s.base.get (Reg.strIth_LO z i)) (tick t)) (fun t => s.ithNow z i (s.base.get (Reg.strIth_HI z i)) (tick t))
    false none (isns.filter (fun r => decide (r.1 < whole)))
  let edges := g.1 ++ (if g.2 then [(whole, false)] else [])
  s.onBase (fun b => edges.foldl (fun (b : Base) e => b.emit (.gate z i e.1 e.2)) b)

/-- PULSE_END: a pulse of the string ends; the first of at least 800 steps in the subframe gives a verdict, unless an ITH_OC trip, or a trip at its end step, ended it (R378, R386). -/
def State.pulseEndRow (s : State) (z i len : Nat) (rise : Option Nat) (vsns : Nat) (isns : List (Nat × Nat)) : State :=
  let x := s.str z i
  if !x.plan.contains len || !fires (s.strState z i) then s
  else
    let s0 := s.regulate z i len isns
    if x.judged || len < 800 then s0
    else
      let s1 := (s0.setStr z i { x with judged := true, vov := false, oc := false }).onBase (fun b =>
        (b.put (Reg.strMeas_RISE z i) (rise.getD 0xFFF)).put (Reg.strMeas_VSNS z i) vsns)
      if x.oc then s1
      else s1.verdict z i (if rise.isNone || x.vov then 1 else if vsns < s.base.get (Reg.strVlim_VMIN z i) then 2 else 0)

/-- UNIT_COUNT of a page counts without a fault (R371). -/
def Base.tally (b : Base) (p : Nat) : Base :=
  let n := b.get ⟨hdr p 0x28, 31, 0⟩
  let b1 := b.count ⟨hdr p 0x28, 31, 0⟩ 1
  if n + 1 = 2 ^ 32 - 1 then b1.raise p 2 else b1

/-- TRIP in pulse k of the subframe, some steps after its DIM went high: GATE and DIM go low, the pulse is over (R371). Only a trip of the pulse that is to give the verdict bears on it. Four ITH_OC trips in a frame make the string OVERCURRENT. -/
def State.tripRow (s : State) (z i : Nat) (overVoltage : Bool) (k step : Nat) : State :=
  let x := s.str z i
  if x.plan.isEmpty || !fires (s.strState z i) then s
  else
    let n := if overVoltage then x.trips else x.trips + 1
    let judge := x.plan.findIdx (fun l => decide (800 ≤ l)) == k
    let open_ := overVoltage && decide (step < x.plan.getD k 0)
    let s1 := (s.setStr z i { x with trips := n, vov := x.vov || (judge && open_), oc := x.oc || (judge && !open_) }).onBase (fun b => (b.lowPins z i).tally (pgZON z))
    if 4 ≤ n then s1.faultString z i 3 0xFF 0xFF else s1

/-- UNVERIFIED: 64 lit frames without a verdict. -/
def State.unverifiedRow (s : State) (z i : Nat) : State :=
  if 64 ≤ s.base.get (Reg.strState_NOVERDICT z i) && (s.strState z i = strOK || s.strState z i = strPENDING) then
    ((s.putStr z i strUNVERIFIED).onBase (·.raise (pgZON z) 20)).refreshZone z
  else s

/-! ## Subframes and frames -/

/-- A subframe ends: its lit direction group counts a frame without a verdict (R380), and its pulses are over. -/
def State.beaconEnd (s : State) : State :=
  let i := s.j % 8
  (List.range 12).foldl (fun (x : State) z =>
    let y := x.str z i
    let x1 := if s.sco.running && !s.flaggedDark && s.mayFire z i && !y.verdict then
        x.onBase (fun b => b.put (Reg.strState_NOVERDICT z i) (min 64 (b.get (Reg.strState_NOVERDICT z i) + 1))) else x
    (x1.setStr z i { y with plan := [], judged := false, verdict := false, vov := false, oc := false }).setZone z { x.zone z with opened := false, closed := false }) s

/-- The next frame of a soft start. -/
def nextRamp : Option Nat → Option Nat
  | some f => if f < 8 then some (f + 1) else none
  | none => none

/-- A light-field frame begins: soft starts go on, trips are counted anew, and the next zone may ask. -/
def State.beaconFrame (s : State) : State :=
  let s1 : State := { s with bcn := { s.bcn with
    frame := s.bcn.frame + 1
    zones := s.bcn.zones.map (fun e => (e.1, { e.2 with phase := match e.2.phase with | .ramp f => .ramp (min 9 (f + 1)) | p => p }))
    strs := (s.bcn.strs.map (fun e => (e.1, ({ e.2 with trips := 0, ramp := nextRamp e.2.ramp } : Str)))).filter (fun e => e.2 != Str.rest) } }
  s1.zonesAdvance

/-- DUTY or NP of a string changes at slot 0: its accumulator is cleared (R381). -/
def State.beaconSlot0 (s : State) : State :=
  (List.range 96).foldl (fun (x : State) k =>
    let key := Reg.strCtrl (k / 8) (k % 8)
    match sget (fun _ => none) s.cfg.slot0 key with
    | some w => if getBits w 20 0 = getBits (s.base.word key) 20 0 then x else x.setStr (k / 8) (k % 8) { x.str (k / 8) (k % 8) with acc := 0 }
    | none => x) s

/-- The seal check of R372. A string counts as in force when the transaction changes its limits, or when DUTY and NP would let it fire (DESIGN CHOICE, log 13: taken over all 96 strings, the cold limits would reject every transaction until all are programmed). -/
def State.beaconSealBad (s : State) : Bool :=
  (List.range 96).any (fun k =>
    let z := k / 8
    let i := k % 8
    let mine := (s.stagedWord (Reg.strIth z i)).any (· != s.base.word (Reg.strIth z i)) || (s.stagedWord (Reg.strVlim z i)).any (· != s.base.word (Reg.strVlim z i))
    let lit := s.sealGet (Reg.strCtrl_DUTY z i) != 0 && s.sealGet (Reg.strCtrl_NP z i) != 0
    (mine || lit) && !(decide (s.sealGet (Reg.strIth_LO z i) < s.sealGet (Reg.strIth_HI z i) ∧ s.sealGet (Reg.strIth_HI z i) < s.sealGet (Reg.strIth_OC z i)
      ∧ s.sealGet (Reg.strVlim_VMIN z i) < s.sealGet (Reg.strVlim_VOV z i))))

/-- The seal check of R218. -/
def State.scoSealBad (s : State) : Bool :=
  let st := s.sealGet Reg.scoLwStep_LW_STEP
  let lw := s.sealGet Reg.scoLw_LW_START
  let ll := s.sealGet Reg.scoLw_LW_LEN
  let cl := s.sealGet Reg.scoClosed_CL_START
  let cn := s.sealGet Reg.scoClosed_CL_LEN
  let thr := [Reg.scoOdThr0_T0, Reg.scoOdThr0_T1, Reg.scoOdThr0_T2, Reg.scoOdThr0_T3, Reg.scoOdThr1_T4, Reg.scoOdThr1_T5, Reg.scoOdThr1_T6].map (fun f => toSigned 8 (s.sealGet f))
  decide (65536 < lw + 11 * st + ll) || decide (65536 < cl + 11 * st + cn)
    || (ll != 0 && cn != 0 && !decide (cl + cn ≤ lw ∨ lw + ll ≤ cl)) || !((thr.zip (thr.drop 1)).all (fun p => decide (p.1 < p.2)))

/-! ## Temperature bands (R213, R401) -/

/-- Thresholds reached by a temperature in 1/16 °C, in order. -/
def bandUp (t : Int) : List Int → Nat
  | [] => 0
  | x :: r => if x * 16 ≤ t then bandUp t r + 1 else 0

/-- The band falls while the temperature lies more than 2 °C below its threshold. -/
def bandDown (t : Int) (thr : List Int) : Nat → Nat
  | 0 => 0
  | b + 1 => if t < (thr.getD b 0 - 2) * 16 then bandDown t thr b else b + 1

/-- The band for a temperature. -/
def bandOf (t : Int) (thr : List Int) (band : Nat) : Nat := if band < bandUp t thr then bandUp t thr else bandDown t thr band

end Sys2Proof.Machine
end

