-- ==== Sys2Proof/Machine/BelfryUnit.lean ====
section
/-! DEFINITION. The Belfry (chapter 14): multiplex cycles, levels, the two banks and their check, guard and firmware cells, temperature bands, start, stop and discharge. -/

namespace Sys2Proof.Machine

abbrev pgBLF : Nat := 0x090

/-! ## Levels (R390, R391) -/

/-- The polarity of common period t is positive. -/
def positive (wave : Bool) (t : Nat) : Bool := if wave then decide (t < 8) else (t % 8 + t / 8) % 2 == 0

/-- The level, in quarters of V_OP, of common c in period t. -/
def comLevel (wave : Bool) (t c : Nat) : Nat := if t % 8 = c then (if positive wave t then 4 else 0) else if positive wave t then 1 else 3

/-- The level of a segment in period t, for a cell of the selected common that is on or off. -/
def segLevel (wave : Bool) (t : Nat) (on : Bool) : Nat := if on then (if positive wave t then 0 else 4) else 2

/-- Cell (c, m) of the running cycle is on. -/
def Belfry.cellOn (x : Belfry) (n : Nat) : Bool := (x.cells.getD (n / 32) 0).testBit (n % 32)

/-- The level of ball SEGm in period t of the running cycle: the balls are at V0 unless a cycle runs with a V_OP code. -/
def State.segNow (s : State) (t m : Nat) : Nat :=
  if s.blf.phase == .run && s.base.get Reg.blfStatus_VOP != 0 then segLevel s.blf.wave t (s.blf.cellOn (80 * (t % 8) + m)) else 0

/-- The level of ball COMc in period t. -/
def State.comNow (s : State) (t c : Nat) : Nat :=
  if s.blf.phase == .run && s.base.get Reg.blfStatus_VOP != 0 then comLevel s.blf.wave t c else 0

/-! ## Banks (R394 to R397) -/

/-- The CRC-32C of a bank. -/
def Base.bankCrc (b : Base) (k : Nat) : Nat := crc32c ((List.range 20).flatMap (fun q => leBytes 4 (b.word (Reg.blfFrame k q)).toNat))

/-- The CRC register of a bank. -/
def bankReg (k : Nat) : Nat := if k = 0 then Reg.blfCrc0 else Reg.blfCrc1

/-- The bank matches its CRC register. -/
def Base.bankOk (b : Base) (k : Nat) : Bool := b.bankCrc k == (b.word (bankReg k)).toNat

/-- The cell states of a cycle, 20 words: guard, firmware, blank, frame bit. -/
def State.cellsFor (s : State) (seen : Nat) (phase : Bool) : List Nat :=
  let shown := s.base.get Reg.blfBank_SHOWN
  let blank := s.base.flag Reg.blfBank_BLANK
  let frame : List Nat := (List.range 20).map (fun q => if blank then 0 else (s.base.word (Reg.blfFrame shown q)).toNat)
  let put (l : List Nat) (n : Nat) (v : Bool) : List Nat :=
    l.set (n / 32) ((l.getD (n / 32) 0) - (if (l.getD (n / 32) 0).testBit (n % 32) then 2 ^ (n % 32) else 0) + (if v then 2 ^ (n % 32) else 0))
  let fw := (List.range 16).foldl (fun (l : List Nat) j =>
    if s.base.flag (Reg.blfFmap_EN j) then put l (s.base.get (Reg.blfFmap_CELL j)) ((s.base.get Reg.blfFwVal_VAL).testBit j) else l) frame
  (List.range 11).foldl (fun (l : List Nat) i =>
    if s.base.flag (Reg.blfGmap_EN i) then put l (s.base.get (Reg.blfGmap_CELL i)) (seen.testBit i && (!s.base.flag (Reg.blfGmap_BLINK i) || phase)) else l) fw

/-! ## Cycles -/

/-- The state of the page (R407). -/
def State.refreshBelfry (s : State) : State :=
  let on := s.base.enabled pgBLF && s.blf.phase != .joined && s.blf.phase != .off
  s.onBase (fun b => (b.putFlag Reg.blfStatus_RUNNING (s.blf.phase == .run)).setOwn pgBLF
    (if !on then uOFF else if b.flag Reg.blfBank_BLANK || s.blf.low then uDEGRADED else uBUSY))

/-- The temperature source, when a report has arrived within the last second. -/
def State.blfTempNow (s : State) : Option Int :=
  if s.base.flag Reg.blfCtrl_TSRC then
    s.blf.tempAt.bind (fun t => if s.base.ticks < t + secTicks then some (toSigned 16 (s.base.get Reg.blfTemp_TEMP)) else none)
  else s.panelTemp

/-- The band for the next cycle, and its V_OP code. -/
def State.blfBand (s : State) : State :=
  let thr := [Reg.blfThr0_T0, Reg.blfThr0_T1, Reg.blfThr0_T2, Reg.blfThr0_T3, Reg.blfThr1_T4, Reg.blfThr1_T5, Reg.blfThr1_T6].map (fun f => toSigned 8 (s.base.get f))
  let old := s.base.get Reg.blfStatus_BAND
  let new := match s.blfTempNow with | some t => bandOf t thr old | none => old
  let code := getBits (s.base.word (if new < 4 then Reg.blfVcomp0 else Reg.blfVcomp1)) (8 * (new % 4) + 7) (8 * (new % 4))
  let s1 := s.onBase (fun b => ((b.putFlag Reg.blfStatus_TEMP_VALID s.blfTempNow.isSome).put Reg.blfStatus_BAND new).put Reg.blfStatus_VOP code)
  let s2 := if new = old then s1 else s1.onBase (·.raise pgBLF 19)
  if s.blfTempNow.isNone then s2.onBase (·.raise pgBLF 20) else s2

/-- The bank shown in the cycle that ends fails its CRC. -/
def State.bankWrong (s : State) : Bool := s.blf.phase == .run && !s.base.bankOk (s.base.get Reg.blfBank_SHOWN)

/-- FRAME_CRC is logged for every cycle with a mismatch (R396). -/
def State.bankFault (s : State) : State :=
  let k := s.base.get Reg.blfBank_SHOWN
  if s.bankWrong then
    s.onBase (·.fault pgBLF 1 (leBytes 1 k ++ [0, 0, 0] ++ leBytes 4 (s.base.bankCrc k) ++ leBytes 4 (s.base.word (bankReg k)).toNat))
  else s

/-- The frame cells are off from the next cycle start (R396). -/
def State.blankFrame (s : State) : State := s.onBase (fun b => (b.putFlag Reg.blfBank_BLANK true).raise pgBLF 18)

/-- The cycle that ends is the last before a stop: its bank is checked, and a swap request stays undecided (R395). -/
def State.blfLast (s : State) : State := if s.bankWrong then s.bankFault.blankFrame else s

/-- The decision of a swap request, and the check of the bank shown in the cycle that ends (R395, R396, R406). -/
def State.blfBanks (s : State) : State :=
  let k := s.base.get Reg.blfBank_SHOWN
  let swap := s.base.flag Reg.blfBank_SWAP
  let take := swap && s.base.bankOk (1 - k)
  let s1 := s.bankFault
  let s2 := if !swap then s1
    else if take then s1.onBase (fun b => (((b.put Reg.blfBank_SHOWN (1 - k)).putFlag Reg.blfBank_BLANK false).putFlag Reg.blfBank_SWAP false).raise pgBLF 16)
    else s1.onBase (fun b => ((b.putFlag Reg.blfBank_SWAP false).count Reg.blfSwapRej_COUNT 1).raise pgBLF 17)
  if s.bankWrong && !take then s2.blankFrame else s2

/-- The tick at which the present phase is over: 1 ms of V_OP ramp, or 16 common periods of SLOT × 409.6 ns (256 device ticks). -/
def Belfry.due (x : Belfry) : Nat := x.at_ + (if x.phase == .ramp then 625000 else 16 * x.slot * 256)

/-- The electrodes are joined from a tick on. -/
def State.blfJoin (s : State) (at_ : Nat) : State :=
  ({ s with blf := { s.blf with phase := .joined, at_ := at_, stop := false, cells := [] } } : State).refreshBelfry

/-- A cycle start, or the end of the last cycle, is due. -/
def State.cycleDue (s : State) : Bool := (s.blf.phase == .ramp || s.blf.phase == .run) && decide (s.blf.due ≤ s.base.ticks)

/-- A cycle starts, or after a stop the electrodes are joined. -/
def State.cycleStartRow (s : State) : State :=
  if !s.cycleDue then s
  else if s.blf.stop then (s.blfLast).blfJoin s.blf.due
  else
    let s1 := (s.blfBanks).blfBand
    let ms := s.base.E / 1000000
    let cells := s1.cellsFor (if s.blf.phase == .run then s.blf.seen else 0) (ms / 250 % 2 == 0)
    ({ s1 with blf := { s1.blf with
        phase := .run, at_ := s.blf.due, wave := s1.base.flag Reg.blfCtrl_WAVE, slot := s1.base.get Reg.blfSlot_SLOT, cells := cells, seen := 0 } } : State).refreshBelfry

/-- FRS_SUMMARY at a subframe start (R398). -/
def State.blfSummary (s : State) : State := { s with blf := { s.blf with seen := s.blf.seen ||| (s.base.word Reg.frsSummary).toNat % 2 ^ 11 } }

/-- The V_OP ramp begins. -/
def State.blfStart (s : State) : State :=
  ({ s with blf := { s.blf with phase := .ramp, at_ := s.base.ticks, seen := 0, stop := false, restart := false } } : State).refreshBelfry

/-- A write of ENABLE (R404). -/
def State.belfryEnabled (on : Bool) (s : State) : State :=
  if on then
    match s.blf.phase with
    | .off => s.blfStart
    | .joined => ({ s with blf := { s.blf with restart := true } } : State).refreshBelfry
    | _ => ({ s with blf := { s.blf with restart := s.blf.stop } } : State).refreshBelfry
  else
    match s.blf.phase with
    | .off => s.refreshBelfry
    | .ramp => ({ s with blf := { s.blf with restart := false } } : State).blfJoin s.base.ticks
    | .joined => ({ s with blf := { s.blf with restart := false } } : State).refreshBelfry
    | .run => ({ s with blf := { s.blf with stop := true, restart := false } } : State).refreshBelfry

/-- The re-check of both banks by a unit reset (R405). -/
def State.blfRecheck (s : State) : State :=
  if s.base.bankOk (s.base.get Reg.blfBank_SHOWN) then s else s.blankFrame

/-- A unit reset (R405). -/
def State.belfryReset (s : State) : State :=
  let s1 := s.resetBegins pgBLF
  match s.blf.phase with
  | .off => ((s1.blfRecheck).resetEnds pgBLF).refreshBelfry
  | .ramp => ({ s1 with blf := { s1.blf with restart := true } } : State).blfJoin s.base.ticks
  | .joined => { s1 with blf := { s1.blf with restart := s.base.enabled pgBLF } }
  | .run => { s1 with blf := { s1.blf with stop := true, restart := s.base.enabled pgBLF } }

/-- DISCHARGE_END: joined for 100 µs (62,500 device ticks), the electrodes are driven to V0; the Belfry restarts when wanted. -/
def State.dischargeEndRow (s : State) : State :=
  if s.blf.phase != .joined || decide (s.base.ticks < s.blf.at_ + 62500) then s
  else
    let s1 : State := { s with blf := { s.blf with phase := .off } }
    let s2 := if s.inReset pgBLF then (s1.blfRecheck).resetEnds pgBLF else s1
    if s.blf.restart && s.base.enabled pgBLF then s2.blfStart else s2.refreshBelfry

/-- BLF_BANK_SWAP: a write of BLF_BANK. -/
def State.bankSwapWrite (s : State) (a : RegWr) : State :=
  s.write Reg.blfBank a (fun act _ _ x => if act.testBit 31 then x.onBase (·.putFlag Reg.blfBank_SWAP true) else x)

/-- A write of a frame word or of a bank's CRC register: refused for the shown bank and while a swap is undecided (R394). -/
def State.bankWrite (s : State) (key k : Nat) (a : RegWr) : State :=
  s.guardedWrite key a (s.base.flag Reg.blfBank_SWAP || s.base.get Reg.blfBank_SHOWN == k) (fun _ _ _ x => x)

/-- BLF_TEMP: each write is a report. -/
def State.blfTempWrite (s : State) (a : RegWr) : State :=
  s.write Reg.blfTemp a (fun _ _ _ x => { x with blf := { x.blf with tempAt := some x.base.ticks } })

/-- VLCD_LOW: a reading of VLCD; at V_OP + 0.2 V or below it is low (R403, R10), logged at most once per second. -/
def State.vlcdRow (s : State) (mv : Nat) : State :=
  let code := s.base.get Reg.blfStatus_VOP
  let low := s.blf.phase == .run && code != 0 && decide (mv ≤ code * 20 + 200)
  let s1 := ({ s with blf := { s.blf with low := low } } : State).onBase (·.put Reg.blfStatus_VLCD mv)
  if !low then s1.refreshBelfry
  else
    let s2 := s1.onBase (·.raise pgBLF 21)
    let mute := match s.blf.lowAt with | some t => decide (s.base.ticks < t + secTicks) | none => false
    (if mute then s2
     else ({ s2 with blf := { s2.blf with lowAt := some s.base.ticks } } : State).onBase (·.fault pgBLF 2 (leBytes 2 mv ++ leBytes 1 code))).refreshBelfry

/-- Power loss or thermal shutdown: whatever the phase, the balls are joined for 100 µs from now on (R404). -/
def State.belfryDark (s : State) : State := ({ s with blf := { s.blf with restart := false } } : State).blfJoin s.base.ticks

/-- The seal check of R400. -/
def State.belfrySealBad (s : State) : Bool :=
  let g := (List.range 11).filterMap (fun i => if s.sealGet (Reg.blfGmap_EN i) = 1 then some (s.sealGet (Reg.blfGmap_CELL i)) else none)
  let f := (List.range 16).filterMap (fun i => if s.sealGet (Reg.blfFmap_EN i) = 1 then some (s.sealGet (Reg.blfFmap_CELL i)) else none)
  let cells := g ++ f
  let thr := [Reg.blfThr0_T0, Reg.blfThr0_T1, Reg.blfThr0_T2, Reg.blfThr0_T3, Reg.blfThr1_T4, Reg.blfThr1_T5, Reg.blfThr1_T6].map (fun r => toSigned 8 (s.sealGet r))
  cells.dedup.length != cells.length || cells.any (fun c => decide (640 ≤ c)) || !((thr.zip (thr.drop 1)).all (fun p => decide (p.1 < p.2)))

end Sys2Proof.Machine
end

