-- ==== Sys2Proof/Machine/SextantUnit.lean ====
section
/-! DEFINITION. The Sextant (chapter 15): increment, slew, snapshot, load, lock states, action timers, captures and GPIO balls. -/

namespace Sys2Proof.Machine

abbrev pgSXT : Nat := 0x00A
abbrev pgETH : Nat := 0x00B

/-! ## Increment, slew, snapshot (R408 to R413) -/

/-- The slew step of a tick: 500 ppm, and on the last tick the exact remainder. -/
def slewStep (slew : Int) : Int :=
  if slew.natAbs ≤ 0x00346DC6 then slew else if 0 < slew then 0x00346DC6 else -0x00346DC6

/-- An increment within 1,000 ppm of 1.6 ns. -/
def incLegal (inc : Nat) : Bool := decide (16 * 2 ^ 32 * 999 ≤ inc * 10000 ∧ inc * 10000 ≤ 16 * 2 ^ 32 * 1001)

/-- SXT_INC_HI: both halves become the increment, unless that would be a reserved encoding (R12, R410). -/
def State.incWrite (s : State) (a : RegWr) : State :=
  let hi := mergeBytes (s.base.word Reg.sxtIncHi).toNat a.val.toNat a.be % 256
  let inc := hi * 2 ^ 32 + (s.base.word Reg.sxtIncLo).toNat
  if incLegal inc then s.write Reg.sxtIncHi a (fun _ _ _ x => { x with sxt := { x.sxt with inc := inc } })
  else if s.base.visible a.host.toNat pgSXT && s.base.mayWrite a.host.toNat Reg.sxtIncHi then s.onBase (·.refuse a.host.toNat Reg.sxtIncHi vRESERVED a.val)
  else s.plainWrite Reg.sxtIncHi a

/-- A slew of some ns starts, or replaces the one under way (R411). -/
def State.startSlew (s : State) (ns : Int) : State :=
  ({ s with sxt := { s.sxt with slew := ns * (2 ^ 32 : Nat) } } : State).onBase (·.putFlag Reg.sxtStatus_SLEWING (ns != 0))

/-- SXT_ADJ: a slew starts, or replaces the one under way; a magnitude over 1 ms is a reserved encoding, and the slew under way goes on (R12). -/
def State.adjWrite (s : State) (a : RegWr) : State :=
  let rest := ofSigned 32 (Int.tdiv s.sxt.slew (2 ^ 32 : Nat))
  let s0 := s.onBase (·.setWord Reg.sxtAdj (BitVec.ofNat 32 rest))
  let want := toSigned 32 (mergeBytes rest a.val.toNat a.be)
  s0.write Reg.sxtAdj a (fun _ _ _ x => if want.natAbs ≤ 1000000 then x.startSlew want else x)

/-- The 32 bits of the fraction. -/
def Base.frac (b : Base) : Nat := b.acc % 2 ^ 32

/-- HOLDOVER is forced once lock has been reached; before that the state reads FREE (R418). -/
def State.holdover (s : State) : State :=
  if s.base.flag Reg.sxtStatus_LOCKED_ONCE then
    if s.base.get Reg.sxtStatus_STATE = 3 then s else s.onBase (fun b => (b.put Reg.sxtStatus_STATE 3).raise pgSXT 18)
  else s.onBase (·.put Reg.sxtStatus_STATE 0)

/-- A write of SXT_CTRL: HOLD, a snapshot of one tick, a request to load. -/
def State.sxtCtrlWrite (s : State) (a : RegWr) : State :=
  s.write Reg.sxtCtrl a (fun act _ new x =>
    let x1 := if act.testBit 2 then x.onBase (fun b => ((b.put Reg.sxtSnapNs_NS b.now).put Reg.sxtSnapFrac_FRAC b.frac).put Reg.sxtSnapWraps_WRAPS (b.E / 2 ^ 32)) else x
    let x2 := if act.testBit 1 then x1.onBase (·.putFlag Reg.sxtCtrl_SET true) else x1
    if new.testBit 0 then x2.holdover else x2)

/-- Offsets may be applied (R418). -/
def State.mayLock (s : State) : Bool := s.base.flag Reg.ethStatus_HELM && s.base.flag Reg.ethStatus_LINK && !s.base.flag Reg.sxtCtrl_HOLD

/-- Time is loaded by SET so that the load at the next subframe start removes an offset. -/
def State.stepTime (s : State) (offset : Int) : State :=
  let at_ := (if s.sco.armed then s.nextStart else (s.base.E : Int)) - offset
  let e := (at_ % (2 ^ 64 : Nat)).toNat
  s.onBase (fun b => ((b.put Reg.sxtSetLo_NS (e % 2 ^ 32)).put Reg.sxtSetHi_WRAPS (e / 2 ^ 32)).putFlag Reg.sxtCtrl_SET true)

/-- What firmware does about an offset outside the lock window (R419): SET before the first lock for more than a slew can remove, and later only with STEP_EN when every one of 16 measurements reaches STEP_MS; otherwise a slew of at most 1 ms, repeated with every measurement. Its increment writes inside the window are its own (DESIGN CHOICE, log 53). -/
def State.servo (s : State) (offsets : List Int) (last : Int) : State :=
  let far := s.base.get Reg.sxtServo_STEP_MS * 1000000
  let persists := decide (16 ≤ offsets.length) && (offsets.drop (offsets.length - 16)).all (fun o => decide (far ≤ o.natAbs))
  let load := if s.base.flag Reg.sxtStatus_LOCKED_ONCE then s.base.flag Reg.sxtServo_STEP_EN && persists else decide (1000000 < last.natAbs)
  if last.natAbs ≤ s.base.get Reg.sxtServo_LOCK_NS then s
  else if load then s.stepTime last
  else s.startSlew (max (-1000000) (min 1000000 (-last)))

/-- LOCKED: measured offsets, oldest first. The last 16 within the window make the Sextant LOCKED; one outside it, or fewer of them, LOCKING. -/
def State.lockedRow (s : State) (offsets : List Int) : State :=
  match offsets.getLast? with
  | none => s
  | some last =>
    if !s.mayLock then s
    else
      let win := (s.base.get Reg.sxtServo_LOCK_NS : Int)
      let inside (o : Int) : Bool := decide (-win ≤ o ∧ o ≤ win)
      let tail := offsets.drop (offsets.length - 16)
      let st := s.base.get Reg.sxtStatus_STATE
      let new := if tail.all inside then (if 16 ≤ offsets.length || st = 2 then 2 else 1) else 1
      let sat := max (-2147483648) (min 2147483647 last)
      let s1 := ({ s with sxt := { s.sxt with validAt := s.base.ticks } } : State).onBase (fun b =>
        (((b.put Reg.sxtOffset_NS (ofSigned 32 sat)).put Reg.sxtPath_NS (Config.freeNat b.fresh)).put Reg.sxtStatus_STATE new).draw)
      if new = 2 && st != 2 then s1.onBase (fun b => (b.putFlag Reg.sxtStatus_LOCKED_ONCE true).raise pgSXT 17) else s1.servo offsets last

/-- HOLDOVER: a cause of R418 holds. -/
def State.holdoverRow (s : State) (why : HoldCause) : State :=
  let on := match why with
    | .noOffset => decide (s.sxt.validAt + 4 * secTicks ≤ s.base.ticks)
    | .helmReset => !s.base.flag Reg.ethStatus_HELM
    | .linkDown => !s.base.flag Reg.ethStatus_LINK
    | .hold => s.base.flag Reg.sxtCtrl_HOLD
  if on then s.holdover else s

/-! ## GPIO balls (R430, R431, R436) -/

/-- The level at a ball, as GPIO_IN has it. -/
def State.ballLevel (s : State) (n : Nat) : Bool := (s.base.get Reg.gpioIn_LEVEL).testBit n

/-- A capture takes an edge. -/
def State.capture (s : State) (m : Nat) (rising : Bool) : State :=
  if s.base.flag (Reg.capCtrl_EN m) && (s.base.get (Reg.capCtrl_EDGE m)).testBit (if rising then 0 else 1) then
    let pend := (s.base.word (hdr pgSXT 0x18)).toNat.testBit (21 + m)
    s.onBase (fun b => ((if pend then b.putFlag (Reg.capCtrl_OVERRUN m) true else b).put (Reg.capTime_NS m) b.now).raise pgSXT (21 + m))
  else s

/-- The level at a ball is set, without an edge. -/
def State.setBall (s : State) (n : Nat) (v : Bool) : State := s.onBase (·.putFlag ⟨Reg.gpioIn, n, n⟩ v)

/-- The device drives a ball: an edge is seen by the captures that select it. -/
def State.driveBall (s : State) (n : Nat) (v : Bool) : State :=
  let s1 := (s.setBall n v).onBase (·.emit (.pin ("GPIO_" ++ toString n) v))
  if s.ballLevel n == v then s1
  else (List.range 2).foldl (fun (x : State) m => if x.base.get (Reg.capCtrl_GPIO m) = n then x.capture m v else x) s1

/-- CAPTURE: an edge at the ball of capture m. -/
def State.captureRow (s : State) (m : Nat) (rising : Bool) : State := (s.setBall (s.base.get (Reg.capCtrl_GPIO m)) rising).capture m rising

/-- The level that a TIMER or ALIVE_OUT ball drives. -/
def State.drivenLevel (s : State) (n : Nat) : Bool := (sget (fun _ => none) s.sxt.driven n).getD (s.base.flag (Reg.gpioCfg_LEVEL n))

/-- Gives a TIMER or ALIVE_OUT ball a level. -/
def State.giveLevel (s : State) (n : Nat) (v : Bool) : State :=
  ({ s with sxt := { s.sxt with driven := sput (fun _ => none) s.sxt.driven n (some v) } } : State).driveBall n v

/-- GPIO_CFG: function and level of a ball. -/
def State.gpioWrite (s : State) (n : Nat) (a : RegWr) : State :=
  s.write (Reg.gpioCfg n) a (fun _ old new x =>
    let changed := old % 4 != new % 4
    let x1 : State := if changed then
        { x with sxt := { x.sxt with driven := sput (fun _ => none) x.sxt.driven n none
                                     pulses := x.sxt.pulses.filter (fun e => (e.2.map (fun p => p.gpio != n)).getD false) } } else x
    match new % 4 with
    | 0 => x1
    | 1 => x1.driveBall n (new.testBit 8)
    | _ => x1.driveBall n (x1.drivenLevel n))

/-! ## Action timers (R429 to R432) -/

/-- The level a ball returns to after a pulse: that before the pulse in progress, if there is one. -/
def State.beforePulse (s : State) (n : Nat) : Bool :=
  match s.sxt.pulses.find? (fun e => (e.2.map (fun p => p.gpio == n)).getD false) with
  | some (_, some p) => p.back
  | _ => s.drivenLevel n

/-- A firing of timer n drives its ball: one with the function TIMER, by an ACTION that is not a pulse of no WIDTH. -/
def State.timerDrives (s : State) (n : Nat) : Bool :=
  let act := s.base.get (Reg.actCtrl_ACTION n)
  act != 0 && s.base.get (Reg.gpioCfg_FUNC (s.base.get (Reg.actCtrl_GPIO n))) == 2 && !(act == 3 && s.base.get (Reg.actCtrl_WIDTH n) == 0)

/-- A timer's ACTION on its GPIO. -/
def State.actPerform (s : State) (n : Nat) : State :=
  let g := s.base.get (Reg.actCtrl_GPIO n)
  let act := s.base.get (Reg.actCtrl_ACTION n)
  let width := s.base.get (Reg.actCtrl_WIDTH n)
  if !s.timerDrives n then s
  else
    let back := s.beforePulse g
    let s1 : State := { s with sxt := { s.sxt with pulses := s.sxt.pulses.filter (fun e => (e.2.map (fun p => p.gpio != g)).getD false) } }
    if act = 3 then
      ({ s1 with sxt := { s1.sxt with pulses := sput (fun _ => none) s1.sxt.pulses n (some ⟨g, s.base.ticks + ceilDiv (width * 125) 2, back⟩) } } : State).giveLevel g true
    else s1.giveLevel g (act == 1)

/-- Nanoseconds from now to the next target, `late` ns after the last one: the least multiple of PERIOD that is future modulo 2³². -/
def nextTarget (late period : Nat) : Nat :=
  let k := if period < 2 ^ 31 then late / period + 1 else (2 ^ 31 - late) / (2 ^ 32 - period) + 1
  let d := (k * period + 2 ^ 32 - late % 2 ^ 32) % 2 ^ 32
  if d = 0 then 2 ^ 32 else d

def State.timer (s : State) (n : Nat) : Option ActTimer := sget (fun _ => none) s.sxt.timers n
def State.setTimer (s : State) (n : Nat) (t : Option ActTimer) : State := { s with sxt := { s.sxt with timers := sput (fun _ => none) s.sxt.timers n t } }

/-- A timer fires `late` ns after its target. -/
def State.actFire (s : State) (n first late : Nat) : State :=
  let p := s.base.get (Reg.actPeriod_NS n)
  let s1 := (s.actPerform n).onBase (·.raise pgSXT 20)
  let s2 := if late = 0 then s1 else s1.onBase (fun b => ((b.putFlag (Reg.actCtrl_LATE n) true).put (Reg.actLate_NS n) late).raise pgSXT 23)
  if p = 0 then (s2.setTimer n none).onBase (·.putFlag (Reg.actCtrl_ARM n) false)
  else s2.setTimer n (some ⟨s.base.E + nextTarget late p, first⟩)

/-- Examines a target: future waits; past fires at once, or under STRICT is refused. -/
def State.actJudge (s : State) (n target first : Nat) : State :=
  if future32 target s.base.now then s.setTimer n (some ⟨extend32 target s.base.E, first⟩)
  else if s.base.flag (Reg.actCtrl_STRICT n) then (s.setTimer n none).onBase (·.putFlag (Reg.actCtrl_ARM n) false)
  else s.actFire n first (sub32 s.base.now target)

/-- ACT_ARM: a write of ACT_CTRL. -/
def State.actArmWrite (s : State) (n : Nat) (a : RegWr) : State :=
  s.write (Reg.actCtrl n) a (fun _ old new x =>
    if new.testBit 31 && !old.testBit 31 then x.actJudge n (x.base.get (Reg.actTarget_NS n)) (x.base.get (Reg.actTarget_NS n))
    else if !new.testBit 31 then x.setTimer n none else x)

/-- The lower-numbered timers on the ball of timer n that fire at the same instant have fired (R431: the lower acts first). -/
def State.lowerFired (s : State) (n : Nat) (t : ActTimer) : State :=
  (List.range n).foldl (fun (x : State) m => match x.timer m with
    | some u => if u.due = t.due && s.base.get (Reg.actCtrl_GPIO m) == s.base.get (Reg.actCtrl_GPIO n) then x.actFire m u.first 0 else x
    | none => x) s

/-- ACT_DONE: the target is reached. -/
def State.actDoneRow (s : State) (n : Nat) : State :=
  match s.timer n with
  | some t => if s.base.E < t.due then s else (s.lowerFired n t).actFire n t.first 0
  | none => s

/-- ACT_PULSE_END: the WIDTH of a pulse is over. -/
def State.actPulseEndRow (s : State) (n : Nat) : State :=
  match sget (fun _ => none) s.sxt.pulses n with
  | some p => if s.base.ticks < p.till then s
    else ({ s with sxt := { s.sxt with pulses := sput (fun _ => none) s.sxt.pulses n none } } : State).giveLevel p.gpio p.back
  | none => s

/-! ## The load (R412, R432) -/

/-- A scheduled transaction is judged again. -/
def Txn.rejudge (x : Txn) : Txn := if x.due.isSome then { x with due := none } else x

/-- SET is loaded at a subframe start; every waiting target is examined again, and the device returns to the wall timeline through a gap that begins here. -/
def State.loadSet (s : State) : State :=
  let e := s.base.addr64 Reg.sxtSetLo Reg.sxtSetHi
  let s1 := s.onBase (fun b => ({ b with acc := e * 2 ^ 32 } : Base).putFlag Reg.sxtCtrl_SET false |> fun c => c.raise pgSXT 19)
  let s2 := ({ s1 with
      scenes := { s1.scenes with
        sealed := s1.scenes.sealed.map (fun t => { t with anyCut := true })
        txns := s1.scenes.txns.map (fun t => (t.1, t.2.map Txn.rejudge)) }
      sco := { s1.sco with mode := .gap, origin := (e : Int), idx := -1, startAt := (e : Int) - 1, decided := none, leave := false } } : State).cfgReexamine
  let s3 := (List.range 4).foldl State.judge s2
  (List.range 4).foldl (fun (x : State) n => match x.timer n with | some t => x.actJudge n (t.due % 2 ^ 32) t.first | none => x) s3

/-- SET_APPLIED: a load is pending and a subframe start is due. -/
def State.setAppliedRow (s : State) : State :=
  if s.base.flag Reg.sxtCtrl_SET && s.sco.armed && decide (s.nextStart ≤ (s.base.E : Int)) then s.loadSet else s

/-- The seal check of R416. -/
def State.epochSealBad (s : State) : Bool :=
  ((s.stagedWord Reg.sxtEpochLo).isSome || (s.stagedWord Reg.sxtEpochHi).isSome) &&
    decide (s.base.E < (s.sealWord Reg.sxtEpochLo).toNat + 2 ^ 32 * (s.sealWord Reg.sxtEpochHi).toNat)

end Sys2Proof.Machine
end

