-- ==== Sys2Proof/Machine/TimePort.lean ====
section
/-! DEFINITION. The time port (chapter 15): the link, frames accepted and dropped, timestamps, one-step insertion, wall-status messages. Frames are byte lists without their FCS on the way in and with it on the way out. -/

namespace Sys2Proof.Machine

/-! ## The link (R421, R435) -/

/-- The page's state. -/
def State.refreshEth (s : State) : State :=
  s.onBase (fun b => b.setOwn pgETH (if !b.enabled pgETH then uOFF else if b.flag Reg.ethStatus_LINK then uBUSY else uFAULT))

/-- A port state as the firmware's protocol has it: a free value of 1 to 9 (Table 15.6). -/
def State.portStateNow (s : State) : State := s.onBase (fun b => (b.put Reg.ethStatus_PORT_STATE (1 + Config.freeNat b.fresh % 9)).draw)

/-- The link goes down. -/
def State.ethDown (s : State) : State :=
  if s.base.flag Reg.ethStatus_LINK then (s.onBase (fun b => (b.putFlag Reg.ethStatus_LINK false).raise pgETH 17)).holdover else s

/-- A write of ENABLE. -/
def State.ethEnabled (on : Bool) (s : State) : State :=
  (if on then s.request ridTime 0 1 else (s.release ridTime 0).ethDown).refreshEth

/-- A unit reset of the time port: the link goes down and trains again. -/
def State.ethReset (s : State) : State := if s.base.enabled pgETH then ((s.ethDown).request ridTime 0 1).refreshEth else s

/-- TIME_LINK_UP: an enabled port that does not wait for leave has trained. -/
def State.timeLinkUpRow (s : State) : State :=
  if !s.base.enabled pgETH || s.base.flag Reg.ethStatus_LINK || s.asks ridTime 0 then s
  else (((s.release ridTime 0).onBase (fun b => (b.putFlag Reg.ethStatus_LINK true).raise pgETH 16)).portStateNow).refreshEth

/-- TIME_LINK_DOWN. -/
def State.timeLinkDownRow (s : State) : State := if s.base.flag Reg.ethStatus_LINK then (s.ethDown).refreshEth else s

/-! ## Frames (R422, R423, R426) -/

/-- Sum of 16-bit big-endian words, for the Internet checksum. -/
def words16 : List Byte → Nat
  | [] => 0
  | [a] => a.toNat * 256
  | a :: b :: r => a.toNat * 256 + b.toNat + words16 r

/-- One's complement 16-bit folding. -/
def fold16 (n : Nat) : Nat :=
  let a := n % 65536 + n / 65536
  let b := a % 65536 + a / 65536
  b % 65536 + b / 65536

/-- A frame taken apart: offset of the EtherType after an optional tag, whether it is tagged. -/
def frameType (f : List Byte) : Nat × Bool := if beAt f 12 2 = 0x8100 then (16, true) else (12, false)

/-- The place of the PTP message in a frame, and whether it runs over UDP; none when the frame is not PTP as R422 has it. -/
def Base.ptpPlace (b : Base) (f : List Byte) : Option (Nat × Bool) :=
  let t := frameType f
  let et := beAt f t.1 2
  let p := t.1 + 2
  let tr := b.get Reg.ethCtrl_TRANSPORT
  let da := beAt f 0 6
  if t.2 && !b.flag Reg.ethCtrl_VLAN_EN then none
  else if et = 0x88F7 && tr != 1 then
    let ty := leAt f p 1 % 16
    let peer := ty == 2 || ty == 3 || ty == 10
    if decide (p + 5 ≤ f.length) && da == (if peer then 0x0180C200000E else 0x011B19000000) then some (p, false) else none
  else if et = 0x0800 && tr != 0 then
    let q := p + 28
    let ty := leAt f q 1 % 16
    let peer := ty == 2 || ty == 3 || ty == 10
    if decide (q + 5 ≤ f.length) && leAt f p 1 == 0x45 && beAt f (p + 6) 2 % 16384 == 0 && leAt f (p + 9) 1 == 17
        && beAt f (p + 16) 4 == (if peer then 0xE000006B else 0xE0000181) && beAt f (p + 22) 2 == (if ty < 4 then 319 else 320) then some (q, true) else none
  else none

/-- Least length of a message by type (IEEE 1588-2019); none: reserved. -/
def ptpMin (ty : Nat) : Option Nat :=
  match ty with
  | 0 => some 44
  | 1 => some 44
  | 2 => some 54
  | 3 => some 54
  | 8 => some 44
  | 9 => some 54
  | 10 => some 54
  | 11 => some 64
  | 12 => some 44
  | 13 => some 48
  | _ => none

/-- The UDP checksum over header, data and pseudo-header is right; 0 means none. -/
def udpOk (f : List Byte) (ip : Nat) : Bool :=
  let len := beAt f (ip + 24) 2
  beAt f (ip + 26) 2 == 0 ||
    fold16 (words16 ((f.drop (ip + 12)).take 8) + 17 + len + words16 ((f.drop (ip + 20)).take len)) == 0xFFFF

/-- The frame is malformed (R426). -/
def ptpMalformed (f : List Byte) (at_ : Nat) (udp : Bool) : Bool :=
  let ty := leAt f at_ 1 % 16
  let len := beAt f (at_ + 2) 2
  decide (f.length - at_ < len) || leAt f (at_ + 1) 1 % 16 != 2 || (match ptpMin ty with | none => true | some m => decide (len < m)) ||
    (udp && (fold16 (words16 ((f.drop (at_ - 28)).take 20)) != 0xFFFF || !udpOk f (at_ - 28)))

/-- A malformed frame is dropped and counted; PTP_BAD at most once per light-field frame. -/
def State.ptpBadFrame (s : State) : State :=
  let s1 := s.onBase (·.count Reg.ethPtpBad_COUNT 1)
  if s.sxt.ptpBad then s1 else ({ s1 with sxt := { s1.sxt with ptpBad := true } } : State).onBase (·.raise pgETH 18)

/-! ## Timestamps (R424, Table 15.1) -/

/-- Transmit and receive corrections in units of 2⁻¹⁶ ns. -/
def Base.txLatency (b : Base) : Nat := if b.flag Reg.ethCtrl_SPEED then 8325 * 65536 / 100 else if b.flag Reg.ethCtrl_FEC then 4150 * 65536 / 100 else 3525 * 65536 / 100
def Base.rxLatency (b : Base) : Nat := if b.flag Reg.ethCtrl_SPEED then 10875 * 65536 / 100 else if b.flag Reg.ethCtrl_FEC then 18875 * 65536 / 100 else 5450 * 65536 / 100

/-- A timestamp as 48 bits and back. -/
def tsRaw (t : Timestamp) : Nat := t.ns.toNat * 65536 + t.fr.toNat
def tsOf (n : Nat) : Timestamp := ⟨BitVec.ofNat 32 (n / 65536), BitVec.ofNat 16 n⟩
def tsBytes (t : Timestamp) : List Byte := leBytes 4 t.ns.toNat ++ leBytes 2 t.fr.toNat

/-- An event message: Sync, Delay_Req, Pdelay_Req, Pdelay_Resp. -/
def eventMsg (f : List Byte) (at_ : Nat) : Bool := decide (leAt f at_ 1 % 16 < 4)

/-! ## Wall-status messages (R427, R428) -/

/-- The payload of Table 15.2. -/
def State.wallPayload (s : State) : List Byte :=
  let b := s.base
  [0x4F, 0x53, 0x57, 0x53, 0x01] ++ leBytes 1 s.sco.rate ++ leBytes 1 (b.get Reg.sxtStatus_STATE) ++ leBytes 1 (b.worst 6 0)
    ++ leBytes 4 (b.word Reg.kepSerialLo).toNat ++ leBytes 4 (b.word Reg.kepSerialHi).toNat ++ leBytes 8 (b.addr64 Reg.sxtEpochLo Reg.sxtEpochHi)
    ++ leBytes 4 s.j ++ leBytes 4 b.now ++ leBytes 2 ((b.word Reg.frsSummary).toNat % 2 ^ 11)
    ++ leBytes 2 ((if b.flag (Reg.prtStatus_IN_SERVICE 0) then 1 else 0) + (if b.flag (Reg.prtStatus_IN_SERVICE 1) then 2 else 0))
    ++ leBytes 4 s.sxt.seq ++ leBytes 6 0

/-- A number as big-endian bytes. -/
def beBytes (n x : Nat) : List Byte := (leBytes n x).reverse

/-- Sends a frame with its FCS. -/
def State.sendFrame (s : State) (f : List Byte) : State := s.onBase (·.emit (.frame (f ++ leBytes 4 (crc32 f))))

/-- At slot 0 of every PERIOD-th light-field frame a wall-status message is sent. -/
def State.wallStatus (s : State) : State :=
  let s1 : State := { s with sxt := { s.sxt with frames := s.sxt.frames + 1, ptpBad := false } }
  let b := s.base
  if b.flag Reg.ethCtrl_WS_EN && b.flag Reg.ethStatus_LINK && (s.sxt.frames + 1) % max 1 (b.get Reg.ethWs_PERIOD) == 0 then
    let tag := if b.flag Reg.ethCtrl_VLAN_EN then beBytes 2 0x8100 ++ beBytes 2 (b.get Reg.ethCtrl_PCP * 8192 + b.get Reg.ethCtrl_VID) else []
    let f := beBytes 2 (b.get Reg.ethWsDaHi_DA) ++ beBytes 4 (b.get Reg.ethWsDaLo_DA) ++ beBytes 2 (b.get Reg.ethMacHi_MAC) ++ beBytes 4 (b.get Reg.ethMacLo_MAC)
      ++ tag ++ beBytes 2 0x88B5 ++ s.wallPayload
    ({ s1 with sxt := { s1.sxt with seq := (s1.sxt.seq + 1) % 2 ^ 32 } } : State).sendFrame f
  else s1

/-- A wall-status message in a frame: the place of its payload. -/
def Base.wallPlace (b : Base) (f : List Byte) : Option Nat :=
  let t := frameType f
  if t.2 && !b.flag Reg.ethCtrl_VLAN_EN then none else if beAt f t.1 2 = 0x88B5 then some (t.1 + 2) else none

/-- A received wall-status message. -/
def State.wallRx (s : State) (m : List Byte) : State :=
  if m.length < 46 || beAt m 0 4 != 0x4F535753 || leAt m 4 1 != 1 || leAt m 40 6 != 0 then s.ptpBadFrame
  else
    let s1 := s.onBase (·.count Reg.ethWsRx_COUNT 1)
    if leAt m 6 1 = 2 && s.base.get Reg.sxtStatus_STATE = 2 && leAt m 16 8 != s.base.addr64 Reg.sxtEpochLo Reg.sxtEpochHi then
      s1.onBase (fun b => (b.count Reg.ethEpochMismatch_COUNT 1).raise pgETH 20)
    else s1

/-! ## Reception -/

/-- A frame arrives: bad FCS, Helm in reset, PTP, wall-status, or not for the device. A PTP event message needs its capture. -/
def State.ethRx (s : State) (f : List Byte) (fcsOk : Bool) (mac : Option Timestamp) : State :=
  if !s.base.flag Reg.ethStatus_LINK then s
  else if !fcsOk then s.onBase (·.count Reg.ethFcs_COUNT 1)
  else if !s.base.flag Reg.ethStatus_HELM then s.onBase (·.count Reg.ethHelmDrop_COUNT 1)
  else match s.base.ptpPlace f with
    | some (p, udp) =>
      if leAt f (p + 4) 1 != s.base.get Reg.ethPtp_DOMAIN then s.onBase (·.count Reg.ethOther_COUNT 1)
      else if ptpMalformed f p udp then s.ptpBadFrame
      else
        let ok := s.onBase (·.count Reg.ethRxPtp_COUNT 1)
        match eventMsg f p, mac with
        | true, some t => (ok.onBase (·.emit (.toHelm (f ++ tsBytes (tsOf (tsRaw t + 2 ^ 48 - s.base.rxLatency)))))).portStateNow
        | true, none => s
        | false, _ => (ok.onBase (·.emit (.toHelm f))).portStateNow
    | none => match s.base.wallPlace f with
      | some p => s.wallRx (f.drop p)
      | none => s.onBase (·.count Reg.ethOther_COUNT 1)

/-! ## Transmission (R425, R433) -/

/-- insert(): the correctionField (64 bits) with the distance from the base to the transmit time, or failure. -/
def insertCorrection (base tx : Timestamp) (cf : Nat) : Option Nat :=
  let d := sub32 tx.ns.toNat base.ns.toNat
  let add : Int := (d * 65536 : Nat) + (tx.fr.toNat : Int) - (base.fr.toNat : Int)
  if 0x80000000 ≤ d || add < 0 then none
  else some (ofSigned 64 (min 0x7FFFFFFFFFFFFFFF (toSigned 64 cf + add)))

/-- The UDP checksum after the field of `n` bytes at `at_` has changed from old to new bytes (RFC 1624); 0 stays 0. -/
def udpUpdate (sum : Nat) (old new : List Byte) : Nat :=
  if sum = 0 then 0
  else 65535 - fold16 ((65535 - sum) + words16 (old.map (fun x => ~~~x)) + words16 new)

/-- Replaces bytes of a frame. -/
def replaceAt (f : List Byte) (at_ : Nat) (bs : List Byte) : List Byte := f.take at_ ++ bs ++ f.drop (at_ + bs.length)

/-- PTP_TX: a PTP event frame that the firmware hands over, with its insertion base and the capture of the chosen transmit tick. -/
def State.ptpTxRow (s : State) (f : List Byte) (base mac : Timestamp) : State :=
  match if s.base.flag Reg.ethStatus_HELM then s.base.ptpPlace f else none with
  | none => s
  | some (p, udp) =>
    let ty := leAt f p 1 % 16
    let oneStep := (ty == 0 || ty == 3) && !(leAt f (p + 6) 1).testBit 1
    let tx := tsOf (tsRaw mac + s.base.txLatency)
    if !s.base.flag Reg.ethStatus_LINK then (if oneStep then s.onBase (·.count Reg.ethInsertErr_COUNT 1) else s)
    else if !oneStep then
      let s1 := (s.onBase (·.count Reg.ethTxPtp_COUNT 1)).sendFrame f
      if ty < 4 then s1.onBase (·.emit (.toHelm (tsBytes tx))) else s1
    else match insertCorrection base tx (beAt f (p + 8) 8) with
      | none => s.onBase (fun b => ((b.count Reg.ethInsertErr_COUNT 1).raise pgETH 19).fault pgETH 1
          (leBytes 4 base.ns.toNat ++ leBytes 4 tx.ns.toNat ++ leBytes 1 ty))
      | some cf =>
        let old := (f.drop (p + 8)).take 8
        let f1 := replaceAt f (p + 8) (beBytes 8 cf)
        let f2 := if udp then replaceAt f1 (p - 2) (beBytes 2 (udpUpdate (beAt f (p - 2) 2) old (beBytes 8 cf))) else f1
        (s.onBase (·.count Reg.ethTxPtp_COUNT 1)).sendFrame f2

end Sys2Proof.Machine
end

