-- ==== Sys2Proof/Machine/PairUnit.lean ====
section
/-! DEFINITION. The redundant pair (chapter 17): the pair link with its replay buffer, heartbeats and frame lock, comparison of render signatures, roles, takeover and swap. -/

namespace Sys2Proof.Machine

abbrev pgPAR : Nat := 0x00C

/-- Pair states of Table 17.5. -/
abbrev parTRAINING : Nat := 1
abbrev parJOINING : Nat := 2
abbrev parSYNC : Nat := 3
abbrev parDIVERGED : Nat := 4
abbrev parPARTITION : Nat := 5
abbrev parLOST : Nat := 6

def State.parState (s : State) : Nat := s.base.get Reg.parStatus_STATE
def State.role (s : State) : Nat := s.base.get Reg.parStatus_ROLE
def State.putPar (s : State) (p : Pair) : State := { s with par := p }

/-! ## Blocks (R467, R468) -/

/-- A block of 28 bytes with its CRC. -/
def withCrc (body : List Byte) : List Byte :=
  let b := (body ++ List.replicate (28 - body.length) 0).take 28
  b ++ leBytes 4 (crc32c b)

/-- A block takes its place in the next row of the pair link: a message (data header) or a link-control block. -/
def Base.placePair (b : Base) (msg : Bool) (blk : List Byte) : Base :=
  { b.emit (.pairBlock blk) with wire := { b.wire with pair := b.wire.pair ++ [(msg, blk)] } }

/-- Sends a link-control block. -/
def State.sendCtl (s : State) (body : List Byte) : State := s.onBase (·.placePair false (withCrc body))

/-- Sends a message of a type: it stays in the replay buffer until acknowledged; a full buffer takes no further message. -/
def State.sendMsg (s : State) (type : Nat) (body : List Byte) : State :=
  if !s.par.up || decide (256 ≤ s.par.replay.length) then s
  else
    let blk := withCrc (leBytes 1 type ++ [0] ++ leBytes 2 s.par.txSeq ++ body)
    (s.putPar { s.par with txSeq := (s.par.txSeq + 1) % 65536, replay := s.par.replay ++ [⟨s.par.txSeq, blk, 0⟩] }).onBase (·.placePair true blk)

def State.sendAck (s : State) : State := s.sendCtl ([0x01, 0] ++ leBytes 2 ((s.par.rxSeq + 65535) % 65536))
def State.sendNak (s : State) : State := s.sendCtl ([0x02, 0] ++ leBytes 2 s.par.rxSeq)
def State.sendMap (s : State) : State := s.sendCtl ([0x03, 0, 0, 0] ++ leBytes 1 (s.base.get Reg.parStatus_RX_LANES))

/-- The bytes that a block of a TYPE may use; none: reserved. -/
def pairUsed (type : Nat) : Option (List Nat) :=
  match type with
  | 0x00 => some [0]
  | 0x01 => some [0, 2, 3]
  | 0x02 => some [0, 2, 3]
  | 0x03 => some [0, 4]
  | 0x10 => some [0, 2, 3, 4, 5, 6, 7, 8, 9, 10, 11, 12, 13, 16, 17, 18, 19]
  | 0x11 => some [0, 2, 3, 4, 5, 6, 7, 8, 9, 10, 11, 12]
  | 0x12 => some [0, 2, 3, 4, 8, 9, 10, 11]
  | 0x13 => some [0, 2, 3, 4, 5, 6, 7, 8, 9, 10, 11, 12, 13]
  | 0x14 => some [0, 2, 3, 4]
  | _ => none

/-- A violation of R470, or a bad CRC (R468), in a block with a data header (a message) or a control header (link control). -/
def State.pairBad (s : State) (msg : Bool) (m : List Byte) : Bool :=
  m.length != 32 || leAt m 28 4 != crc32c (m.take 28) || msg != decide (0x10 ≤ leAt m 0 1) ||
  match pairUsed (leAt m 0 1) with
  | none => true
  | some used => !zeroOutside m used ||
    (match leAt m 0 1 with
     | 0x01 => !s.par.replay.any (fun r => r.seq == leAt m 2 2)
     | 0x02 => !s.par.replay.any (fun r => r.seq == leAt m 2 2)
     | 0x03 => leAt m 4 1 % 16 == 0
     | 0x11 => !s.recentJ (leAt m 4 4)
     | _ => false)

/-- A violation: NAK of the next SEQ needed, counted. -/
def State.pairViol (s : State) : State :=
  let recent := s.par.viols.filter (fun t => decide (s.base.ticks < t + 625000))
  (s.sendNak).putPar { s.par with viols := s.base.ticks :: recent } |>.onBase (·.count Reg.parViol_COUNT 1)

/-- A block received on a pair lane while the link is up: corrected symbols and uncorrectable codewords are counted on the lane's page (R367), a lost block asks for what is missing (R468), a violation is counted, and a sound block is handed on with its kind. -/
def State.pairIn (s : State) (k : Nat) (m : BackBlock) (go : Bool → List Byte → State → State) : State :=
  if !s.par.up then s
  else
    let s1 := if (decodeBlock m).2 = 0 then s else s.onBase (·.count (Reg.lnkCe_COUNT (40 + k)) (decodeBlock m).2)
    let take (msg : Bool) (bs : List Byte) : State := if s.pairBad msg bs then s1.pairViol else go msg bs s1
    match (decodeBlock m).1 with
    | .dataBlock bs => take true bs
    | .control bs => take false bs
    | .uncorrectable => (s1.onBase (·.count (Reg.lnkUe_COUNT (40 + k)) 1)).sendNak
    | _ => s1.sendNak

/-- PAR_VIOL: a block that is no violation does nothing here. -/
def State.parViolRow (s : State) (k : Nat) (m : BackBlock) : State := s.pairIn k m (fun _ _ x => x)

/-- A link-control block of a TYPE. -/
def State.pairCtl (s : State) (k : Nat) (m : BackBlock) (type : Nat) (go : List Byte → State → State) : State :=
  s.pairIn k m (fun msg bs x => if !msg && leAt bs 0 1 = type then go bs x else x)

/-- A message of a TYPE (and OP): in order it is acknowledged and handed on; after a gap NAK; one received before is only acknowledged. -/
def State.pairMsg (s : State) (k : Nat) (m : BackBlock) (type : Nat) (op : Option Nat) (go : List Byte → State → State) : State :=
  s.pairIn k m (fun msg bs x =>
    if !msg || leAt bs 0 1 != type || op.any (fun o => leAt bs 4 1 != o) then x
    else
      let seq := leAt bs 2 2
      if seq = x.par.rxSeq then go bs ((x.putPar { x.par with rxSeq := (seq + 1) % 65536 }).sendAck)
      else if (x.par.rxSeq + 65536 - seq) % 65536 < 32768 then x.sendAck
      else x.sendNak)

/-- ACK: messages up to SEQ are free; the HELLO measures the latency (R472). -/
def State.ackRow (s : State) (k : Nat) (blk : BackBlock) : State :=
  s.pairCtl k blk 0x01 (fun m x =>
    let seq := leAt m 2 2
    let i := x.par.replay.findIdx (fun r => r.seq == seq)
    let covers := match x.par.hello with | some (hs, _) => (x.par.replay.take (i + 1)).any (fun r => r.seq == hs) | none => false
    let y := x.putPar { x.par with replay := x.par.replay.drop (i + 1), hello := if covers then none else x.par.hello }
    match covers, x.par.hello with
    | true, some (_, e) => y.onBase (fun b => b.put Reg.parLat_NS ((b.E - e) / 2))
    | _, _ => y)

/-- NAK: every message from SEQ on is sent again. -/
def State.nakRow (s : State) (k : Nat) (blk : BackBlock) : State :=
  s.pairCtl k blk 0x02 (fun m x =>
    let i := x.par.replay.findIdx (fun r => r.seq == leAt m 2 2)
    let again := x.par.replay.drop i
    let y := x.putPar { x.par with replay := x.par.replay.take i ++ again.map (fun r => { r with again := r.again + 1 }) }
    (again.foldl (fun (z : State) r => z.onBase (·.placePair true r.block)) y).onBase (·.count Reg.parRetry_COUNT again.length))

/-! ## Lanes and link (R466, R469, R471, R472) -/

/-- The bits of the lanes in a list of four. -/
def laneBits (f : Nat → Bool) : Nat := (List.range 4).foldl (fun a k => if f k then a + 2 ^ k else a) 0

/-- Roles of the pair lanes: 0 and their place in the row while they carry rows, else 3. -/
def State.pairRoles (s : State) : State :=
  let tx := s.base.get Reg.parStatus_TX_LANES
  let rx := s.base.get Reg.parStatus_RX_LANES
  let place (m k : Nat) : Nat := ((List.range k).filter (fun i => m.testBit i)).length
  (List.range 4).foldl (fun (x : State) k =>
    ((x.onBase (fun b =>
      (((b.put (Reg.lnkStatus_ROLE (36 + k)) (if tx.testBit k then 0 else 3)).put (Reg.lnkStatus_LOGICAL (36 + k)) (if tx.testBit k then place tx k else 0xF)).put
        (Reg.lnkStatus_ROLE (40 + k)) (if rx.testBit k then 0 else 3)).put (Reg.lnkStatus_LOGICAL (40 + k)) (if rx.testBit k then place rx k else 0xF))).refreshLane (36 + k)).refreshLane (40 + k)) s

/-- HELLO is sent. -/
def State.sendHello (s : State) : State :=
  let b := s.base
  (s.sendMsg 0x13 (leBytes 4 (b.word Reg.kepSerialLo).toNat ++ leBytes 4 (b.word Reg.kepSerialHi).toNat ++ leBytes 1 (b.get Reg.parCtrl_PREFER) ++ leBytes 1 (b.get Reg.parCtrl_INPUT))).putPar
    { (s.sendMsg 0x13 (leBytes 4 (b.word Reg.kepSerialLo).toNat ++ leBytes 4 (b.word Reg.kepSerialHi).toNat ++ leBytes 1 (b.get Reg.parCtrl_PREFER) ++ leBytes 1 (b.get Reg.parCtrl_INPUT))).par with
      hello := some (s.par.txSeq, b.E) }

/-- After a lane changed: RX_LANES, a MAP to the partner, and the link coming up or being without a lane. -/
def State.pairLanes (s : State) : State :=
  if s.parState = 0 then s
  else
    let rx := laneBits (fun k => s.rxGood (40 + k))
    let old := s.base.get Reg.parStatus_RX_LANES
    let tx := laneBits (fun k => (s.base.get Reg.parStatus_TX_LANES).testBit k && !s.laneOut (36 + k))
    let s1 := (s.onBase (fun b => (b.put Reg.parStatus_RX_LANES rx).put Reg.parStatus_TX_LANES tx)).pairRoles
    let s2 := if rx != old && s.par.up then s1.sendMap else s1
    let s3 := if !s.par.up && rx != 0 && tx != 0 then ((s2.putPar { s2.par with up := true }).release ridPair 0).sendHello else s2
    s3.putPar { s3.par with noLane := if s3.par.up && (rx = 0 || tx = 0) then some (s.par.noLane.getD s.base.ticks) else none }

/-- A change of lane l reaches the pair link when it is one of its lanes. -/
def State.lanesFollow (s : State) (l : Nat) : State := if 36 ≤ l then s.pairLanes else s

/-- The leave of the pair link is granted: every transmit lane in service carries rows. -/
def State.pairGranted (s : State) : State :=
  if s.parState = 0 then s
  else (s.onBase (·.put Reg.parStatus_TX_LANES (laneBits (fun k => !s.laneOut (36 + k))))).pairLanes

/-- MAP: the lanes that the partner receives carry rows. -/
def State.mapRow (s : State) (k : Nat) (blk : BackBlock) : State :=
  s.pairCtl k blk 0x03 (fun m x => (x.onBase (·.put Reg.parStatus_TX_LANES (leAt m 4 1 % 16))).pairLanes)

/-- PAIR_LINK_RESET for a cause that holds (0 violations, 1 retries, 2 lanes). A swap that it abandons (Table 17.3) raises SWAP_FAIL, as one that R482 abandons does. -/
def State.pairLinkResetRow (s : State) (cause : Nat) : State :=
  let due := match cause with
    | 0 => decide (16 ≤ (s.par.viols.filter (fun t => decide (s.base.ticks < t + 625000))).length)
    | 1 => s.par.replay.any (fun r => decide (8 ≤ r.again))
    | _ => match s.par.noLane with | some t => decide (t + 62500 ≤ s.base.ticks) | none => false
  if !s.par.up || !due then s
  else
    let s1 := s.putPar { s.par with up := false, noLane := none, txSeq := 0, rxSeq := 0, replay := [], hello := none, viols := [], swap := none, own := s.par.own, peer := [] }
    let s2 := s1.onBase (fun b => (b.fault pgPAR 3 (leBytes 1 cause)).raiseMask pgPAR (2 ^ 22 + (if s.par.swap.isSome then 2 ^ 24 else 0)))
    let s3 := (List.range 4).foldl (fun (x : State) k => x.onBase (fun b => (b.setHunt (40 + k) Hunt.rest).put (Reg.lnkStatus_ALIGN (40 + k)) 0))
      (s2.onBase (fun b => { b with wire := { b.wire with pair := [] } }))
    (s3.onBase (fun b => (((b.put Reg.parStatus_STATE parTRAINING).put Reg.parStatus_RX_LANES 0).put Reg.parStatus_TX_LANES (laneBits (fun k => !s.laneOut (36 + k)))))).pairRoles

/-! ## Enabling (R465, R481, R486) -/

/-- DOWN is sent with a cause. -/
def State.sendDown (s : State) (cause : Nat) : State := s.sendMsg 0x14 (leBytes 1 cause)

/-- The pair link stops; the device runs alone. -/
def State.pairStop (s : State) : State :=
  let s1 := (List.range 4).foldl (fun (x : State) k => x.onBase (·.put (Reg.lnkStatus_ALIGN (40 + k)) 0)) ((s.putPar Pair.off).release ridPair 0)
  (s1.onBase (fun b => (b.setWord Reg.parStatus 0).setOwn pgPAR uOFF)).pairRoles

/-- A unit reset of the pair unit: one of each of its lanes (Table 2.3, R367). Roles and the messages in the replay buffer stand; a link left without lanes is reset by R471. -/
def State.pairReset (s : State) : State :=
  if !s.base.enabled pgPAR then s
  else (((List.range 8).foldl (fun (x : State) k => x.laneReset (36 + k)) (s.resetBegins pgPAR)).pairLanes).pairResetEnd

/-- A write of ENABLE. -/
def State.pairEnabled (on : Bool) (s : State) : State :=
  if on then ((s.onBase (fun b => (b.put Reg.parStatus_STATE parTRAINING).setOwn pgPAR uBUSY)).request ridPair 0 4).pairRoles
  else (s.sendDown 2).pairStop

/-! ## Heartbeats (R473 to R475) -/

/-- CFGSIG. -/
def Base.cfgSig (b : Base) : Nat :=
  crc32c (([Reg.cmpCtrl, Reg.cmpSize, Reg.cmpPitch, Reg.cmpSlant, Reg.cmpOffset, Reg.cmpDmax, Reg.cmpLctCrcLive] ++ (List.range 64).map Reg.cmpK
    ++ [Reg.sprCtrl, Reg.sprBg, Reg.scoCtrl, Reg.sxtEpochLo, Reg.sxtEpochHi]).flatMap (fun k => leBytes 4 (b.word k).toNat))

/-- The conditions that a heartbeat reports: a port in service, guard not FAULT, array not FAULT. -/
def State.okBits (s : State) : Nat :=
  (if s.anyService then 1 else 0) + (if s.base.ownState pgFRS = uFAULT then 0 else 2) + (if s.base.ownState pgSPR = uFAULT then 0 else 4)

/-- HEARTBEAT queued at a subframe start. -/
def State.sendHeartbeat (s : State) : State :=
  s.sendMsg 0x10 (leBytes 4 s.j ++ leBytes 4 s.base.now ++ leBytes 1 s.role ++ leBytes 1 s.okBits ++ [0, 0] ++ leBytes 4 s.base.cfgSig)

def State.setRoleTo (s : State) (r : Nat) : State := s.onBase (·.put Reg.parStatus_ROLE r)

/-- The role of a device that has none, once the partner's is known (R465). -/
def State.takeRole (s : State) (partner : Nat) : State :=
  if s.role != 0 then s
  else
    let own := s.base.addr64 Reg.kepSerialLo Reg.kepSerialHi
    let peer := s.base.addr64 Reg.parPeerSnLo Reg.parPeerSnHi
    let mine := s.base.flag Reg.parCtrl_PREFER
    let first := if mine == s.par.peerPrefer then decide (own < peer) else mine
    s.setRoleTo (if partner = 1 then 2 else if partner = 2 || first then 1 else 2)

/-- An active device that cannot show the wall yields to a sound partner (R483). -/
def State.maybeYield (s : State) : State :=
  if s.role = 1 && s.parState = parSYNC && s.okBits != 7 && s.par.peerOk = 7 && s.par.swap.isNone then
    let j := (s.j + 2) % 2 ^ 32
    (s.sendMsg 0x12 ([0, 0, 0, 0] ++ leBytes 4 j)).putPar { (s.sendMsg 0x12 ([0, 0, 0, 0] ++ leBytes 4 j)).par with swap := some ⟨j, true⟩ }
  else s

/-- The skew of a heartbeat: own E at receipt − E in the message − PAR_LAT, as s32 (R473). -/
def State.heartbeatSkew (s : State) (m : List Byte) : Int :=
  toSigned 32 ((s.base.now + 2 * 2 ^ 32 - leAt m 8 4 - s.base.get Reg.parLat_NS) % 2 ^ 32)

/-- Lock holds: the skew is within SKEW_LIM and the message's J is the own one at its queueing time, a PAR_LAT ago (R473). -/
def State.heartbeatLocks (s : State) (m : List Byte) : Bool :=
  let lat := s.base.get Reg.parLat_NS
  let ownJ := if s.sco.startAt ≤ (s.base.E : Int) - (lat : Int) then s.j else (s.j + 2 ^ 32 - 1) % 2 ^ 32
  decide ((s.heartbeatSkew m).natAbs ≤ s.base.get Reg.parHb_SKEW_LIM) && leAt m 4 4 == ownJ

/-- HEARTBEAT received. -/
def State.heartbeatRow (s : State) (k : Nat) (blk : BackBlock) : State :=
  s.pairMsg k blk 0x10 none (fun m x =>
    let skew := x.heartbeatSkew m
    let lock := x.heartbeatLocks m
    let lost := x.base.flag Reg.parStatus_LOCK && !lock
    let x1 := x.onBase (fun b => (b.put Reg.parSkew_NS (ofSigned 32 skew)).putFlag Reg.parStatus_LOCK lock)
    let x2 := if lost then x1.onBase (·.raise pgPAR 20) else x1
    let other := leAt m 16 4 != x.base.cfgSig && !x.par.cfgSet
    let x3 := if other then (x2.putPar { x2.par with cfgSet := true }).onBase (·.raise pgPAR 23) else x2
    let x4 := x3.putPar { x3.par with hbJ := some (leAt m 4 4), peerRole := leAt m 12 1, peerOk := leAt m 13 1 % 8, missing := 0 }
    let x5 := if x4.parState = parPARTITION || x4.parState = parLOST then x4.onBase (·.put Reg.parStatus_STATE parJOINING) else x4
    (x5.takeRole (leAt m 12 1)).maybeYield)

/-- HELLO received: the partner's identity; the pair is JOINING. -/
def State.helloRow (s : State) (k : Nat) (blk : BackBlock) : State :=
  s.pairMsg k blk 0x13 none (fun m x =>
    (x.putPar { x.par with peerPrefer := (leAt m 12 1).testBit 0, good := 0, bad := 0 }).onBase (fun b =>
      ((b.put Reg.parPeerSnLo_SN (leAt m 4 4)).put Reg.parPeerSnHi_SN (leAt m 8 4)).put Reg.parStatus_STATE parJOINING))

/-! ## Comparison (R477) -/

/-- One subframe compared: own and partner's RSIG. DIVERGE marks the first mismatch after a match. RUN mismatches make a pair DIVERGED that was SYNC (R477); a pair that is JOINING stays so until CONVERGE matches (R485). -/
def State.compareOne (s : State) (j own peer : Nat) : State :=
  let s1 := s.onBase (fun b => ((b.count Reg.parCompared_COUNT 1).put Reg.parRsigJ_J j).put Reg.parRsigPeer_RSIG peer)
  if own = peer then
    let n := s.par.good + 1
    let s2 := s1.putPar { s1.par with good := n, bad := 0, matched := true }
    if n < s.base.get Reg.parDiv_CONVERGE then s2
    else if s.parState = parJOINING then s2.onBase (fun b => (b.put Reg.parStatus_STATE parSYNC).raise pgPAR 16)
    else if s.parState = parDIVERGED then s2.onBase (fun b => (b.put Reg.parStatus_STATE parSYNC).raise pgPAR 19)
    else s2
  else
    let n := s.par.bad + 1
    let recent := s.par.faults.filter (fun t => decide (s.base.ticks < t + secTicks))
    let s2 := (s1.putPar { s1.par with bad := n, good := 0, matched := false }).onBase (·.count Reg.parMismatch_COUNT 1)
    let s3 := if 16 ≤ recent.length then s2.putPar { s2.par with faults := recent }
      else (s2.putPar { s2.par with faults := s.base.ticks :: recent }).onBase (·.fault pgPAR 2 (leBytes 4 j ++ leBytes 4 own ++ leBytes 4 peer))
    let s4 := if s.par.matched then s3.onBase (·.raise pgPAR 18) else s3
    if s.base.get Reg.parDiv_RUN ≤ n && s.parState = parSYNC then s4.onBase (·.put Reg.parStatus_STATE parDIVERGED) else s4

/-- Compares a subframe once both signatures are known; not without lock, nor when a device aborted it. -/
def State.compareJ (s : State) (j : Nat) : State :=
  match s.par.own.find? (fun e => e.1 == j), s.par.peer.find? (fun e => e.1 == j) with
  | some o, some p =>
    let s1 := s.putPar { s.par with peer := s.par.peer.filter (fun e => e.1 != j) }
    if o.2.2 || p.2.2 || !s.base.flag Reg.parStatus_LOCK then s1 else s1.compareOne j o.2.1 p.2.1
  | _, _ => s

/-- SIGNATURE received. -/
def State.signatureRow (s : State) (k : Nat) (blk : BackBlock) : State :=
  s.pairMsg k blk 0x11 none (fun m x =>
    (x.putPar { x.par with peer := ((leAt m 4 4, leAt m 8 4, (leAt m 12 1).testBit 0) :: x.par.peer).take 4 }).compareJ (leAt m 4 4))

/-- Own RSIG of a subframe is known: sent to the partner and compared. -/
def State.ownSignature (s : State) (j rsig : Nat) (aborted : Bool) : State :=
  if s.parState = 0 then s
  else
    let s1 := s.putPar { s.par with own := ((j, rsig, aborted) :: s.par.own).take 4 }
    (s1.sendMsg 0x11 (leBytes 4 j ++ leBytes 4 rsig ++ leBytes 1 (if aborted then 1 else 0))).compareJ j

/-! ## Roles (R479 to R483) -/

/-- The standby takes over, if it can show the wall: fault, event, count; it lights the panel from the next subframe start. -/
def State.takeOver (s : State) (cause : Nat) : State :=
  let s1 := (s.putPar { s.par with swap := none }).onBase (·.put Reg.parStatus_STATE parLOST)
  if s.okBits != 7 then s1
  else (s1.setRoleTo 1).onBase (fun b => ((b.fault pgPAR 1 (leBytes 1 cause ++ [0, 0, 0] ++ leBytes 4 s.j)).raise pgPAR 17).count Reg.parFailover_COUNT 1)

/-- DOWN received. -/
def State.downRow (s : State) (k : Nat) (blk : BackBlock) : State :=
  s.pairMsg k blk 0x14 none (fun _ x => if x.role = 2 then x.takeOver 0 else x.onBase (·.put Reg.parStatus_STATE parLOST))

/-- PARTNER_LOST: at S_j + HB_WAIT no heartbeat for this subframe has arrived. -/
def State.partnerLostRow (s : State) : State :=
  let wait := (s.base.get Reg.parHb_HB_WAIT * 1000 : Nat)
  if s.parState = 0 || s.role = 0 || !s.sco.running || s.par.judged || s.par.hbJ == some s.j || decide ((s.base.E : Int) < s.sco.startAt + (wait : Int)) then s
  else
    let n := s.par.missing + 1
    let s1 := s.putPar { s.par with judged := true, missing := n }
    let lost (cause : Nat) : State := if s.role = 2 then s1.takeOver cause else s1.onBase (·.put Reg.parStatus_STATE parLOST)
    if s.base.flag Reg.parCtrl_ALIVE_EN then
      if (s.par.aliveE.map (fun e => decide (s.sco.startAt - (wait : Int) ≤ (e : Int)))).getD false then
        if s.parState = parPARTITION then s1 else s1.onBase (fun b => (b.put Reg.parStatus_STATE parPARTITION).raise pgPAR 21)
      else lost 1
    else if n < 8 then s1 else lost 2

/-- ALIVE_IN: an edge at the ball; it is noted while ALIVE_EN is 1. -/
def State.aliveInRow (s : State) (level : Bool) : State :=
  let n := s.base.get Reg.parCtrl_GPIO_IN
  let s1 := (List.range 2).foldl (fun (x : State) m => if x.base.get (Reg.capCtrl_GPIO m) = n then x.capture m level else x) (s.setBall n level)
  if s.base.flag Reg.parCtrl_ALIVE_EN then (s1.putPar { s1.par with aliveE := some s.base.E }).onBase (·.putFlag Reg.parStatus_ALIVE true) else s1

/-- PAR_CMD.SWAP by the owner host; over a link that is down no request leaves, and the swap is abandoned when its answer is due. -/
def State.swapCmdWrite (s : State) (a : RegWr) : State :=
  s.write Reg.parCmd a (fun act _ _ x =>
    if !act.testBit 0 || (x.parState = 0 && !x.par.up) then x
    else
      let j := (x.j + 3) % 2 ^ 32
      let y := x.sendMsg 0x12 ([1, 0, 0, 0] ++ leBytes 4 j)
      y.putPar { y.par with swap := some ⟨j, false⟩ })

/-- YIELD received by the standby. -/
def State.yieldRow (s : State) (k : Nat) (blk : BackBlock) : State :=
  s.pairMsg k blk 0x12 (some 0) (fun m x => if x.role = 2 then x.putPar { x.par with swap := some ⟨leAt m 8 4, true⟩ } else x)

/-- SWAP_REQ received: answered when both are SYNC and locked. -/
def State.swapReqRow (s : State) (k : Nat) (blk : BackBlock) : State :=
  s.pairMsg k blk 0x12 (some 1) (fun m x =>
    if x.parState = parSYNC && x.base.flag Reg.parStatus_LOCK then
      let y := x.sendMsg 0x12 ([2, 0, 0, 0] ++ leBytes 4 (leAt m 8 4))
      y.putPar { y.par with swap := some ⟨leAt m 8 4, true⟩ }
    else x)

/-- SWAP_ACK received. -/
def State.swapAckRow (s : State) (k : Nat) (blk : BackBlock) : State :=
  s.pairMsg k blk 0x12 (some 2) (fun m x =>
    match x.par.swap with
    | some w => if w.j = leAt m 8 4 then x.putPar { x.par with swap := some ⟨w.j, true⟩ } else x
    | none => x)

/-! ## Subframe starts -/

/-- A swap that is due exchanges the roles; one without its acknowledgement at the start of J − 1 is abandoned. A timeline that has passed over the J named counts as having reached it. -/
def State.pairSwap (s : State) : State :=
  match s.par.swap with
  | none => s
  | some w =>
    if w.agreed then
      if decide ((s.j + 2 ^ 32 - w.j) % 2 ^ 32 < 2 ^ 31) then (s.putPar { s.par with swap := none }).setRoleTo (if s.role = 1 then 2 else 1) else s
    else if decide ((s.j + 1 + 2 ^ 32 - w.j) % 2 ^ 32 < 2 ^ 31) then (s.putPar { s.par with swap := none }).onBase (·.raise pgPAR 24) else s

/-- The pair at the start of subframe j (J is in SCO_SUBFRAME already): roles, ALIVE_OUT, heartbeat. -/
def State.pairSubframe (s : State) (slot0 : Bool) : State :=
  if s.parState = 0 then s
  else
    let s1 := s.pairSwap
    let wait := (s.base.get Reg.parHb_HB_WAIT * 1000 : Nat)
    let fresh := (s.par.aliveE.map (fun e => decide (s.sco.startAt - ((tSub s.sco.rate + wait : Nat) : Int) ≤ (e : Int)))).getD false
    let s2 := (s1.putPar { s1.par with judged := false, cfgSet := if slot0 then false else s1.par.cfgSet }).onBase (fun b =>
      if fresh then b else b.putFlag Reg.parStatus_ALIVE false)
    let g := s.base.get Reg.parCtrl_GPIO_OUT
    let s3 := if s.base.flag Reg.parCtrl_ALIVE_EN && s.base.get (Reg.gpioCfg_FUNC g) = 3 then s2.giveLevel g (!s2.drivenLevel g) else s2
    s3.sendHeartbeat.maybeYield

/-- The device lights the panel in the subframe that starts: it is not the standby of a pair. -/
def State.isStandby (s : State) : Bool := s.parState != 0 && s.role == 2

end Sys2Proof.Machine
end

