-- ==== Sys2Proof/Machine/LaneRun.lean ====
section
/-! DEFINITION. The serial lanes as time passes (R332 to R334, R337, R341, R361 to R363, R466, R467): at the end of every codeword period each lane that is not in electrical idle has sent one codeword of 15 rows, or as many symbols of a pattern; receive lanes hunt for their alignment and check patterns. -/

namespace Sys2Proof.Machine

/-- What a transmit lane drives during a codeword period. -/
inductive LaneMode where
  | idle
  | rows
  | pattern (pat : Nat)
  /-- Data received on the lane of the same number, retimed (FE of a pair lane). -/
  | relay
  deriving DecidableEq, Repr

/-- The codewords of LINK_DARK that an ended port still sends (R347). -/
def State.tail (s : State) (p : Nat) : Option (Nat × Nat) := sget (fun _ => none) s.base.wire.tails p

/-- The loop of a lane, while it acts. -/
def State.loopOf (s : State) (l : Nat) : Option (Nat × Nat) := if s.loopActs l then (s.lane l).loop else none

/-- The retraining of a lane has its leave: the lane sends IDLE rows (R357). -/
def State.trainsNow (s : State) (l : Nat) : Bool := match (s.lane l).retrain with | some (some _) => true | _ => false

/-- What a transmit lane of a panel port or of the pair link drives (Table 12.8, R332, R347, R486); in a near-end serial loop its balls stay in electrical idle. -/
def State.laneMode (s : State) (l : Nat) : LaneMode :=
  let on := if l < 32 then (s.port (l / 16)).sends || (s.tail (l / 16)).isSome else s.parState != 0
  match s.loopOf l with
  | some (3, pat) => if l < 32 then .pattern pat else .relay
  | some (2, _) => .idle
  | _ => if on && (!s.laneOut l || s.trainsNow l) then .rows else .idle

/-- The block of a lane in a row of its port: the row's own content, or LINK_DARK while it fills every row, or IDLE (R334, R337). -/
def State.rowBlock (s : State) (p l row : Nat) : Nat × List Byte :=
  let idle := (2, controlBlock row [])
  if s.trainsNow l then idle
  else
    match s.tail p with
    | some (c, _) => (2, controlBlock row [0x03, BitVec.ofNat 8 c])
    | none =>
      match s.base.wire.rows.find? (fun e => e.1 == p && e.2.1 == row) with
      | some (_, _, .control bs) => (2, bs)
      | some (_, _, .data ps) => (match ps.find? (fun e => e.1 == l) with | some e => (1, e.2) | none => idle)
      | none => (match s.pnl.linkDark with | some c => (2, controlBlock row [0x03, BitVec.ofNat 8 c]) | none => idle)

/-- The block of pair lane k in row r of a codeword: lane i of the striping carries block i of the row (R466, R467). -/
def State.pairBlockAt (s : State) (k r : Nat) : Nat × List Byte :=
  let st := s.base.wire.stripe
  let n := ((List.range 4).filter (fun i => st.testBit i)).length
  let i := ((List.range k).filter (fun i => st.testBit i)).length
  let idle := (2, withCrc [])
  if !st.testBit k then idle
  else match s.base.wire.pair[r * n + i]? with
    | some (msg, blk) => (if msg then 1 else 2, blk)
    | none => idle

/-- The 15 blocks of a lane in codeword c. -/
def State.laneBlocks (s : State) (l c : Nat) : List (Nat × List Byte) :=
  (List.range 15).map (fun r => if l < 32 then s.rowBlock (l / 16) l (15 * c + r) else s.pairBlockAt (l - 36) r)

/-- A lane at the end of codeword c. -/
def State.laneCodeword (c : Nat) (s : State) (l : Nat) : State :=
  match s.laneMode l with
  | .idle => s.onBase (·.idleLane l)
  | .rows => s.onBase (·.sendBlocks l (s.laneBlocks l c))
  | .pattern pat => s.onBase (fun b => let g := b.generate l pat 4070; g.2.driveLane l (g.2.code l) (patternLevels g.1))
  | .relay => s.onBase (fun b => (b.driveLane l (b.code l) (patternLevels (b.noisy (List.replicate 4070 0)))).draw)

/-- The near-end loops of a transmit lane (Table 12.8): its pattern reaches the checker, free of errors before the serializer, through the driver as it may; a pair lane's reaches the receive lane of its number. -/
def State.laneLoops (s : State) (l : Nat) : State :=
  let at_ := if l < 32 then l else l + 4
  match s.loopOf l with
  | some (1, pat) => s.onBase (fun b => let g := b.generate l pat 4070; g.2.checkPattern at_ pat g.1)
  | some (2, pat) => s.onBase (fun b => let g := b.generate l pat 4070; (g.2.checkPattern at_ pat (g.2.noisy g.1)).draw)
  | _ => s

/-- Rows and blocks that have gone leave the schedule; a tail grows shorter; the pair link takes the striping of its next codeword. -/
def State.rowsGone (s : State) (c : Nat) : State :=
  let n := ((List.range 4).filter (fun i => s.base.wire.stripe.testBit i)).length
  let shorter (t : Option (Nat × Nat)) : Option (Nat × Nat) := t.bind (fun e => if e.2 ≤ 1 then none else some (e.1, e.2 - 1))
  s.onBase (fun b => { b with wire := { b.wire with
    rows := b.wire.rows.filter (fun e => decide (15 * (c + 1) ≤ e.2.1))
    pair := b.wire.pair.drop (15 * n)
    tails := (List.range 2).foldl (fun m p => sput (fun _ => none) m p (shorter (s.tail p))) b.wire.tails
    stripe := b.get Reg.parStatus_TX_LANES } })

/-- The transmit lanes: P0 to P15, Q0 to Q15, XT0 to XT3. -/
def txLanes : List Nat := List.range 32 ++ [36, 37, 38, 39]

/-- Codeword c has ended on every transmit lane. -/
def State.codewordEnds (s : State) (c : Nat) : State :=
  (txLanes.foldl State.laneLoops (txLanes.foldl (State.laneCodeword c) s)).rowsGone c

/-- A receive lane at the end of a codeword period of its own: its hunt goes on (Table 12.4) with headers and codewords that nothing states, each a free value; in a loop its checker takes the pattern that it is given. -/
def State.rxCodeword (s : State) (l : Nat) : State :=
  let on := if l < 36 then (s.port ((l - 32) / 2)).sends else s.parState != 0
  let s1 := match s.loopOf l with
    | some (1, pat) => if l < 36 then s.onBase (fun b => let g := b.generate l pat 4070; g.2.checkPattern l pat g.1) else s
    | some (_, pat) => if l < 36 then s.onBase (fun b => let g := b.generate l pat 4070; (g.2.checkPattern l pat (g.2.noisy g.1)).draw) else s
    | none => s
  let align := s1.base.get (Reg.lnkStatus_ALIGN l)
  if !on || s1.laneOut l && !s1.trainsNow l || align = 2 then s1
  else
    let v := Config.freeNat s1.base.fresh
    let h := s1.base.hunt l
    let r := if align = 1 then h.confirms (v % 2 == 1) else h.hunts (v % 16)
    s1.onBase (fun b => ((b.setHunt l r.2).put (Reg.lnkStatus_ALIGN l) r.1).draw)

/-- The lanes after a tick: a codeword period of 4,070 bits ends at 340 bits a tick, on the back-channel at 85. -/
def State.lanesTick (s : State) : State :=
  let t := s.base.scheduleTicks
  if s.base.wire.since.isNone || t = 0 then s
  else
    let c := codewordsAt (t - 1)
    let s1 := if c < codewordsAt t then [40, 41, 42, 43].foldl State.rxCodeword (s.codewordEnds c) else s
    if 85 * (t - 1) / 4070 < 85 * t / 4070 then [32, 33, 34, 35].foldl State.rxCodeword s1 else s1

end Sys2Proof.Machine
end

