-- ==== Sys2Proof/Machine/Sha3.lean ====
section
/-! DEFINITION. SHA3-512 (R537, R540, R545, R555). PRESUMED: the spec names the function and leaves its definition to FIPS 202. Lane (x, y) of the permutation's state stands at 5y + x of a list of 25; the round constants come from their shift register and the rotation counts from the walk over the lanes that FIPS 202 gives, so that no table of numbers stands here. -/

namespace Sys2Proof.Machine

/-- A 64-bit lane turned left by n places. -/
def turnLeft (lane n : Nat) : Nat :=
  let wide := lane <<< (n % 64)
  (wide + wide >>> 64) % 2 ^ 64

/-- The lane at a place; places count modulo 5 in each direction. -/
def laneAt (lanes : List Nat) (x y : Nat) : Nat := lanes.getD (y % 5 * 5 + x % 5) 0

/-- A state built lane by lane. -/
def byLanes (f : Nat → Nat → Nat) : List Nat := (List.range 5).flatMap (fun y => (List.range 5).map (fun x => f x y))

/-- The shift register of the round constants (x⁸ + x⁶ + x⁵ + x⁴ + 1) after n steps from 1. -/
def iotaRegister : Nat → Nat
  | 0 => 1
  | n + 1 => let r := 2 * iotaRegister n; if r < 256 then r else r ^^^ 0x171

/-- The constant of round k: bit 2ʲ − 1 is the register's bit 0 after 7k + j steps. -/
def iotaConstant (k : Nat) : Nat :=
  ((List.range 7).map (fun j => iotaRegister (7 * k + j) % 2 * 2 ^ (2 ^ j - 1))).foldl (· + ·) 0

/-- The walk of the rotation step: the n-th lane visited after (1, 0). -/
def rhoWalk : Nat → Nat × Nat
  | 0 => (1, 0)
  | n + 1 => ((rhoWalk n).2, (2 * (rhoWalk n).1 + 3 * (rhoWalk n).2) % 5)

/-- Every lane takes in the parities of two neighbouring columns. -/
def mixColumns (lanes : List Nat) : List Nat :=
  let parity (x : Nat) : Nat := ((List.range 5).map (laneAt lanes x)).foldl (· ^^^ ·) 0
  byLanes (fun x y => laneAt lanes x y ^^^ parity (x + 4) ^^^ turnLeft (parity (x + 1)) 1)

/-- Each lane of the walk goes, turned by a triangular number, to the place of the next; lane (0, 0) stays. -/
def moveLanes (lanes : List Nat) : List Nat :=
  (List.range 24).foldl (fun out n =>
    let here := rhoWalk n
    let next := rhoWalk (n + 1)
    out.set (5 * next.2 + next.1) (turnLeft (laneAt lanes here.1 here.2) ((n + 1) * (n + 2) / 2))) lanes

/-- Each lane of a row takes in what the next two leave open. -/
def mixRows (lanes : List Nat) : List Nat :=
  byLanes (fun x y => laneAt lanes x y ^^^ ((2 ^ 64 - 1 - laneAt lanes (x + 1) y) &&& laneAt lanes (x + 2) y))

/-- The permutation: 24 rounds. -/
def permute (lanes : List Nat) : List Nat :=
  (List.range 24).foldl (fun l k => (mixRows (moveLanes (mixColumns l))).modify 0 (· ^^^ iotaConstant k)) lanes

/-- Takes in the 72-byte blocks of a padded message, one permutation each. -/
def soak : Nat → List Byte → List Nat → List Nat
  | 0, _, lanes => lanes
  | n + 1, m, lanes =>
    soak n (m.drop 72) (permute (byLanes (fun x y =>
      laneAt lanes x y ^^^ (if 5 * y + x < 9 then leAt m (8 * (5 * y + x)) 8 else 0))))

/-- The bytes that complete a message of n bytes to whole blocks: 06H, zeros, and 80H in the last byte. -/
def sha3Tail (n : Nat) : List Byte :=
  let k := 72 - n % 72
  (List.range k).map (fun i => (if i = 0 then 0x06#8 else 0) ||| (if i + 1 = k then 0x80#8 else 0))

/-- SHA3-512. -/
def sha3 (m : List Byte) : List Byte :=
  let whole := m ++ sha3Tail m.length
  ((soak (whole.length / 72) whole (List.replicate 25 0)).take 8).flatMap (leBytes 8)

end Sys2Proof.Machine
end

