-- ==== Sys2Proof/Machine/RingUnit.lean ====
section
/-! DEFINITION. The registers of the command rings (R246 to R248, R268, R270, R272, R273): doorbells, RUN and DISCARD, descriptor fetches under the host-service arbiter, the overload windows. -/

namespace Sys2Proof.Machine

/-! ## RING_TAIL (R246) -/

/-- RING_TAIL: the rights of the register, then the doorbell. -/
def State.tailWrite (s : State) (h r : Nat) (a : RegWr) : State :=
  match s.base.regWrite (Reg.ringTail h r) 0 a with
  | .refused b => { s with base := b }
  | .applied _ _ _ new _ => s.doorbell h r a new

/-! ## RING_CTRL (R270, R273) -/

/-- DISCARD: held completions and descriptors not processed are dropped, the completions still to come are marked, and the ring is empty. -/
def State.ringDiscard (s : State) (h r : Nat) : State :=
  let x := s.ring h r
  let keep (d : Desc) : Option Desc := match d.st with | .accepted => some { d with drop := true } | _ => none
  (s.setRing h r { x with flight := x.flight.filterMap keep, stamps := [] }).onBase (fun b =>
    (b.put (Reg.ringHead_HEAD h r) 0).put (Reg.ringTail_TAIL h r) 0)

/-- RUN written 1: HALTED clears, held completions are written, and fetching starts from HEAD. -/
def State.ringRun (s : State) (h r : Nat) : State :=
  (s.setRing h r { s.ring h r with held := false }).onBase (·.putFlag (Reg.ringCtrl_HALTED h r) false)

/-- RING_CTRL: LOG2 stands while RUN is 1; then DISCARD, then RUN. -/
def State.ringCtrlWrite (s : State) (h r : Nat) (a : RegWr) : State :=
  let key := Reg.ringCtrl h r
  let run := s.base.flag (Reg.ringCtrl_RUN h r)
  s.write key a (fun act old new x =>
    let x1 := if run && bits old 20 16 != bits new 20 16 then
        x.onBase (fun b => (b.put (Reg.ringCtrl_LOG2 h r) (bits old 20 16)).refuse a.host.toNat key vNOTPERM a.val) else x
    let x2 := if act.testBit 2 then x1.ringDiscard h r else x1
    let x3 := if a.be.toNat.testBit 0 && a.val.toNat.testBit 0 then x2.ringRun h r else x2
    x3.settleRing h r)

/-- The base registers of a ring, refused while RUN is 1. -/
def State.ringBaseWrite (s : State) (key h r : Nat) (a : RegWr) : State :=
  s.guardedWrite key a (s.base.flag (Reg.ringCtrl_RUN h r)) (fun _ _ _ x => x)

/-! ## Fetches (R248, R266, R267) -/

/-- The ring whose turn it is: the first fetchable one from the host's turn on. -/
def State.turn (s : State) (h : Nat) : Option Nat :=
  ((List.range 16).map (fun i => (sget (fun _ => 0) s.rings.rr h + i) % 16)).find? (s.ringFetchable h)

/-- The most descriptors that one fetch of a ring may read: one while another ring of the host waits for its turn (R266); else 64, those that the credit pays, those published, those up to the ring's end. -/
def State.fetchMost (s : State) (h r : Nat) : Nat :=
  let size := 2 ^ s.base.get (Reg.ringCtrl_LOG2 h r)
  if (List.range 16).any (fun q => q != r && s.ringFetchable h q) then 1
  else min (s.credit h).toNat (min 64 (min (s.backlogOf h r) (size - s.base.get (Reg.ringHead_HEAD h r) % size)))

/-- The next turn of a host goes to the ring after this one. -/
def State.passTurn (s : State) (h r : Nat) : State :=
  { s with rings := { s.rings with rr := sput (fun _ => 0) s.rings.rr h ((r + 1) % 16) } }

/-- The request of a fetch. -/
def State.fetchRead (s : State) (h r n : Nat) : State :=
  let size := 2 ^ s.base.get (Reg.ringCtrl_LOG2 h r)
  let a := s.base.addr64 (Reg.ringBaseLo h r) (Reg.ringBaseHi h r) + s.base.get (Reg.ringHead_HEAD h r) % size * 64
  s.onBase (·.emit (.hostRead h a (64 * n)))

/-- DESCRIPTOR_FETCH: a host with credit fetches from the ring whose turn it is; a failed read halts the ring. -/
def State.fetchRow (s : State) (h r : Nat) (reply : HostRead) : State :=
  let s1 := s.creditRounds
  if !s1.fetchable h || decide (s1.credit h ≤ 0) || s1.turn h != some r then s
  else match reply with
    | .data bs =>
      let k := bs.length / 64
      if bs.length % 64 != 0 || k == 0 || decide (s1.fetchMost h r < k) || !s1.hasRoom 4 h k then s
      else ((((s1.fetchRead h r k).enqueue h r bs k).passTurn h r).settleRing h r)
    | .fail c =>
      ((s1.fetchRead h r (s1.fetchMost h r)).passTurn h r).onBase (fun b =>
        let b1 := ((b.putFlag (Reg.ringCtrl_HALTED h r) true).fault (pgCMD h) 1
          (leBytes 1 r ++ [0, 0, 0] ++ leBytes 4 (b.get (Reg.ringHead_HEAD h r)))).raise (pgCMD h) 17
        b1.dmaError h (some 0) c.val)

/-! ## Overload (R268) -/

/-- The end of a window of a host. -/
def State.overloadHost (s : State) (h : Nat) : State :=
  let now := s.backlog h
  let prev := sget (fun _ => 0) s.rings.prev h
  let n := if prev < now then sget (fun _ => 0) s.rings.grow h + 1 else 0
  let latched := sget (fun _ => false) s.rings.quiet h && now != 0
  let fires := !latched && decide (s.base.get (Reg.cmdOvlCfg_WINDOWS h) ≤ n)
  let s1 : State := { s with rings := { s.rings with
    prev := sput (fun _ => 0) s.rings.prev h now
    grow := sput (fun _ => 0) s.rings.grow h n
    quiet := sput (fun _ => false) s.rings.quiet h (latched || fires) } }
  if fires then s1.onBase (fun b => (b.put (Reg.cmdOverload_DEFICIT h) (10 * (now - prev))).raise (pgCMD h) 16) else s1

/-- OVERLOAD: 100 freshness ticks have passed. -/
def State.overloadRow (s : State) : State :=
  if s.rings.window < 100 then s
  else (List.range s.base.nhosts).foldl State.overloadHost { s with rings := { s.rings with window := s.rings.window - 100 } }

end Sys2Proof.Machine
end

