-- ==== Sys2Proof/Machine/HostLink.lean ====
section
/-! DEFINITION. Host links (chapter 16): resets of a host (Table 9.8, Table 16.6), link up, bus mastering, interrupts, link errors, log delivery, and the DOE mailbox. -/

namespace Sys2Proof.Machine

/-! ## The function (R5, R442, Table 16.3) -/

/-- The type 0 configuration header of every function: Vendor ID, Device ID, Revision ID, Class Code, the Subsystem IDs of KEP_SUBSYS, Interrupt Pin 0; the bytes that Table 16.3 does not give, and the BAR bases, which the host sets, read 0 here. -/
def State.configHeader (s : State) : List Byte :=
  leBytes 2 0xC0D7 ++ leBytes 2 0x8128 ++ List.replicate 4 0 ++ leBytes 1 0xA1 ++ leBytes 3 0x038000 ++ List.replicate 32 0
    ++ leBytes 2 (s.base.get Reg.kepSubsys_SUBSYS_VID) ++ leBytes 2 (s.base.get Reg.kepSubsys_SUBSYS_ID) ++ List.replicate 16 0

/-- The windows of a function: BAR number, size in bytes, prefetchable (all 64-bit). -/
def barWindows : List (Nat × Nat × Bool) := [(0, 2 ^ 22, false), (2, 2 ^ 28, true), (4, 2 ^ 14, false)]

/-- The Device Serial Number, the same on every function. -/
def deviceSerial : Nat := Config.serial.toNat

/-! ## Recovery of a host's commands and transactions (R269, R270) -/

/-- Every ring of a host stops; what is uncompleted completes with ABORT_RESET and is held, but the commits of sealed transactions; open transactions roll back. -/
def State.hostReset (s : State) (h : Nat) : State :=
  let s0 := (List.range 16).foldl (fun (x : State) r =>
    (x.setRing h r { x.ring h r with held := true }).onBase (·.putFlag (Reg.ringCtrl_RUN h r) false)) s
  let s1 := s0.finishAll h stRESET (fun d => !s.sealedCommit h d)
  let s2 := (s1.openTxns h).foldl (fun (x : State) p => x.abortTxn h p.1 x.rings.nextId stRESET) s1
  let s3 := s2.twdStop h stRESET
  let s4 := if (s3.flights h).any (fun d => !d.pendingB) then s3.onBase (·.raise (pgCMD h) 18) else s3
  s4.refreshHost h

/-- A unit reset of a CMD or TXN page (R269); it completes at once. -/
def State.cmdReset (s : State) (h : Nat) : State := s.hostReset h

/-! ## Link resets (R455, R456, Table 16.6) -/

/-- The registers of a log read their reset values; waiting entries are counted in LOST. -/
def State.logClear (s : State) (i : Nat) : State :=
  let h := i / 2
  let keys := if i % 2 = 0 then [Reg.hstFlogBaseLo h, Reg.hstFlogBaseHi h, Reg.hstFlogCtrl h, Reg.hstFlogWr h, Reg.hstFlogRd h]
    else [Reg.hstVlogBaseLo h, Reg.hstVlogBaseHi h, Reg.hstVlogCtrl h, Reg.hstVlogWr h, Reg.hstVlogRd h]
  s.onBase (fun b =>
    let n := (b.logq i).waiting.length
    keys.foldl (fun (x : Base) k => x.setWord k (coldWord k)) ((b.setLogq i ⟨[], (b.logq i).seq⟩).count (logLost i) n))

/-- The DOE mailbox of a host. -/
def State.doeOf (s : State) (h : Nat) : Doe := sget (fun _ => ⟨false⟩) s.doe h
def State.setDoe (s : State) (h : Nat) (d : Doe) : State := { s with doe := sput (fun _ => ⟨false⟩) s.doe h d }

/-- The link goes down: DL_UP clears, LINK_DOWN, and the page is FAULT once the link had come up. -/
def Base.linkDown (b : Base) (h : Nat) : Base :=
  let l := b.link h
  if !l.up then b
  else (((b.setLink h { l with up := false }).setWord (Reg.hstLink h) 0).raise (pgHST h) 17).setOwn (pgHST h) uFAULT

/-- A mailbox command in progress ends with a status (R553); an interrupted FW_STAGE leaves its slot EMPTY. -/
def State.mbxEnd (s : State) (h status info : Nat) : State :=
  ({ s with hlm := { s.hlm with busy := serase s.hlm.busy h } } : State).onBase (fun b =>
    let b1 := ((b.put (Reg.mbxStatus_STATUS h) status).put (Reg.mbxStatus_INFO h) info).putFlag (Reg.mbxStatus_BUSY h) false
    let w := b1.word (hdr 1 0x18) ||| BitVec.ofNat 32 (2 ^ (16 + h))
    let fresh := (b1.word (hdr 1 0x1C)).toNat.testBit (16 + h) && !(b1.word (hdr 1 0x18)).toNat.testBit (16 + h)
    let b2 := b1.setWord (hdr 1 0x18) w
    if fresh then b2.msix h (b2.get (Reg.mbxCmd_VECTOR h)) else b2)

/-- Firmware slots: state code, PENDING, SVN, VERSION live in HLM_SLOT. -/
def State.slotState (s : State) (k : Nat) : Nat := s.base.get (Reg.hlmSlot_STATE k)

/-- A slot becomes EMPTY. -/
def State.slotEmpty (s : State) (k : Nat) : State :=
  ({ s with hlm := { s.hlm with images := serase s.hlm.images k } } : State).onBase (fun b => (b.setWord (Reg.hlmSlot k) 0).setWord (Reg.hlmSlotVer k) 0)

/-- The slot that FW_STAGE writes: neither ACTIVE nor TRIAL (R546). -/
def State.stageSlot (s : State) : Nat := if s.slotState 0 = 3 || s.slotState 0 = 2 then 1 else 0

/-- The mailbox command of a host that a reset ends. -/
def State.mbxAbort (s : State) (h : Nat) : State :=
  if s.hlm.busy.any (fun e => e.1 == h) then (s.slotEmpty s.stageSlot).mbxEnd h stRESET 0 else s

/-- Host h's queries end: VALID, and RANGE where there is one, read 0 (R46). -/
def State.queriesEnd (s : State) (h : Nat) : State :=
  ({ s with queries := s.queries.filter (fun q => q / 4 != h) } : State).onBase (fun b =>
    [(Reg.cmpProbeOut, 31), (Reg.cmpProbeOut, 16), (Reg.frsQueryAge, 31), (Reg.frsQueryAge, 30), (Reg.domMapEntry, 31), (Reg.calQueryOut, 31)].foldl
      (fun (b : Base) e => b.putFlag ⟨hostCopy h e.1, e.2, e.2⟩ false) b)

/-- A link reset of host h with its cause (1 link down, 2 Hot Reset, 3 FLR, 4 unit reset, 5 warm reset). -/
def State.linkReset (s : State) (h cause : Nat) : State :=
  let again := cause == 5 && (s.base.link h).resetAt.isSome
  let s1 := (((s.hostReset h).domeLinkReset h).mbxAbort h).queriesEnd h
  let s2 := (s1.logClear (2 * h)).logClear (2 * h + 1)
  let s3 := if s2.holdsCfg h then s2.cfgEnd stRESET else s2
  let s4 := s3.onBase (fun b =>
    let l := b.link h
    let b1 := if cause = 4 then b else b.setLink h { l with bme := false, d3hot := false, unmasked := [], pba := [] }
    let b2 := if cause = 1 || cause = 2 || cause = 5 then b1.linkDown h else b1
    let b3 := b2.setLink h { b2.link h with resetAt := some b.ticks }
    let b4 := b3.put (Reg.hstReset_CAUSE h) cause
    if again then b4
    else ((b4.put (Reg.hstResetTime_TIME h) b.now).count (Reg.hstResets_COUNT h) 1).fault (pgHST h) 1 (leBytes 1 cause))
  let s5 := if cause = 4 then s4 else s4.setDoe h ⟨false⟩
  { s5 with hlm := { s5.hlm with linkAt := some s5.base.ticks } }

/-- A link reset that comes from the link itself: the host is present and its link is up. -/
def State.linkEvent (s : State) (h cause : Nat) : State := if decide (h < s.base.nhosts) && (s.base.link h).up then s.linkReset h cause else s

/-- The unit reset of an HST page. -/
def State.hstReset (s : State) (h : Nat) : State := (s.resetBegins (pgHST h)).linkReset h 4

/-- LINK_RESET_DONE. -/
def State.linkResetDone (s : State) (h : Nat) : State :=
  if (s.base.link h).resetAt.isSome then (s.onBase (fun b => b.setLink h { b.link h with resetAt := none })).resetEnds (pgHST h) else s

/-- LINK_UP: the link of a host present comes up, once its PHY has been released at step 7. -/
def State.linkUpRow (s : State) (h speed width : Nat) (flit : Bool) : State :=
  if (s.base.link h).up || !decide (h < s.base.nhosts) || decide (s.base.get Reg.rstStep_STEP < 7) || s.base.ownState (pgHST h) == uNOCLOCK then s
  else s.onBase (fun b =>
    let b1 := b.setLink h { b.link h with up := true, everUp := true }
    let b2 := (((b1.putFlag (Reg.hstLink_DL_UP h) true).putFlag (Reg.hstLink_FLIT h) flit).put (Reg.hstLink_SPEED h) speed).put (Reg.hstLink_WIDTH h) width
    (b2.raise (pgHST h) 16).setOwn (pgHST h) uBUSY)

/-! ## Bus mastering and interrupts (R445, R451) -/

/-- The pending messages of vectors that are not masked are sent. -/
def Base.sendPending (b : Base) (h : Nat) : Base :=
  if !b.canSend h then b
  else
    let l := b.link h
    let go := l.pba.filter l.unmasked.contains
    go.foldl (fun (x : Base) v => x.emit (.msix h v)) (b.setLink h { l with pba := l.pba.filter (fun v => !l.unmasked.contains v) })

/-- Requests resume once bus mastering and D0 are back: completions and messages that waited are sent. -/
def State.resumeLink (s : State) (h : Nat) : State := if s.base.canSend h then ((s.drainHost h).onBase (·.sendPending h)).refreshHost h else s

/-- BUS_MASTER_ENABLE. -/
def State.busMaster (s : State) (h : Nat) (on : Bool) : State :=
  if (s.base.link h).up then (s.onBase (fun b => b.setLink h { b.link h with bme := on })).resumeLink h else s

/-- D3HOT. -/
def State.d3 (s : State) (h : Nat) (on : Bool) : State :=
  if (s.base.link h).up then (s.onBase (fun b => b.setLink h { b.link h with d3hot := on })).resumeLink h else s

/-- MSIX_UNMASK. -/
def State.unmask (s : State) (h vec : Nat) : State :=
  if (s.base.link h).up then s.onBase (fun b => (b.setLink h { b.link h with unmasked := setInsert (b.link h).unmasked vec }).sendPending h) else s

/-! ## Link errors (R443, R452, R453) -/

/-- The answer to a bad request: Unsupported Request, Completer Abort, or none. -/
def errorAnswer (e : LinkError) : Option Nat :=
  match e with
  | .unsupported => some 0
  | .memSpaceOff => some 0
  | .tooLongRead => some 1
  | .tooLongWrite => none
  | .poisonedWrite => none
  | .malformed => none
  | .unexpected => none

/-- TLP_ERROR. -/
def State.tlpErrorRow (s : State) (h : Nat) (e : LinkError) (aer : Byte) (header : List Byte) : State :=
  s.onBase (fun b => (match errorAnswer e with | some c => b.emit (.linkError h c) | none => b).linkViolation h aer header)

/-- COMPLETION_TIMEOUT: as a completion with Unsupported Request for what asked. -/
def State.timeoutRow (s : State) (h : Nat) (who : Requester) : State :=
  if !(s.base.link h).up then s
  else match who with
    | .fetch r => s.fetchRow h r.val (.fail 3)
    | .upload r n => s.uploadDone h r.val n.toNat (.fail 3)
    | .spill g => if g / 2 ^ 21 = h + 1 then s.pageInRow g (.fail 3) else s
    | .readback => s.onBase (·.dmaError h (some 2) 3)
    | .log => s.onBase (·.dmaError h (some 4) 3)

/-! ## Log delivery (R448 to R450) -/

/-- Registers of a log: base, ring size, WR, RD. -/
def Base.logBase (b : Base) (i : Nat) : Nat :=
  if i % 2 = 0 then b.addr64 (Reg.hstFlogBaseLo (i / 2)) (Reg.hstFlogBaseHi (i / 2)) else b.addr64 (Reg.hstVlogBaseLo (i / 2)) (Reg.hstVlogBaseHi (i / 2))
def logLog2 (i : Nat) : FieldRef := if i % 2 = 0 then Reg.hstFlogCtrl_LOG2 (i / 2) else Reg.hstVlogCtrl_LOG2 (i / 2)
def logWr (i : Nat) : FieldRef := if i % 2 = 0 then Reg.hstFlogWr_WR (i / 2) else Reg.hstVlogWr_WR (i / 2)
def logRd (i : Nat) : FieldRef := if i % 2 = 0 then Reg.hstFlogRd_RD (i / 2) else Reg.hstVlogRd_RD (i / 2)

/-- LOG_WRITE: the oldest waiting entry of a log is written once its ring has room; FLOG or VLOG when the ring was empty. -/
def State.logWriteRow (s : State) (i : Nat) : State :=
  let h := i / 2
  let b := s.base
  let wr := b.get (logWr i)
  let size := 2 ^ b.get (logLog2 i)
  match (b.logq i).waiting with
  | [] => s
  | e :: r =>
    if !b.logEn i || !b.canSend h || decide (size ≤ sub32 wr (b.get (logRd i))) then s
    else
      let seq := ((b.logq i).seq + 1) % 2 ^ 32
      s.onBase (fun b =>
        let b1 := ((b.setLogq i ⟨r, seq⟩).emit (.hostWrite h (b.logBase i + wr % size * 32) (e.bytes seq))).put (logWr i) ((wr + 1) % 2 ^ 32)
        if wr = b.get (logRd i) then b1.raise (pgHST h) (if i % 2 = 0 then 18 else 19) else b1)

/-- A write of a log's control register: EN from 0 to 1 restarts the numbering. -/
def State.logCtrlWrite (s : State) (i : Nat) (a : RegWr) : State :=
  s.write (if i % 2 = 0 then Reg.hstFlogCtrl (i / 2) else Reg.hstVlogCtrl (i / 2)) a (fun _ old new x =>
    if !old.testBit 31 && new.testBit 31 then x.onBase (fun b => b.setLogq i { b.logq i with seq := 0 }) else x)

/-! ## The DOE mailbox (R458, R459) -/

/-- Firmware runs (R550, R553). -/
def State.helmRuns (s : State) : Bool := s.base.get Reg.hlmStatus_STATE == 2

/-- A data object of a protocol: vendor, type, length in DW, payload. -/
def doeObject (vendor type : Nat) (payload : List Byte) : List Byte :=
  leBytes 2 vendor ++ [BitVec.ofNat 8 type, 0] ++ leBytes 4 (2 + payload.length / 4) ++ payload

/-- The header's length in DW agrees with the object (0 stands for 2¹⁸ DW, which no object of this device has). -/
def doeWhole (m : List Byte) : Bool :=
  decide (8 ≤ m.length ∧ m.length ≤ 65536) && m.length % 4 == 0 && leAt m 4 4 == m.length / 4

/-- The discovery response for an index: protocol and the next index. -/
def discovery (i : Nat) : Nat :=
  match i with
  | 0 => 0x0001 + 0x00 * 2 ^ 16 + 1 * 2 ^ 24
  | 1 => 0xC0D7 + 0x01 * 2 ^ 16 + 0 * 2 ^ 24
  | _ => 0xFFFF

/-- DOE_DISCOVERY: a discovery request, or one that names an unsupported protocol; an object that contradicts its length sets DOE Error. -/
def State.doeDiscoveryRow (s : State) (h : Nat) (m : List Byte) : State :=
  if !s.helmRuns || !decide (h < s.base.nhosts) || (s.doeOf h).error then s
  else if !doeWhole m then s.setDoe h ⟨true⟩
  else
    let vendor := leAt m 0 2
    let type := leAt m 2 1
    if vendor = 0xC0D7 ∧ type = 1 then s
    else
      let answer := if vendor = 1 ∧ type = 0 then (if m.length = 12 then leBytes 4 (discovery (leAt m 8 1)) else []) else []
      s.onBase (·.emit (.doe h (doeObject vendor type answer)))

/-- DOE_ABORT. -/
def State.doeAbortRow (s : State) (h : Nat) : State := s.setDoe h ⟨false⟩

end Sys2Proof.Machine
end

