-- ==== Sys2Proof/Machine/CalUnit.lean ====
section
/-! DEFINITION. Calibration (R531 to R534, R536): starting a run, its leave, its end, and what abandons it. -/

namespace Sys2Proof.Machine

abbrev pgCAL : Nat := 0x009

/-- Trims of each target (Table 19.4 and the INDEX field): rails 20, sensors 128, strings 384, Belfry 1. -/
def trimCount (t : Nat) : Nat := match t with | 0 => 20 | 1 => 128 | 2 => 384 | _ => 1

def trimKey (t i : Nat) : Nat := 512 * t + i

/-- A trim in force, relative to its factory value's place: an unlisted one holds the factory value, taken as 0. -/
def Cal.trim (c : Cal) (t i : Nat) : Int := sget (fun _ => (0 : Int)) c.live (trimKey t i)
def Cal.dryTrim (c : Cal) (t i : Nat) : Int := sget (fun _ => (0 : Int)) c.shadow (trimKey t i)

/-- Device ticks that the selected targets take (Table 19.4): 1 ms, 2 ms, 2 light-field frames, 1 ms. -/
def calTicks (targets rate : Nat) : Nat :=
  (if targets.testBit 0 then 625000 else 0) + (if targets.testBit 1 then 1250000 else 0)
    + (if targets.testBit 2 then 2 * 625000000 / hzOf rate else 0) + (if targets.testBit 3 then 625000 else 0)

/-- The target measured after some ticks of a run. -/
def calTarget (targets rate t : Nat) : Nat :=
  ((List.range 4).find? (fun k => targets.testBit k && decide (t < calTicks (targets % 2 ^ (k + 1)) rate))).getD 0

/-- A run ends with a status: RESULT, time, DONE, leave released, page READY. -/
def State.calEnd (s : State) (status : Nat) : State :=
  (({ s with cal := { s.cal with run := none } } : State).release ridCal 0).onBase (fun b =>
    ((((((b.putFlag Reg.calStatus_BUSY false).putFlag Reg.calStatus_WAIT_LEAVE false).put Reg.calStatus_RESULT status).put Reg.calDoneTime_TIME b.now).raise pgCAL 16).busyIf pgCAL false))

/-- A write of CAL_CTRL: START from the owner host while no run is in progress. -/
def State.calCtrlWrite (s : State) (a : RegWr) : State :=
  s.write Reg.calCtrl a (fun act _ _ x =>
    if !act.testBit 31 then x
    else if a.host.toNat != x.base.owner || x.cal.run.isSome then x.onBase (·.refuse a.host.toNat Reg.calCtrl vNOTPERM a.val)
    else if x.base.get Reg.calCtrl_TARGETS = 0 then x.calEnd stNOOP
    else
      let run : CalRun := ⟨x.base.get Reg.calCtrl_TARGETS, x.base.flag Reg.calCtrl_DRY_RUN, none⟩
      (({ x with cal := { x.cal with run := some run } } : State).request ridCal 0 (x.base.get Reg.calUnits_UNITS)).onBase (fun b =>
        ((b.putFlag Reg.calStatus_BUSY true).putFlag Reg.calStatus_WAIT_LEAVE true).busyIf pgCAL true))

/-- The leave of a run is granted: measuring begins. -/
def State.calGranted (s : State) : State :=
  match s.cal.run with
  | none => s
  | some r => ({ s with cal := { s.cal with run := some { r with granted := some s.base.ticks } } } : State).onBase (·.putFlag Reg.calStatus_WAIT_LEAVE false)

/-- A run is abandoned (R534). -/
def State.calAbort (s : State) : State := if s.cal.run.isSome then s.calEnd stRESET else s

/-- A unit reset of the CAL page abandons a run; it completes at once. -/
def State.calReset (s : State) : State := s.calAbort

/-- The new trims of the selected targets; an index that the measurement does not list keeps its live value. -/
def calNew (c : Cal) (targets : Nat) (trims : List (Fin 4 × BitVec 9 × Int)) : Sparse Int :=
  let mine := trims.filter (fun t => targets.testBit t.1.val && decide (t.2.1.toNat < trimCount t.1.val))
  mine.foldl (fun (m : Sparse Int) t => sput (fun _ => (0 : Int)) m (trimKey t.1.val t.2.1.toNat) t.2.2) c.live

/-- The largest change of a target's trims, saturating at 255. -/
def calDelta (c : Cal) (new : Sparse Int) (targets t : Nat) : Nat :=
  if !targets.testBit t then 0
  else min 255 (((List.range (trimCount t)).map (fun i => ((sget (fun _ => (0 : Int)) new (trimKey t i)) - c.trim t i).natAbs)).foldl max 0)

/-- CAL_DONE: the reference check, which ends a run at once; after the measurement the range check, then the trims take effect together unless DRY_RUN. -/
def State.calDoneRow (s : State) (m : CalResult) : State :=
  match s.cal.run with
  | none => s
  | some r =>
    match r.granted with
    | none => s
    | some t0 =>
      let s1 := s.onBase (·.put Reg.calRef_DEV_PPM m.devPpm.toNat)
      if 2000 < (toSigned 16 m.devPpm.toNat).natAbs then
        (s1.onBase (·.fault pgCAL 1 (leBytes 2 m.devPpm.toNat))).calEnd stDEVICE
      else if s.base.ticks < t0 + calTicks r.targets s.sco.rate then s
      else
        let mine := m.trims.filter (fun t => r.targets.testBit t.1.val && decide (t.2.1.toNat < trimCount t.1.val))
        match mine.find? (fun t => decide (t.2.2 < -128 ∨ 127 < t.2.2)) with
        | some t => (s1.onBase (·.fault pgCAL 2 (leBytes 1 t.1.val ++ [0] ++ leBytes 2 t.2.1.toNat))).calEnd stDEVICE
        | none =>
          let new := calNew s.cal r.targets m.trims
          let d (t : Nat) : Nat := calDelta s.cal new r.targets t
          let s2 : State := { s1 with cal := if r.dry then { s1.cal with shadow := new } else { s1.cal with shadow := new, live := new, before := s1.cal.live, since := s.base.ticks } }
          (s2.onBase (fun b => (((b.put Reg.calDelta_RAILS (d 0)).put Reg.calDelta_THERMAL (d 1)).put Reg.calDelta_BEACON (d 2)).put Reg.calDelta_BELFRY (d 3))).calEnd stOK

end Sys2Proof.Machine
end

