-- ==== Sys2Proof/Machine/WatchUnit.lean ====
section
/-! DEFINITION. The Watch (R557 to R561, R564): which unit may be tested, leave, the two subframes of a cluster test, verdicts, repair, and the sweep of the Spire. -/

namespace Sys2Proof.Machine

abbrev pgWCH : Nat := 0x003

/-- The period of a class in device ticks. -/
def State.watchPeriod (s : State) (cls : Nat) : Nat :=
  (if cls < 2 then s.base.get Reg.wchPeriod_CLUSTER_S else s.base.get Reg.wchPeriod_OTHER_S) * secTicks

/-- Units of leave (Table 20.8). -/
def State.watchUnits (s : State) (cls : Nat) : Nat :=
  match cls with
  | 0 => s.base.get Reg.wchLeave_CLUSTER
  | 1 => s.base.get Reg.wchLeave_CLUSTER
  | 2 => s.base.get Reg.wchLeave_ENGINE
  | 3 => s.base.get Reg.wchLeave_LANE
  | 6 => s.base.get Reg.wchLeave_FRAME
  | _ => 0

/-- The ball pair that a class 5 target names: the lower ball × 384 + the higher ball. -/
def pairOf (target : Nat) : Nat × Nat := (target / 384, target % 384)

/-- A target of a class may be tested now (Table 20.8): targets are pages, spare logical pages for class 6, ball pairs for class 5. -/
def State.watchMay (s : State) (cls target : Nat) : Bool :=
  match cls with
  | 0 =>
    let c := target - 0x110
    decide (0x110 ≤ target ∧ target < 0x154) && s.renders c && s.base.get (Reg.spcRole_ROLE c) == 0 && (s.readySpare (c / 17)).isSome && !s.spr.off.contains c
  | 1 =>
    let c := target - 0x110
    decide (0x110 ≤ target ∧ target < 0x154) && s.readySpare (c / 17) == some c
  | 2 =>
    let e := target - 0x031
    decide (0x031 ≤ target ∧ target < 0x041) && (s.engine e).job.isNone && s.base.ownState target == uREADY && s.base.enabled target &&
      (match (s.engine e).idle with | none => true | some t => decide (t + 625000 ≤ s.base.ticks))
  | 3 =>
    let l := target - 0x050
    decide (0x050 ≤ target ∧ target < 0x070) && (s.port (l / 16)).sends && (s.idleSpares (l / 16) (s.port (l / 16)).target).contains (l % 16)
  | 4 =>
    let l := target - 0x050
    decide (0x050 ≤ target ∧ target < 0x07C) && (s.lane l).dead && (s.lane l).retrain.isNone && !s.laneRetired l && s.base.enabled target && s.laneHome l
  | 5 =>
    let p := pairOf target
    decide (p.1 < p.2 ∧ p.2 < 384) && adjacent p.1 p.2 && (s.zone (p.1 / 32)).phase == .started && (s.zone (p.2 / 32)).phase == .started
  | _ => decide (64512 ≤ target ∧ target < 65536) && !s.dome.lent.contains target && !s.wch.gone.contains target

/-- The rotation of a class: its key, and the units in the order that follows the one tested last (R557). -/
def State.watchOrder (s : State) (cls target : Nat) : Option (Nat × List Nat) :=
  let from_ (key base n : Nat) : Nat × List Nat := (key, (List.range n).map (fun i => base + (sget (fun _ => 0) s.wch.rot key + i) % n))
  match cls with
  | 0 => let q := (target - 0x110) / 17; some (from_ q (0x110 + 17 * q) 17)
  | 6 => some (from_ 4 64512 1024)
  | _ => none

/-- A unit is next in its rotation; a class without one takes any unit that may be tested. -/
def State.watchNext (s : State) (cls target : Nat) : Bool :=
  match s.watchOrder cls target with
  | some o => o.2.find? (s.watchMay cls) == some target
  | none => s.watchMay cls target

/-- The rotation goes on behind the unit taken. -/
def State.watchTurn (s : State) (cls target : Nat) : State :=
  match s.watchOrder cls target with
  | some o => { s with wch := { s.wch with rot := sput (fun _ => 0) s.wch.rot o.1 (if cls = 6 then (target - 64512 + 1) % 1024 else ((target - 0x110) % 17 + 1) % 17) } }
  | none => s

/-- At L2 and above, and during an underrun run, classes 0, 1, 2 and 6 do not start (R558). -/
def State.watchHeld (s : State) (cls : Nat) : Bool :=
  (cls == 0 || cls == 1 || cls == 2 || cls == 6) && (decide (2 ≤ s.base.get Reg.thmStatus_LEVEL) || s.base.get Reg.sprAbortRun_RUN != 0)

/-- The page's state: BUSY during a test, a ball pair's and a sweep among them. -/
def State.watchState (s : State) : State := s.onBase (·.busyIf pgWCH (s.wch.test.isSome || s.bcn.watch.isSome || s.spr.sweep == 1))

/-- The test is over: leave released, the period counts anew. -/
def State.watchClear (s : State) : State :=
  match s.wch.test with
  | none => s
  | some t =>
    (({ s with wch := { s.wch with test := none, last := sput (fun _ => 0) s.wch.last t.cls s.base.ticks } } : State).release ridWatch 0).watchState

/-- The FE loop with PRBS31 of an idle spare's test begins or is over (Table 20.8): a LOOP block tells the panel; a loop that LNK_CTRL selects acts on after it (R361, R364). -/
def State.watchLoop (s : State) (l : Nat) (on : Bool) : State :=
  let own := (s.base.get (Reg.lnkCtrl_LOOP l), s.base.get (Reg.lnkCtrl_PATTERN l))
  let loop := if on then (3, 3) else own
  let s1 := (s.setLane l { s.lane l with loop := if loop.1 = 0 || loop.2 = 0 then none else some loop }).onBase (·.setPrbs l Prbs.rest)
  match loopBlock l loop.1 loop.2 with
  | some (p, blk) => if (s1.port p).sends && s1.pnl.linkDark.isNone then s1.sendRow p blk else s1
  | none => s1

/-- The unit is withdrawn when the test runs: an engine or a lane at once, clusters at the next subframe start. -/
def State.watchBegin (s : State) (t : WatchTest) : State :=
  let s1 : State := { s with wch := { s.wch with test := some { t with runs := true, at_ := s.base.ticks } } }
  match t.cls with
  | 2 => s1.setUnit t.target uTEST
  | 3 => ((s1.setUnit t.target uTEST).refreshPort ((t.target - 0x050) / 16)).watchLoop (t.target - 0x050) true
  | _ => s1

/-- WATCH_TEST_START: at its period a class takes an eligible unit, and asks for its leave. -/
def State.watchStartRow (s : State) (cls target : Nat) : State :=
  let idle := s.wch.test.isNone && s.bcn.watch.isNone && s.pwr.warm.isNone && s.base.ownState pgWCH == uREADY && s.base.enabled pgWCH && s.spr.sweep != 1 && s.spr.sweep != 4
  let due := decide (sget (fun _ => 0) s.wch.last cls + s.watchPeriod cls ≤ s.base.ticks)
  if !idle || !due || !(s.base.get Reg.wchCtrl_EN).testBit cls || s.watchHeld cls || !s.watchNext cls target then s
  else
    let stamp (x : State) : State := ({ x with wch := { x.wch with last := sput (fun _ => 0) x.wch.last cls s.base.ticks } } : State).watchTurn cls target
    if cls = 4 then
      ((stamp { s with wch := { s.wch with test := some ⟨4, target, s.base.ticks, false, 0, none⟩ } }).retrain (target - 0x050)).watchState
    else if cls = 5 then (stamp { s with bcn := { s.bcn with watch := some (pairOf target) } }).watchState
    else
      (((({ s with wch := { s.wch with test := some ⟨cls, target, s.base.ticks, false, 0, none⟩ } } : State).watchTurn cls target).request ridWatch 0 (s.watchUnits cls)).watchState)

/-- The leave of a test is granted; a test that can no longer run is skipped. -/
def State.watchGranted (s : State) : State :=
  match s.wch.test with
  | none => s
  | some t => if s.watchMay t.cls t.target && !s.watchHeld t.cls then s.watchBegin t else s.watchClear

/-- A cluster under test goes out of dispatch, its spare in its place (a spare under test only leaves reserve). -/
def State.clusterTakes (s : State) (c : Nat) (active : Bool) : State :=
  let s1 := ((s.reissue c).setRole c 3 false).setUnit (pgSPC c) uTEST
  if !active then s1
  else match s.readySpare (c / 17) with
    | some sp => ((s1.setRole sp 0 true).onBase (·.putFlag (Reg.spqSpare_VALID (c / 17)) false)).handOut (c / 17)
    | none => s1

/-- A tested cluster returns: active, with its quadrant's spare back in reserve, or to reserve itself. -/
def State.clusterReturns (s : State) (c : Nat) (active keepSpare : Bool) : State :=
  let q := c / 17
  let s1 := (s.setRole c (if active then 0 else 1) active).setUnit (pgSPC c) uREADY
  let sp := s.base.get (Reg.spqSpare_CLUSTER q)
  if active && !keepSpare && s.base.get (Reg.spcRole_ROLE sp) == 0 then
    ((s1.reissue sp).setRole sp 1 false).onBase (·.putFlag (Reg.spqSpare_VALID q) true)
  else s1

/-- A cluster that the Watch has failed is RETIRED at the next subframe start; the spare that stood in for it stays in service (R178). -/
def State.clusterRetires (s : State) (c : Nat) (active : Bool) : State :=
  let s1 := (s.setRole c 2 false).setUnit (pgSPC c) uRETIRED
  if active then s1.onBase (·.raise pgSPR 18) else s1.onBase (·.putFlag (Reg.spqSpare_VALID (c / 17)) false)

/-- A cluster that fails in a Watch test: WATCH_FAIL, tied to no span, and FAULT (R177, R188). -/
def State.clusterFails (s : State) (c : Nat) : State :=
  (s.onBase (·.fault (pgSPC c) 3 (spanDetail 0xFFFF 0xFFFF 0xFF (s.j % 8)))).setUnit (pgSPC c) uFAULT

/-- A failed cluster of the quadrant while another is under test: it is RETIRED and the tested one returns (Table 20.9). -/
def State.watchRealFault (s : State) (c : Nat) : Option Nat :=
  ((List.range 17).map (· + 17 * (c / 17))).find? (fun k => k != c && s.base.ownState (pgSPC k) == uFAULT && s.base.get (Reg.spcRole_ROLE k) == 0)

/-- The Watch at a subframe start: a verdict takes effect, a test of a cluster begins or counts, a lane that has been chosen leaves its test. -/
def State.watchSubframe (s : State) : State :=
  match s.wch.test with
  | none => s
  | some t =>
    let c := t.target - 0x110
    let active := t.cls == 0
    if !t.runs then s
    else if t.cls = 3 then
      let l := t.target - 0x050
      if (s.port (l / 16)).target.has (l % 16) then (((s.setUnit t.target uREADY).watchLoop l false).refreshPort (l / 16)).watchClear else s
    else if 1 < t.cls then s
    else match t.done with
      | some pass => (if pass then s.clusterReturns c active false else s.clusterRetires c active).watchClear
      | none =>
        if t.subs = 0 then
          if !s.watchMay t.cls t.target then s.watchClear
          else { s.clusterTakes c active with wch := { s.wch with test := some { t with subs := 1 } } }
        else match if active then s.watchRealFault c else none with
          | some k =>
            ((((s.setRole k 2 false).setUnit (pgSPC k) uRETIRED).clusterReturns c true true).onBase (·.raise pgSPR 18)).watchClear
          | none => { s with wch := { s.wch with test := some { t with subs := t.subs + 1 } } }

/-- A failure: TEST_FAIL with the class, the page or frame, and J; REPAIR when a spare takes over. -/
def State.watchFails (s : State) (cls target : Nat) (repair : Bool) : State :=
  let s1 := s.onBase (fun b =>
    let b1 := ((b.count Reg.wchFail_COUNT 1).fault pgWCH 1 ([BitVec.ofNat 8 cls, 0] ++ leBytes 2 target ++ leBytes 4 s.j)).raise pgWCH 16
    if repair then b1.raise pgWCH 17 else b1)
  if repair then { s1 with wch := { s1.wch with repairAt := some s.base.ticks } } else s1

/-- What a verdict does to the unit under test. -/
def State.watchVerdict (s : State) (t : WatchTest) (pass : Bool) : State :=
  let c := t.target - 0x110
  match t.cls with
  | 2 => (s.setUnit t.target (if pass then uREADY else uRETIRED)).watchClear
  | 3 =>
    let l := t.target - 0x050
    let s1 := (s.setUnit t.target uREADY).watchLoop l false
    ((if pass then s1 else s1.setLane l { s1.lane l with dead := true }).refreshPort (l / 16)).watchClear
  | 6 =>
    if pass then s.watchClear
    else (({ s with wch := { s.wch with gone := setInsert s.wch.gone t.target } } : State)).watchClear
  | _ =>
    let s1 := if pass then s else s.clusterFails c
    { s1 with wch := { s1.wch with test := some { t with done := some pass } } }

/-- What the Watch reads: a spare frame under its march, or the references of the Dome test pages (R557). -/
def WatchTest.reads (t : WatchTest) (w : Nat) : Bool :=
  if t.cls = 6 then w / 131072 == t.target else decide (61440 ≤ w / 131072 ∧ w / 131072 < 64512)

/-- The words of a march that the error code names, each read once and recorded for reader 6 (R289); a spare frame leaves its pool by the verdict and is not retired. -/
def State.watchReads (s : State) (t : WatchTest) (ecc : Ecc) : State :=
  (((ecc.ce ++ ecc.ue).map (· / 16)).dedup.filter t.reads).foldl (State.noteWord 6 ecc) s

/-- The verdict that follows from a march: for a spare frame any finding is a failure (Table 20.8); for another class an uncorrectable reference is bad (R560). -/
def WatchTest.verdictOf (t : WatchTest) : WatchVerdict → WatchVerdict
  | .march ecc =>
    if t.cls = 6 then (if ((ecc.ce ++ ecc.ue).map (· / 16)).any t.reads then .fail else .pass)
    else if (ecc.ue.map (· / 16)).any t.reads then .referenceBad else .pass
  | v => v

/-- A test has been held long enough: a cluster's for its second subframe, a spare lane's for 40 ms (25,000,000 device ticks); class 4 ends with its retraining. -/
def State.watchHeldOut (s : State) (t : WatchTest) : Bool :=
  t.cls != 4 && !(decide (t.cls < 2) && decide (t.subs < 2)) && !(t.cls == 3 && decide (s.base.ticks < t.at_ + 25000000))

/-- WATCH_TEST_END: a running test that has been held long enough ends. -/
def State.watchEndRow (s : State) (v : WatchVerdict) : State :=
  match s.wch.test with
  | none => s
  | some t =>
    if !t.runs || t.done.isSome || !s.watchHeldOut t then s
    else
      let s1 := match v with | .march ecc => s.watchReads t ecc | _ => s
      match t.verdictOf v with
      | .referenceBad => (s1.onBase (·.fault pgWCH 2 [BitVec.ofNat 8 t.cls])).watchVerdict t true
      | .fail => (s1.watchFails t.cls t.target (t.cls == 0)).watchVerdict t false
      | _ => (s1.onBase (·.count Reg.wchPass_COUNT 1)).watchVerdict t true

/-- A warm reset abandons a test without a verdict (Table 20.9), and a sweep: SWEEP reads 0 (Table 20.13). -/
def State.watchAbandon (s : State) : State :=
  let s0 : State := { s with bcn := { s.bcn with watch := none }, spr := { s.spr with sweep := if s.spr.sweep = 1 then 4 else s.spr.sweep } }
  match s0.wch.test with
  | none => s0.watchState
  | some t =>
    if !t.runs || t.cls = 4 then s0.watchClear
    else if t.cls < 2 then
      if t.subs = 0 then s0.watchClear
      else ({ s0 with wch := { s0.wch with test := some { t with done := some (t.done.getD true) } } } : State).release ridWatch 0
    else (s0.watchVerdict t true)

/-- The Watch is released after a warm reset: an abandoned sweep begins anew, since the array is FAULT until one ends (DESIGN CHOICE, log 31). -/
def State.watchReleased (s : State) : State := ({ s with spr := { s.spr with sweep := if s.spr.sweep = 4 then 1 else s.spr.sweep } } : State).watchState

/-- SWEEP_DONE: every active cluster has been tested after the array became FAULT; failed ones become FAULT, and the next subframe start repairs them where a spare is left (R178 to R180). -/
def State.sweepDoneRow (s : State) (failed : List Nat) : State :=
  if s.spr.sweep != 1 || s.base.ownState pgWCH == uNOCLOCK || s.base.ownState pgWCH == uOFF then s
  else
    let bad := failed.dedup.filter (fun c => s.renders c)
    let repaired (c : Nat) : Bool := (s.readySpare (c / 17)).isSome && bad.find? (fun k => k / 17 == c / 17) == some c
    let one (x : State) (c : Nat) : State :=
      ((x.onBase (·.fault (pgSPC c) 3 (spanDetail 0xFFFF 0xFFFF 0xFF (s.j % 8)))).clusterFault c).watchFails 0 (pgSPC c) (repaired c)
    let s1 := bad.foldl one s
    ({ s1 with spr := { s1.spr with sweep := if bad.isEmpty then 2 else 3 } } : State).watchState.onBase (·.raise pgWCH 18)

end Sys2Proof.Machine
end

