-- ==== Sys2Proof/Machine/PowerUnit.lean ====
section
/-! DEFINITION. Power, reset and clocks (chapter 18): rail monitors, the dark sequence, the cold release with its steps, the warm reset, the watchdog, clock losses, and RESET_OUT_N. -/

namespace Sys2Proof.Machine

abbrev pgPWR : Nat := 0x005
abbrev pgRST : Nat := 0x006
abbrev pgCLK : Nat := 0x007
abbrev pgTHM : Nat := 0x008
abbrev pgADM : Nat := 0x004
abbrev pgHLM : Nat := 0x001
abbrev pgKEP : Nat := 0x002

/-! ## Rails (R487 to R491) -/

/-- Warning, reset and over-voltage levels in mV (Table 18.1). -/
def railWarnLevel (r : Nat) : Nat := [665, 712, 997, 1710, 855, 1140, 1710, 807].getD r 0
def railResetAt (r : Nat) : Nat := [630, 675, 945, 1620, 810, 1080, 1620, 765].getD r 0
def railOvLevel (r : Nat) : Nat := [735, 787, 1102, 1890, 945, 1260, 1890, 892].getD r 0

/-- A rail is in warning. -/
def State.inWarning (s : State) (r : Nat) : Bool := (s.base.get Reg.pwrStatus_RAILS).testBit r

/-- A sample of a rail: NOW, MIN since MIN_RESET, and the minimum of the warning in progress. -/
def State.railSample (r : Nat) (s : State) (mv : Nat) : State :=
  s.onBase (fun b =>
    let first := b.word (Reg.pwrRail r) == 0
    let b1 := (b.put (Reg.pwrRail_NOW r) mv).put (Reg.pwrRail_MIN r) (if first then mv else min (b.get (Reg.pwrRail_MIN r)) mv)
    if (b.get Reg.pwrStatus_RAILS).testBit r && b.get Reg.pwrWarnLast_RAIL == r then b1.put Reg.pwrWarnLast_MIN (min (b.get Reg.pwrWarnLast_MIN) mv) else b1)

/-- WARN: two samples in a row at or below the warning level. -/
def State.railWarnRow (s : State) (r m1 m2 : Nat) : State :=
  if railWarnLevel r < m1 || railWarnLevel r < m2 then s
  else
    let s1 := [m1, m2].foldl (State.railSample r) s
    if s.inWarning r then s1
    else
      let blocked := s.blocked
      let s2 := s1.onBase (fun b =>
        let b1 := ((b.put Reg.pwrStatus_RAILS (b.get Reg.pwrStatus_RAILS + 2 ^ r)).putFlag Reg.pwrStatus_WARN true).putFlag Reg.pwrStatus_HOLDOFF false
        let b2 := ((b1.put Reg.pwrWarnLast_RAIL r).put Reg.pwrWarnLast_MIN (min m1 m2)).put Reg.pwrWarnTime_TIME b.now
        let b3 := ((b2.put Reg.pwrWarnDur_NS 0).count Reg.pwrWarns_COUNT 1).raise pgPWR 16
        if blocked then b3 else b3.raise pgADM 16)
      { s2 with pwr := { s2.pwr with warnAt := sput (fun _ => 0) s2.pwr.warnAt r s.base.ticks, holdoff := none } }

/-- RECOVER: two samples in a row above the warning level; after the last rail, grants stay held for 1 ms. -/
def State.railRecoverRow (s : State) (r m1 m2 : Nat) : State :=
  if m1 ≤ railWarnLevel r || m2 ≤ railWarnLevel r then s
  else
    let s1 := [m1, m2].foldl (State.railSample r) s
    if !s.inWarning r then s1
    else
      let left := s.base.get Reg.pwrStatus_RAILS - 2 ^ r
      let ns := (s.base.ticks - sget (fun _ => 0) s.pwr.warnAt r) * 16 / 10
      let s2 := s1.onBase (fun b =>
        let b1 := b.put Reg.pwrStatus_RAILS left
        let b2 := if b.get Reg.pwrWarnLast_RAIL = r then b1.put Reg.pwrWarnDur_NS (min (2 ^ 32 - 1) ns) else b1
        (if left = 0 then (b2.putFlag Reg.pwrStatus_WARN false).putFlag Reg.pwrStatus_HOLDOFF true else b2).raise pgPWR 17)
      { s2 with pwr := { s2.pwr with
          warnAt := sput (fun _ => 0) s2.pwr.warnAt r 0, holdoff := if left = 0 then some (s.base.ticks + 625000) else none } }

/-- HOLDOFF_END. -/
def State.holdoffEndRow (s : State) : State :=
  match s.pwr.holdoff with
  | none => s
  | some t => if s.base.ticks < t then s else ({ s with pwr := { s.pwr with holdoff := none } } : State).onBase (·.putFlag Reg.pwrStatus_HOLDOFF false)

/-- OVERVOLT: OV and FAULT while it lasts; the fault is logged at most once per second. -/
def State.overvoltRow (s : State) (r mv : Nat) : State :=
  if mv < railOvLevel r then s
  else
    let s1 := s.railSample r mv
    let onset := !s.pwr.ovs.contains r
    let log := match s.pwr.ovAt with | none => true | some t => decide (t + secTicks ≤ s.base.ticks)
    let s2 : State := { s1 with pwr := { s1.pwr with ovs := setInsert s1.pwr.ovs r, ovAt := if log then some s.base.ticks else s1.pwr.ovAt } }
    s2.onBase (fun b =>
      let b1 := if onset then b.raise pgPWR 18 else b
      let b2 := if log then b1.fault pgPWR 1 (leBytes 1 r ++ [0] ++ leBytes 2 mv) else b1
      (b2.putFlag Reg.pwrStatus_OV true).setOwn pgPWR uFAULT)

/-- OVERVOLT_CLEAR. -/
def State.overvoltClearRow (s : State) (r mv : Nat) : State :=
  if railOvLevel r ≤ mv || !s.pwr.ovs.contains r then s
  else
    let left := setErase s.pwr.ovs r
    let s1 : State := { s.railSample r mv with pwr := { s.pwr with ovs := left } }
    if left.isEmpty then s1.onBase (fun b => (b.putFlag Reg.pwrStatus_OV false).setOwn pgPWR uBUSY) else s1

/-- VHOLD_LOW: a sample of VHOLD while the device runs. -/
def State.vholdRow (s : State) (mv : Nat) : State :=
  if s.pwr.held || s.pwr.dark.isSome then s
  else
    let low := decide (mv ≤ 11000)
    let was := s.base.flag Reg.pwrStatus_VHOLD_LOW
    (s.railSample 8 mv).onBase (fun b =>
      let b1 := b.putFlag Reg.pwrStatus_VHOLD_LOW low
      if low && !was then (b1.raise pgPWR 19).fault pgPWR 2 ([0, 0] ++ leBytes 2 mv) else b1)

/-- MIN_RESET. -/
def State.pwrCtrlWrite (s : State) (a : RegWr) : State :=
  s.write Reg.pwrCtrl a (fun act _ _ x =>
    if act.testBit 0 then x.onBase (fun b => (List.range 10).foldl (fun (b : Base) r => b.put (Reg.pwrRail_MIN r) (b.get (Reg.pwrRail_NOW r))) b) else x)

/-! ## Firmware and warm resets (R548, R553) -/

/-- A trial that ends without FW_CONFIRM: its slot is INVALID, and the next boot falls back (causes 0 warm reset, 1 watchdog, 2 dark sequence or cold reset). -/
def State.trialEnds (s : State) (cause : Nat) : State :=
  match (List.range 2).find? (fun k => s.slotState k == 2) with
  | none => s
  | some k => ({ s with hlm := { s.hlm with fell := true } } : State).onBase (fun b => (b.put (Reg.hlmSlot_STATE k) 5).fault pgHLM 2 (leBytes 1 k ++ leBytes 1 cause))

/-- Helm stops: firmware no longer runs, the Sextant loses its steering, the time port's Helm is gone, the annunciator bit 0 clears (R418, R550, R551). -/
def State.helmStops (s : State) : State :=
  let s1 := (s.onBase (fun b => (b.put Reg.hlmStatus_STATE 0).putFlag Reg.ethStatus_HELM false)).setUnit pgHLM uREADY
  let s2 := s1.onBase (fun b => b.setWord Reg.blfFwVal (b.word Reg.blfFwVal &&& 0xFFFFFFFE))
  s2.holdover

/-! ## The dark sequence (R510, R529) -/

/-- RESET_OUT_N. -/
def State.resetOutPin (s : State) (level : Bool) : State :=
  if s.pwr.resetOut = level then s
  else ({ s with pwr := { s.pwr with resetOut := level } } : State).onBase (·.emit (.pin "RESET_OUT_N" level))

/-- The dark sequence starts, unless one runs or cold reset is held: the code that RST_CAUSE takes (none: thermal shutdown of a zone). -/
def State.darkStart (s : State) (cause : Option Nat) (zone : Nat) : State :=
  if s.pwr.dark.isSome || s.pwr.held then s
  else
    let code := if cause.isNone then 1 else 0
    let s1 : State := { s with pwr := { s.pwr with dark := some ⟨s.base.ticks, cause, zone⟩, outAt := none, warm := none } }
    let s2 := (s1.resetOutPin false).onBase (fun b => match cause with | some c => b.put Reg.rstCause_COLD c | none => b)
    let s3 := (({ s2.beaconLow with pnl := { s2.beaconLow.pnl with linkDark := some code, resume := false } } : State).sendLinkDark code).belfryDark
    let s4 := if s3.parState = 0 then s3 else (s3.sendDown code).pairStop
    let s5 : State := { s4 with sco := { s4.sco with armed := false, running := false } }
    let s6 := (List.range 4).foldl (fun (x : State) h => (x.mbxAbort h).onBase (·.linkDown h)) s5.ethDown
    ((s6.trialEnds 2).calAbort).helmStops

/-- Registers that outlive a cold reset: the always-on island (R505), firmware slots, Keep and fuses. -/
def survives (key : Nat) : Bool :=
  let p := key / 4096
  decide (4 ≤ p ∧ p ≤ 8) || key == Reg.hlmSlot 0 || key == Reg.hlmSlot 1 || key == Reg.hlmSlotVer 0 || key == Reg.hlmSlotVer 1
    || key == Reg.kepState || key == Reg.kepSvn || key == Reg.kepSubsys

/-- The device held in cold reset: every unit but the always-on island at its cold state; stored firmware and the provisioning record stay. -/
def State.coldState (s : State) : State :=
  { State.reset with
    pending := s.pending
    base := { Base.reset with
      regs := s.base.regs.filter (fun e => survives e.1), ticks := s.base.ticks, out := s.base.out, fresh := s.base.fresh
      own := s.base.own.filter (fun e => decide (4 ≤ e.1 ∧ e.1 ≤ 8)), nhosts := s.base.nhosts, owner := s.base.owner }
    pwr := { s.pwr with
      dark := none, held := true, stepAt := s.base.ticks, goodAt := s.base.ticks, outAt := none, warm := none, meas := none, noclk := [] }
    thm := s.thm
    hlm := { s.hlm with busy := [], fwAt := 0, warm := false, linkAt := none } }

/-- A cold reset re-tests every sensor: a failed one is judged anew by the next sample (R523). -/
def State.sensorsRetest (s : State) : State :=
  s.onBase (fun b => (List.range 64).foldl (fun (b : Base) n => if b.flag (Reg.thmSensor_FAILED n) then b.setWord (Reg.thmSensor n) 0 else b) b)

/-- DARK_SEQUENCE_END: at 250 µs (156,250 device ticks) everything but the always-on island is off; a thermal shutdown latches. -/
def State.darkEndRow (s : State) : State :=
  match s.pwr.dark with
  | none => s
  | some d =>
    if s.base.ticks < d.at_ + 156250 then s
    else
      (s.coldState.sensorsRetest).onBase (fun b =>
        let b1 := (((List.range 7).foldl (fun (b : Base) k => b.setWord (Reg.clkGood k) 0) b).setWord Reg.rstStep 0).setWord Reg.rstWdogKick 0
        match d.cause with
        | some _ => b1.count Reg.rstCount_COLD 1
        | none => (b1.putFlag Reg.thmLatch_LATCH true).put Reg.thmLatch_ZONE d.zone)

/-- A condition of R513 fails, or begins to hold again: the 10 ms count anew. -/
def State.goodAgain (s : State) : State := { s with pwr := { s.pwr with goodAt := s.base.ticks } }

/-- RAIL_RESET_LEVEL: four samples in a row at or below the reset level. -/
def State.railResetRow (s : State) (r : Nat) (ms : List Nat) : State :=
  if ms.any (fun m => decide (railResetAt r < m)) then s
  else ((ms.foldl (State.railSample r) s).goodAgain).darkStart (some 3) 0

/-- VIN_TRIGGER: two samples in a row at or below 10.8 V. -/
def State.vinRow (s : State) (m1 m2 : Nat) : State :=
  if 10800 < m1 || 10800 < m2 then s else (([m1, m2].foldl (State.railSample 9) s).goodAgain).darkStart (some 5) 0

/-- PWRFAIL_N. -/
def State.pwrfailRow (s : State) (level : Bool) : State :=
  let s1 := ({ s with pwr := { s.pwr with pwrfail := level } } : State).goodAgain
  if level then s1 else s1.darkStart (some 4) 0

/-- RESET_N, low for 1 µs or high again. -/
def State.resetNRow (s : State) (level : Bool) : State :=
  let s1 := ({ s with pwr := { s.pwr with resetN := level } } : State).goodAgain
  if level then s1 else s1.darkStart (some 2) 0

/-- POR_N. -/
def State.porRow (s : State) (level : Bool) : State :=
  let s1 := ({ s with pwr := { s.pwr with por := level } } : State).goodAgain
  if level then s1 else s1.darkStart (some 1) 0

/-- REF_LOST: no REFCLK edge for 1 µs. -/
def State.refLostRow (s : State) : State :=
  if !s.base.flag Reg.clkStatus_REF_OK then s
  else ((s.onBase (fun b => (((b.putFlag Reg.clkStatus_REF_OK false).putFlag Reg.clkStatus_OSC true).count Reg.clkLoss_COUNT 1).raise pgCLK 16)).goodAgain).darkStart (some 6) 0

/-! ## The cold release (R439, R441, R505, R540) -/

/-- The clock-good of a domain. -/
def clkGoodBit (d : Nat) : FieldRef := ⟨Reg.clkGood (d / 32), d % 32, d % 32⟩

/-- The provisioning record as 16 bytes; 16 zero bytes when none is in force. -/
def State.recordBytes (s : State) : List Byte := s.hlm.record.getD (List.replicate 16 0)

/-- Writes a measurement register. -/
def State.setMr (s : State) (m : Nat) (bs : List Byte) : State :=
  s.onBase (fun b => (List.range 16).foldl (fun (b : Base) w => b.setWord (Reg.kepMr m w) (BitVec.ofNat 32 (leAt bs (4 * w) 4))) b)

/-- A measurement register as 64 bytes. -/
def State.mr (s : State) (m : Nat) : List Byte := (List.range 16).flatMap (fun w => leBytes 4 (s.base.word (Reg.kepMr m w)).toNat)

/-- The RESERVEs of the hosts present (Table 4.7). -/
def Base.reserves (b : Base) (n : Nat) : Base :=
  (List.range n).foldl (fun (b : Base) h =>
    [0, 1, 2, 4, 5].foldl (fun (b : Base) r => b.put (reserveOf h r) (quotaTotal r / n)) (b.put (reserveOf h 3) 256)) b

/-- KEP registers follow the record in force. -/
def State.keepRegs (s : State) : State :=
  s.onBase (fun b =>
    let r := s.recordBytes
    let has := s.hlm.record.isSome
    let b1 := ((b.putFlag Reg.kepState_PROVISIONED has).putFlag Reg.kepState_PENDING s.hlm.change.isSome).putFlag Reg.kepState_JTAG_LOCKED
      (has || (match s.hlm.change with | some (some _) => true | _ => false))
    let b2 := (b1.put Reg.kepState_OWNER b.owner).put Reg.kepState_BIFUR (if has then leAt r 1 1 else 3)
    if has then (b2.put Reg.kepSubsys_SUBSYS_VID (leAt r 2 2)).put Reg.kepSubsys_SUBSYS_ID (leAt r 4 2) else b2.setWord Reg.kepSubsys (coldWord Reg.kepSubsys))

/-- UNIT_OWNER of the shared pages holds the owner host's bit alone (R45); the always-on pages, which no cold reset clears, take it when the owner changes. -/
def Base.ownerBits (b : Base) (owner : Nat) : Base :=
  let shared := (0 :: below 5 0).filter (fun p => (pageHost p).isNone && (owner != b.owner || !decide (4 ≤ p ∧ p ≤ 8)))
  shared.foldl (fun (x : Base) p => x.put ⟨hdr p 0x2C, 3, 0⟩ (2 ^ owner)) { b with owner := owner }

/-- COLD_RELEASE: after 10 ms of good conditions, step 0: straps, the pending record, bifurcation, owner, reserves, the calibration unit; no clock-good is lost yet (R516). -/
def State.coldReleaseRow (s : State) (strap addr : Nat) : State :=
  let p := s.pwr
  if !p.held || p.dark.isSome || s.base.flag Reg.thmLatch_LATCH || !p.por || !p.resetN || !p.pwrfail || decide (s.base.ticks < p.goodAt + 6250000) then s
  else
    let rec_ := match s.hlm.change with | some c => c | none => s.hlm.record
    let bifur := match rec_ with | some r => leAt r 1 1 | none => strap
    let n := match bifur with | 1 => 2 | 2 => 4 | _ => 1
    let want := match rec_ with | some r => leAt r 0 1 | none => 0
    let owner := if want < n then want else 0
    let s1 : State := { s with
      pwr := { p with vaon := true, held := false, stepAt := s.base.ticks, sbAddr := addr, noclk := [] }
      hlm := { s.hlm with record := rec_, change := none }
      cal := ⟨none, [], [], [], 0⟩
      pnl := { s.pnl with noTemp := some s.base.ticks }
      base := { s.base.ownerBits owner with nhosts := n, wire := { s.base.wire with since := some s.base.ticks } } }
    let s2 := s1.onBase (fun b =>
      let b1 := ((b.putFlag Reg.clkStatus_REF_OK true).putFlag Reg.clkStatus_OSC false).putFlag (clkGoodBit 0) true
      (((b1.startOwn pgCAL uREADY).setOwn pgCLK uBUSY).put Reg.dirSelf_BIFUR (match n with | 2 => 1 | 4 => 2 | _ => 0)).reserves n)
    let s3 := s2.keepRegs
    if want < n then s3 else s3.onBase (·.fault 0x010 3 [])

/-- The lanes of host h (Table 16.2). -/
def State.hostLanes (s : State) (h : Nat) : List Nat := (List.range (16 / s.base.nhosts)).map (· + 16 / s.base.nhosts * h)

/-- The units that a step releases, with the clock domains each needs (Table 18.7, Table 18.5). -/
def State.stepUnits (s : State) (step : Nat) : List (Nat × List Nat) :=
  let hs := List.range s.base.nhosts
  match step with
  | 2 => [(0, [3]), (pgKEP, [8])]
  | 3 => [(pgSXT, [2]), (pgSCO, [141, 142, 143, 144, 145]), (pgCMP, [146]), (pgFRS, [147])]
  | 4 => (pgDOM, []) :: (List.range 8).map (fun k => (pgSTK k, [125 + k, 133 + k]))
  | 5 => (pgSPR, [10]) :: (List.range 4).map (fun q => (pgSPQ q, [11 + q])) ++ (List.range 68).map (fun c => (pgSPC c, [15 + c]))
      ++ (pgCDC, [83]) :: (List.range 16).map (fun e => (pgENG e, [84 + e])) ++ hs.flatMap (fun h => [(pgCMD h, [100 + h]), (pgTXN h, [100 + h]), (pgTWD h, [100 + h])])
  | 6 => (pgPNL, []) :: (List.range 2).map (fun p => (pgPRT p, [148 + p])) ++ (List.range 36).map (fun l => (pgLNK l, [150 + l]))
      ++ (pgPAR, [186]) :: (List.range 8).map (fun k => (pgLNK (36 + k), [187 + k]))
      ++ [(pgETH, [195, 196]), (pgBCN, [197])] ++ (List.range 12).map (fun z => (pgZON z, [198 + z])) ++ [(pgBLF, [210]), (pgCAL, [211])]
  | 7 => hs.map (fun h => (pgHST h, (104 + h) :: (s.hostLanes h).map (· + 108)))
  | 8 => [(pgHLM, [4, 5, 6, 7]), (pgWCH, [9])]
  | _ => []

/-- Gap and timeout of a step in always-on ticks; step 1 has no timeout. -/
def stepGap (step : Nat) : Nat := match step with | 1 => 16 | 4 => 256 | _ => 64
def stepTimeout (step : Nat) : Nat := match step with | 4 => 31250 | _ => 15625

/-- The own state that a released unit takes; pages whose ENABLE is 0 stay OFF, and host links stay OFF until they come up. -/
def releasedState (p : Nat) : Option Nat :=
  if p = pgSXT ∨ p = pgSCO ∨ p = pgFRS ∨ (0x020 ≤ p ∧ p < 0x029) then some uBUSY
  else if p = 0 ∨ (0x010 ≤ p ∧ p < 0x014) ∨ (0x049 ≤ p ∧ p < 0x07C) ∨ p = pgPAR ∨ p = pgETH ∨ (0x080 ≤ p ∧ p ≤ 0x090) then none
  else some uREADY

/-- Releases one unit, unless a clock it needs has been given up; Helm runs on the cores it has (R550). -/
def State.releaseUnit (s : State) (u : Nat × List Nat) : State :=
  let lost (d : Nat) : Bool := s.pwr.noclk.contains d
  if u.2.any lost && (u.1 != pgHLM || u.2.all lost) then s
  else match releasedState u.1 with
    | some st => s.onBase (·.startOwn u.1 st)
    | none => s

/-- A cluster without a clock is not dispatched; its quadrant's spare takes its place (Table 18.7). -/
def State.clusterAbsent (s : State) (c : Nat) : State :=
  if s.base.ownState (pgSPC c) != uNOCLOCK then s
  else
    let active := s.base.get (Reg.spcRole_ROLE c) == 0
    let s1 := s.setRole c 3 false
    if !active then s1.onBase (·.putFlag (Reg.spqSpare_VALID (c / 17)) false)
    else match s1.readySpare (c / 17) with
      | some sp => (s1.setRole sp 0 true).onBase (·.putFlag (Reg.spqSpare_VALID (c / 17)) false)
      | none => s1

/-- What a step does besides releasing its units. -/
def State.stepExtra (s : State) (step : Nat) : State :=
  let clear (d : Nat) : Bool := !s.pwr.noclk.contains d
  match step with
  | 2 => s.setMr 0 (sha3 (Config.romDigest ++ s.recordBytes))
  | 3 =>
    let s1 : State := { s with guard := { s.guard with lastAt := s.base.ticks, sxtAt := s.base.ticks } }
    if [2, 141, 142, 143, 144, 145].all clear then s1.armTimeline else s1
  | 5 =>
    let s1 := (List.range 68).foldl (fun (x : State) c => (List.range 4).foldl (fun (y : State) k => y.onBase (·.startOwn (pgSPE c k)
      (if y.base.ownState (pgSPC c) = uNOCLOCK then uNOCLOCK else uREADY))) x) s
    ((List.range 68).foldl State.clusterAbsent s1).refreshBudget
  | 6 => (List.range 8).foldl (fun (x : State) k => x.refreshLane (36 + k)) ((s.refreshPort 0).refreshPort 1)
  | 8 =>
    let cores := (List.range 4).foldl (fun a k => if clear (4 + k) then a + 2 ^ k else a) 0
    let s1 := if cores = 0 then s else s.onBase (fun b => (b.put Reg.hlmStatus_CORES cores).put Reg.hlmStatus_STATE 1)
    { s1 with
      pwr := { s1.pwr with outAt := some (s.base.ticks + 6250000), wdogAt := s.base.ticks }
      wch := { s1.wch with last := (List.range 7).map (fun c => (c, s.base.ticks)) |>.filter (fun e => e.2 != 0) } }
  | _ => s

/-- RELEASE_STEP: after its gap, with every clock-good it needs arrived or given up, the next step releases its units. -/
def State.releaseStepRow (s : State) (good : Nat) : State :=
  let k := s.base.get Reg.rstStep_STEP + 1
  let need := ((s.stepUnits k).flatMap (·.2)).dedup
  if s.pwr.held || s.pwr.dark.isSome || s.base.flag Reg.rstStep_HALTED || decide (8 < k) || decide (s.base.ticks < s.pwr.stepAt + 4 * stepGap k)
    || !need.all (fun d => good.testBit d || s.pwr.noclk.contains d) then s
  else
    let s1 := s.onBase (fun b => (need.filter (fun d => good.testBit d && !s.pwr.noclk.contains d)).foldl (fun (b : Base) d => b.putFlag (clkGoodBit d) true) (b.put Reg.rstStep_STEP k))
    let s2 : State := { s1 with pwr := { s1.pwr with stepAt := s.base.ticks } }
    ((s2.stepUnits k).foldl State.releaseUnit s2).stepExtra k

/-- NO_CLOCK: at the timeout of the step in progress, a unit whose clock-good is missing stays in reset. -/
def State.noClockRow (s : State) (p d : Nat) : State :=
  let k := s.base.get Reg.rstStep_STEP + 1
  let due := decide (s.pwr.stepAt + 4 * (stepGap k + stepTimeout k) ≤ s.base.ticks)
  if s.pwr.held || s.pwr.dark.isSome || s.base.flag Reg.rstStep_HALTED || decide (8 < k) || decide (k = 1) || !due || s.pwr.noclk.contains d
    || !(s.stepUnits k).any (fun u => u.1 == p && u.2.contains d) then s
  else
    let s1 : State := { s with pwr := { s.pwr with noclk := setInsert s.pwr.noclk d } }
    let whole := p != pgHLM || [4, 5, 6, 7].all s1.pwr.noclk.contains
    let again := s.base.ownState p == uNOCLOCK
    let s2 := s1.onBase (fun b =>
      let b1 := if again then b else (b.fault pgRST 1 (leBytes 2 p ++ leBytes 1 d ++ leBytes 1 k)).raise pgRST 17
      if again || !whole then b1 else (b1.count Reg.rstStep_NOCLK 1).setOwn p uNOCLOCK)
    if k = 2 then s2.onBase (·.putFlag Reg.rstStep_HALTED true)
    else if k = 4 then s2.stackDownRow (p - 0x021) else s2

/-- RESET_OUT_RELEASE. -/
def State.resetOutRow (s : State) : State :=
  match s.pwr.outAt with
  | none => s
  | some t => if s.base.ticks < t || s.pwr.held || s.pwr.dark.isSome then s else ({ s with pwr := { s.pwr with outAt := none } } : State).resetOutPin true

/-! ## Warm resets (R502, R504, R508, R509) -/

/-- Warm resets of the last 10 s. -/
def State.warms10 (s : State) : List Nat := s.pwr.warms.filter (fun t => decide (s.base.ticks < t + 10 * secTicks))

/-- The Warm column of every register (R34). -/
def Base.warmValues (b : Base) : Base :=
  b.regs.foldl (fun (b : Base) e =>
    match descAt (e.1 % 2 ^ 22) with
    | none => b
    | some d => d.flds.foldl (fun (b : Base) f => match f.warm with | .val v => b.put ⟨e.1, f.msb, f.lsb⟩ v | _ => b) b) b

/-- A codec, host or 2D page that had failed works again after the reset of its unit. -/
def State.unitsBack (s : State) : State :=
  let ps := pgCDC :: (List.range 16).map (fun e => pgENG e) ++ (List.range s.base.nhosts).flatMap (fun h => [pgCMD h, pgTXN h, pgTWD h])
  ps.foldl (fun (x : State) p => if x.base.ownState p == uFAULT then x.setUnit p uREADY else x) s

/-- A warm reset (1 WARM_N, 2 owner host, 3 watchdog): merged into one in progress, and not before the cold release has ended. -/
def State.startWarm (s : State) (cause : Nat) : State :=
  if s.pwr.held || s.pwr.dark.isSome || s.pwr.warm.isSome || decide (s.base.get Reg.rstStep_STEP < 8) then s
  else
    let s1 : State := { s with pwr := { s.pwr with warm := some s.base.ticks, warms := s.base.ticks :: s.warms10 } }
    let s2 := s1.onBase (fun b => (b.warmValues.put Reg.rstCause_WARM cause).count Reg.rstCount_WARM 1)
    let s3 := if s2.base.flag Reg.rstCtrl_OUT_ON_WARM then ({ s2 with pwr := { s2.pwr with outAt := none } } : State).resetOutPin false else s2
    let s4 := (List.range s3.base.nhosts).foldl (fun (x : State) h => (x.linkReset h 5).setDoe h ⟨true⟩) s3
    let s5 := ((s4.trialEnds (if cause = 3 then 1 else 0)).calAbort).watchAbandon
    let s6 := ((s5.dropDecodes (fun _ => true)).lanesWarm).helmStops
    let s7 : State := { s6 with codec := { s6.codec with engines := [], credit := [] } }
    let s8 := [0, 1, 2, 3, 4, 5, 6, 7, 8, 9, 10, 11, 12, 13, 14, 15, 16, 20, 21, 22, 23, 34, 35].foldl State.releaseAll s7
    let s9 := (List.range 16).foldl State.refreshEngine s8.unitsBack
    [1, 2, 3, 4, 5, 6, 7].foldl (fun (x : State) m => x.setMr m (List.replicate 64 0)) s9

/-- WARM_DONE: after 64 always-on ticks of hold and three gaps of 64. -/
def State.warmDoneRow (s : State) : State :=
  match s.pwr.warm with
  | none => s
  | some t =>
    if s.base.ticks < t + 1024 then s
    else
      let s1 : State := { s with
        pwr := { s.pwr with warm := none, wdogAt := s.base.ticks, outAt := if s.pwr.resetOut || s.pwr.outAt.isSome then s.pwr.outAt else some (s.base.ticks + 6250000) }
        hlm := { s.hlm with warm := true } }
      s1.watchReleased.onBase (fun b => (if b.ownState pgHLM = uNOCLOCK then b else (b.put Reg.hlmStatus_STATE 1).setOwn pgHLM uREADY).raise pgRST 16)

/-- WARM_N: a falling edge after at least 1 µs (625 device ticks) high. -/
def State.warmNRow (s : State) (level : Bool) : State :=
  let s1 : State := { s with pwr := { s.pwr with warmN := level, warmUp := if level && !s.pwr.warmN then s.base.ticks else s.pwr.warmUp } }
  if s.pwr.warmN && !level && decide (s.pwr.warmUp + 625 ≤ s.base.ticks) then s1.startWarm 1 else s1

/-- A write of RST_CTRL: WARM is the owner host's (R518). -/
def State.rstCtrlWrite (s : State) (a : RegWr) : State :=
  s.write Reg.rstCtrl a (fun act _ _ x =>
    if !act.testBit 0 then x
    else if a.host.toNat = x.base.owner then x.startWarm 2 else x.onBase (·.refuse a.host.toNat Reg.rstCtrl vNOTPERM a.val))

/-! ## The watchdog (R504, R550) -/

/-- Device ticks in a millisecond. -/
abbrev msTicks : Nat := 625000

/-- WDOG_EXPIRY: while firmware runs; the third warm reset within 10 s is a cold reset instead. -/
def State.wdogRow (s : State) : State :=
  if !s.base.flag Reg.rstWdog_EN || !s.helmRuns || s.pwr.warm.isSome || s.pwr.dark.isSome || s.pwr.held
    || decide (s.base.ticks < s.pwr.wdogAt + s.base.get Reg.rstWdog_TIMEOUT * msTicks) then s
  else if 2 ≤ s.warms10.length then s.darkStart (some 7) 0
  else (s.onBase (·.raise pgRST 18)).startWarm 3

/-- RST_WDOG_KICK: Helm's key restarts the watchdog; a host's write is refused. -/
def State.wdogKick (s : State) (by_ : Option Nat) (v : BitVec 32) : State :=
  match by_ with
  | some h => if s.base.visible h pgRST then s.onBase (·.refuse h Reg.rstWdogKick vNOTPERM v) else s
  | none => if v.toNat % 65536 = 0x6B6B ∧ s.helmRuns then { s with pwr := { s.pwr with wdogAt := s.base.ticks } } else s

/-! ## Clocks (R499, R519) -/

/-- The page of a clock domain's unit (Table 18.5). -/
def State.domainPage (s : State) (d : Nat) : Option Nat :=
  (((List.range 9).flatMap s.stepUnits).find? (fun u => u.2.contains d)).map (·.1) |>.orElse (fun _ => if d = 124 then some pgDOM else none)

/-- A unit whose clock has failed: its chapter says what goes on without it. -/
def State.clockFails (s : State) (p d : Nat) : State :=
  if 0x110 ≤ p ∧ p < 0x154 then (s.clusterFault (p - 0x110)).handOut ((p - 0x110) / 17)
  else if 0x031 ≤ p ∧ p < 0x041 then (if (s.engine (p - 0x031)).job.isSome then ((s.requeue (p - 0x031)).groupLeave).setUnit p uFAULT else s.setUnit p uFAULT)
  else if 0x021 ≤ p ∧ p < 0x029 then s.stackDownRow (p - 0x021)
  else if 0x050 ≤ p ∧ p < 0x070 then (if (s.port ((p - 0x050) / 16)).sends then s.loseLane ((p - 0x050) / 16) ((p - 0x050) % 16) 1 true
    else (s.setLane (p - 0x050) { s.lane (p - 0x050) with dead := true }).refreshLane (p - 0x050))
  else if 0x070 ≤ p ∧ p < 0x07C then ((s.setLane (p - 0x050) { s.lane (p - 0x050) with dead := true }).refreshLane (p - 0x050)).pairLanes
  else if p = pgHLM then
    let cores := s.base.get Reg.hlmStatus_CORES - (if (s.base.get Reg.hlmStatus_CORES).testBit (d - 4) then 2 ^ (d - 4) else 0)
    let s1 := s.onBase (·.put Reg.hlmStatus_CORES cores)
    if cores = 0 then (s1.helmStops).setUnit p uFAULT else s1
  else if p = pgSXT then (s.holdover).setUnit p uFAULT
  else if p = 0 then s
  else s.setUnit p uFAULT

/-- CG_LOST: a clock-good falls while its unit runs. -/
def State.cgLostRow (s : State) (d : Nat) : State :=
  if !s.base.flag (clkGoodBit d) then s
  else match s.domainPage d with
    | none => s
    | some p =>
      let s1 := s.onBase (fun b => ((((b.putFlag (clkGoodBit d) false).count Reg.clkLoss_COUNT 1).fault pgCLK 1 (leBytes 1 d ++ [0] ++ leBytes 2 p)).raise pgCLK 17).setOwn pgCLK uFAULT)
      s1.clockFails p d

/-- CLK_MEAS_SEL: a write starts a count. -/
def State.measWrite (s : State) (a : RegWr) : State :=
  s.write Reg.clkMeasSel a (fun _ _ _ x => ({ x with pwr := { x.pwr with meas := some x.base.ticks } } : State).onBase (·.putFlag Reg.clkMeas_VALID false))

/-- CLK_MEAS_DONE: 1 ms later. -/
def State.measDoneRow (s : State) (khz : Nat) : State :=
  match s.pwr.meas with
  | none => s
  | some t =>
    if s.base.ticks < t + msTicks then s
    else ({ s with pwr := { s.pwr with meas := none } } : State).onBase (fun b => (b.put Reg.clkMeas_KHZ khz).putFlag Reg.clkMeas_VALID true)

/-! ## SB_ALERT_N (R575) -/

/-- The level of SB_ALERT_N: driven low while the root's UNIT_STATE.WORST is FAULT or NO_CLOCK and while THM_LATCH is set, released otherwise. -/
def State.sbAlertN (s : State) : Bool :=
  let worst := bits (s.base.stateWord 0) 7 4
  !(worst == uFAULT || worst == uNOCLOCK || s.base.flag Reg.thmLatch_LATCH)

/-! ## Pin states (R514) -/

/-- The groups of pins of Table 18.10, and SB_ALERT_N. -/
inductive PinGroup where
  | beacon | belfry | panel (p : Nat) | pair | timePort | pcie (h : Nat) | gpio (n : Nat) | resetOut | alert
  deriving DecidableEq, Repr

/-- What the pins of a group do: unpowered, a level, at V0 or joined or in the waveform of a cycle, in electrical idle, training, sending LINK_DARK, high-impedance with their weak pulls, or following their unit. -/
inductive PinMode where
  | unpowered | low | high | v0 | joined | cycling | idle | training | linkDark | highZ | running
  deriving DecidableEq, Repr

/-- The pins of a group in the phase that the device is in (Table 18.10). -/
def State.pinMode (s : State) (g : PinGroup) : PinMode :=
  if s.pwr.off then .unpowered
  else
    let off := s.pwr.held || s.pwr.dark.isSome
    match g with
    | .beacon => if off || !s.base.enabled pgBCN then .low else .running
    | .belfry => (match s.blf.phase with | .off => .v0 | .joined => .joined | _ => .cycling)
    | .panel p => if s.pwr.held || !((s.port p).sends || (s.tail p).isSome) then .idle else if s.pnl.linkDark.isSome || (s.tail p).isSome then .linkDark else .running
    | .pair => if off || s.parState = 0 then .idle else .running
    | .timePort => if off || !s.base.enabled pgETH then .idle else .running
    | .pcie h => if (s.base.link h).up then .running else if off || s.pwr.warm.isSome || decide (s.base.nhosts ≤ h) || decide (s.base.get Reg.rstStep_STEP < 7) then .idle else .training
    | .gpio n => if s.base.get (Reg.gpioCfg_FUNC n) = 0 then .highZ else if s.ballLevel n then .high else .low
    | .resetOut => if s.pwr.resetOut then .high else .low
    | .alert => if s.sbAlertN then .highZ else .low

/-! ## ADM_BUDGET, VAON (R495, R512) -/

/-- VAON_REMOVED: the always-on island loses its state; fuses, firmware slots and the provisioning record stay. -/
def State.vaonRow (s : State) : State :=
  let keep (k : Nat) : Bool := k == Reg.hlmSlot 0 || k == Reg.hlmSlot 1 || k == Reg.hlmSlotVer 0 || k == Reg.hlmSlotVer 1 || k == Reg.kepState || k == Reg.kepSvn || k == Reg.kepSubsys
  let old := s.base.regs.filter (fun e => keep e.1)
  { State.reset with
    pending := s.pending
    base := { Base.reset with
      regs := old ++ Base.reset.regs.filter (fun e => !keep e.1), ticks := s.base.ticks, out := s.base.out, fresh := s.base.fresh }
    pwr := { State.reset.pwr with vaon := false, goodAt := s.base.ticks, resetN := s.pwr.resetN, warmN := s.pwr.warmN, warmUp := s.pwr.warmUp, pwrfail := s.pwr.pwrfail }
    hlm := { s.hlm with busy := [], fwAt := 0, warm := false, linkAt := none } }

end Sys2Proof.Machine
end

