-- ==== Sys2Proof/Machine/ThermalUnit.lean ====
section
/-! DEFINITION. The thermal monitor (R521 to R530, R536): samples, failed sensors, disagreement, the three levels of each zone, shutdown, thresholds. -/

namespace Sys2Proof.Machine

/-- A sensor has failed. -/
def State.sensorFailed (s : State) (n : Nat) : Bool := s.base.flag (Reg.thmSensor_FAILED n)

/-- A sensor's reading in 1/16 degree. -/
def State.sensorAt (s : State) (n : Nat) : Int := toSigned 16 (s.base.get (Reg.thmSensor_READING n))

/-- What a conversion gives: a reading in range, or the cause of the failure (0 open, 1 short, 2 timeout, 3 range: below −40 °C or above 150 °C). -/
def sampleOf (x : Sample) : Except Nat Nat :=
  match x with
  | .failed c => .error c.val
  | .reading t => if toSigned 16 t.toNat < -640 ∨ 2400 < toSigned 16 t.toNat then .error 3 else .ok t.toNat

/-- A sensor fails: 0x7FFF, fault SENSOR_FAIL. -/
def State.sensorFails (s : State) (n cause : Nat) : State :=
  s.onBase (fun b => ((b.setWord (Reg.thmSensor n) 0x80007FFF).fault pgTHM 1 (leBytes 1 n ++ leBytes 1 cause)).raise pgTHM 18)

/-- One sensor's sample: a failed sensor stays failed. -/
def State.takeSample (s : State) (p : Nat × Sample) : State :=
  if s.sensorFailed p.1 then s
  else match sampleOf p.2 with
    | .ok t => s.onBase (·.put (Reg.thmSensor_READING p.1) t)
    | .error c => s.sensorFails p.1 c

/-- Thresholds T_L1 to T_L3 of a zone in 1/16 degree. -/
def State.threshold (s : State) (z k : Nat) : Int :=
  let w := (s.base.word (if z < 24 then Reg.thmThrDie else Reg.thmThrStk)).toNat
  (bits w (8 * k - 1) (8 * k - 8) * 16 : Nat)

/-- The shutdown temperature of a zone in 1/16 degree (R528). -/
def shutdownAt (z : Nat) : Int := if z < 24 then 2000 else 1680

/-- A condition has held in `n` samples in a row, counted by key. -/
def countRun (m : Sparse Nat) (k : Nat) (c : Bool) (n : Nat) : Sparse Nat := sput (fun _ => 0) m k (if c then min n (sget (fun _ => 0) m k + 1) else 0)

/-- One level of a zone: entered after 8 samples with a sensor at the threshold, left after 8 with both 4 degrees below (R525). -/
def State.zoneLevel (s : State) (z k : Nat) : State :=
  let t := s.threshold z k
  let both := [2 * z, 2 * z + 1]
  let hot := both.any (fun n => s.sensorFailed n || decide (t ≤ s.sensorAt n))
  let cool := both.all (fun n => !s.sensorFailed n && decide (s.sensorAt n < t - 64))
  let key := 4 * z + k
  let rise := countRun s.thm.rise key hot 8
  let fall := countRun s.thm.fall key cool 8
  let lv := sget (fun _ => 0) s.thm.lv z
  let on := lv.testBit k
  let enters := !on && sget (fun _ => 0) rise key == 8
  let leaves := on && sget (fun _ => 0) fall key == 8
  let lv' := if enters then lv + 2 ^ k else if leaves then lv - 2 ^ k else lv
  let s1 : State := { s with thm := { s.thm with rise := rise, fall := fall, lv := sput (fun _ => 0) s.thm.lv z lv' } }
  if enters then s1.onBase (·.count Reg.thmLevelUps_COUNT 1) else s1

/-- The highest level of a zone. -/
def State.levelOf (s : State) (z : Nat) : Nat :=
  let lv := sget (fun _ => 0) s.thm.lv z
  if lv.testBit 3 then 3 else if lv.testBit 2 then 2 else if lv.testBit 1 then 1 else 0

/-- Disagreement of a zone's two valid readings (R524). -/
def State.zoneDisagree (s : State) (z : Nat) : State :=
  let a := 2 * z
  let c := a + 1
  let far := !s.sensorFailed a && !s.sensorFailed c && decide (128 < (s.sensorAt a - s.sensorAt c).natAbs)
  let dis := countRun s.thm.dis z far 9
  let s1 : State := { s with thm := { s.thm with dis := dis } }
  if sget (fun _ => 0) dis z != 8 then s1
  else
    let log := match s.thm.disAt with | none => true | some t => decide (t + secTicks ≤ s.base.ticks)
    let s2 := s1.onBase (·.raise pgTHM 19)
    if log then ({ s2 with thm := { s2.thm with disAt := some s.base.ticks } } : State).onBase (·.fault pgTHM 2 (leBytes 1 z)) else s2

/-- A zone after a sample: levels, disagreement, shutdown count, THM_ZONE. -/
def State.zoneSample (s : State) (z : Nat) : State :=
  let s1 := ([1, 2, 3].foldl (fun (x : State) k => x.zoneLevel z k) s).zoneDisagree z
  let fl := s.sensorFailed (2 * z)
  let fh := s.sensorFailed (2 * z + 1)
  let at_ (n : Nat) : Bool := !s.sensorFailed n && decide (shutdownAt z ≤ s.sensorAt n)
  let shut := countRun s1.thm.shut z ((fl && fh) || at_ (2 * z) || at_ (2 * z + 1)) 3
  let top := if s.sensorAt (2 * z) < s.sensorAt (2 * z + 1) then 2 * z + 1 else 2 * z
  ({ s1 with thm := { s1.thm with shut := shut } } : State).onBase (fun b =>
    (((b.put (Reg.thmZone_TEMP z) (if fl || fh then 0x7FFF else b.get (Reg.thmSensor_READING top))).put (Reg.thmZone_LEVEL z) (s1.levelOf z)).putFlag
      (Reg.thmZone_FAIL_LO z) fl).putFlag (Reg.thmZone_FAIL_HI z) fh)

/-- THM_STATUS, the device level with its events, the page's state (Table 19.2). -/
def State.thermalStatus (s : State) : State :=
  let level := ((List.range 32).map s.levelOf).foldl max 0
  let old := s.base.get Reg.thmStatus_LEVEL
  let temp (z : Nat) : Int := toSigned 16 (s.base.get (Reg.thmZone_TEMP z))
  let hot := (List.range 32).foldl (fun a z => if temp a < temp z then z else a) 0
  let failed := ((List.range 64).filter s.sensorFailed).length
  s.onBase (fun b =>
    let b1 := ((b.put Reg.thmStatus_LEVEL level).put Reg.thmStatus_HOT_ZONE hot).put Reg.thmStatus_FAILED failed
    let b2 := if old < level then b1.raise pgTHM 16 else if level < old then b1.raise pgTHM 17 else b1
    let b3 := if old = 0 ∧ level ≠ 0 then b2.raise pgADM 17 else b2
    b3.setOwn pgTHM (if failed = 0 then uBUSY else uDEGRADED))

/-- Shutdown: the dark sequence, or the latch at once while cold reset is held (R528, R529). -/
def State.shutdown (s : State) (z : Nat) : State :=
  if s.pwr.held && s.pwr.dark.isNone then
    if s.base.flag Reg.thmLatch_LATCH then s else s.onBase (fun b => (b.putFlag Reg.thmLatch_LATCH true).put Reg.thmLatch_ZONE z)
  else s.darkStart none z

/-- THERMAL_SAMPLE: all 64 sensors in one tick. -/
def State.thermalRow (s : State) (xs : List Sample) : State :=
  if xs.length ≠ 64 then s
  else
    let s1 := ((List.range 64).zip xs).foldl State.takeSample s
    let s2 := ((List.range 32).foldl State.zoneSample s1).thermalStatus
    match (List.range 32).find? (fun z => sget (fun _ => 0) s2.thm.shut z == 3) with
    | some z => s2.shutdown z
    | none => s2

/-- A sensor's re-test: one that passes works again; one that had worked and does not pass fails. -/
def State.retestSensor (s : State) (p : Nat × Sample) : State :=
  match sampleOf p.2 with
  | .ok t => s.onBase (·.setWord (Reg.thmSensor p.1) (BitVec.ofNat 32 t))
  | .error c => if s.sensorFailed p.1 then s else s.sensorFails p.1 c

/-- A unit reset of THM re-tests every sensor and keeps levels and thresholds; it completes at once. -/
def State.thmReset (s : State) (xs : List Sample) : State := (((List.range 64).zip xs).foldl State.retestSensor s).thermalStatus

/-- A write of a threshold register restarts every zone's counts. -/
def State.thrWrite (s : State) (key : Nat) (a : RegWr) : State :=
  s.write key a (fun _ _ _ x => { x with thm := { x.thm with rise := [], fall := [], dis := [], shut := [] } })

end Sys2Proof.Machine
end

