-- ==== Sys2Proof/Machine/HelmUnit.lean ====
section
/-! DEFINITION. Helm and the Keep (chapter 20): the mailbox commands, firmware images and slots, boot, the annunciator bits, and the Krydo exchange. -/

namespace Sys2Proof.Machine

/-! ## Images (R544 to R546) -/

/-- The checks of Table 20.3 on an image read for FW_STAGE: the reason and status of the first that fails. -/
def imageCheck (svn0 len : Nat) (m : List Byte) : Option (Nat × Nat) :=
  let key := (m.drop 128).take 2592
  if m.take 4 ≠ [0x4F, 0x46, 0x57, 0x31] ∨ leAt m 4 1 ≠ 1 ∨ !allZero ((m.drop 80).take 48) ∨ !allZero ((m.drop 7347).take 845) then some (1, stFORMAT)
  else if leAt m 6 2 ≠ 0x4101 then some (2, stFORMAT)
  else if 8192 + leAt m 12 4 ≠ len ∨ 8388608 < len then some (3, stRANGE)
  else if sha3 key ≠ Config.keyDigest then some (4, stFORMAT)
  else if !Config.verifies key (m.take 2720) ((m.drop 2720).take 4627) then some (5, stFORMAT)
  else if sha3 (m.drop 8192) ≠ (m.drop 16).take 64 then some (6, stFORMAT)
  else if leAt m 5 1 < svn0 then some (7, stSTATE)
  else none

def State.fwSvn (s : State) : Nat := s.base.get Reg.kepSvn_FW_SVN

/-- The slot in a state, if any. -/
def State.slotIn (s : State) (st : Nat) : Option Nat := (List.range 2).find? (fun k => s.slotState k == st)

/-- A slot's state code. -/
def State.setSlot (s : State) (k st : Nat) : State := s.onBase (·.put (Reg.hlmSlot_STATE k) st)

/-! ## The mailbox (R552, R553) -/

/-- An argument register of a host. -/
def State.mbxArg (s : State) (h i : Nat) : Nat := (s.base.word (Reg.mbxArg h i)).toNat

/-- The bytes of the first arguments. -/
def State.mbxBytes (s : State) (h n : Nat) : List Byte := (List.range n).flatMap (fun i => leBytes 4 (s.mbxArg h i))

/-- Response registers from RSP0 on. -/
def State.mbxRsp (s : State) (h : Nat) (ws : List Nat) : State :=
  s.onBase (fun b => (ws.zip (List.range 8)).foldl (fun (b : Base) e => b.setWord (Reg.mbxRsp h e.2) (BitVec.ofNat 32 e.1)) b)

/-- The slot state allows a command (R546 to R549); a provisioning change that removes nothing does not fit. -/
def State.mbxFits (s : State) (op : Nat) : Bool :=
  match op with
  | 2 => (s.slotIn 2).isNone
  | 3 => (s.slotIn 1).isSome
  | 4 => (s.slotIn 2).isSome
  | 5 => (s.slotIn 1).isSome
  | 8 => s.hlm.record.isSome || (match s.hlm.change with | some (some _) => true | _ => false)
  | _ => true

/-- The bits of an argument that are reserved are set, or the code is reserved. -/
def State.mbxFormat (s : State) (h op : Nat) : Bool :=
  op == 0 || decide (8 < op) || (op == 3 && decide (1 < s.mbxArg h 0)) ||
    (op == 7 && (decide (2 < leAt (s.mbxBytes h 4) 1 1) || !allZero ((s.mbxBytes h 4).drop 6)))

/-- The hosts that a bifurcation creates. -/
def hostsOf (code : Nat) : Nat := match code with | 1 => 2 | 2 => 4 | _ => 1

/-- The status with which a command ends before any effect (R553); none: it is accepted. -/
def State.mbxCheck (s : State) (h op : Nat) : Option Nat :=
  let owner := h == s.base.owner
  let rom := s.base.get Reg.hlmStatus_STATE == 3 && owner && (op == 1 || op == 2)
  firstStatus [
    (!s.helmRuns && !rom, stSTATE),
    (op == 2 && s.mbxArg h 2 == 0, stNOOP),
    (s.mbxFormat h op, stFORMAT),
    (op != 1 && !owner, stOWNER),
    (op == 6 && (decide (s.base.get (Reg.mbxCmd_PARAM h) < 2) || decide (7 < s.base.get (Reg.mbxCmd_PARAM h))), stRANGE),
    (op == 7 && decide (hostsOf (leAt (s.mbxBytes h 4) 1 1) ≤ leAt (s.mbxBytes h 4) 0 1), stRANGE),
    (!s.mbxFits op, stSTATE)]

/-- GET_INFO. -/
def State.mbxInfo (s : State) (h : Nat) : State :=
  let k := s.base.get Reg.hlmStatus_BOOT_SLOT
  let ver := if s.helmRuns then (s.base.word (Reg.hlmSlotVer k)).toNat else 0
  (s.mbxRsp h [ver, s.fwSvn + 256 * k, (s.base.word (Reg.hlmSlot 0)).toNat, (s.base.word (Reg.hlmSlot 1)).toNat]).mbxEnd h stOK 0

/-- FW_STAGE: the free slot is being written while the host read runs. -/
def State.mbxStage (s : State) (h : Nat) : State :=
  let s1 := s.slotEmpty s.stageSlot
  ({ s1 with hlm := { s1.hlm with busy := sput (fun _ => 0) s1.hlm.busy h 2 } } : State).onBase
    (·.emit (.hostRead h (s.mbxArg h 0 + 2 ^ 32 * s.mbxArg h 1) (s.mbxArg h 2)))

/-- FW_ACTIVATE: the STAGED slot is PENDING; NOW starts a warm reset. -/
def State.mbxActivate (s : State) (h : Nat) : State :=
  match s.slotIn 1 with
  | none => s
  | some k =>
    let s1 := (s.onBase (·.putFlag (Reg.hlmSlot_PENDING k) true)).mbxEnd h stOK 0
    if s.mbxArg h 0 % 2 = 1 then s1.startWarm 2 else s1

/-- Slots below FW_SVN are INVALID. -/
def State.slotsJudged (s : State) : State :=
  (List.range 2).foldl (fun (x : State) k => if x.slotState k != 0 && decide (x.base.get (Reg.hlmSlot_SVN k) < x.fwSvn) then x.setSlot k 5 else x) s

/-- FW_CONFIRM: the trial slot is ACTIVE, the former one PREVIOUS, FW_SVN rises. -/
def State.mbxConfirm (s : State) (h : Nat) : State :=
  match s.slotIn 2 with
  | none => s
  | some k =>
    let s1 := match s.slotIn 3 with | some o => s.setSlot o 4 | none => s
    let svn := max s.fwSvn (s.base.get (Reg.hlmSlot_SVN k))
    let s2 := (s1.setSlot k 3).onBase (fun b => ((b.put Reg.kepSvn_FW_SVN svn).put Reg.kepSvn_LEFT (255 - svn)).raise pgHLM 21)
    ((s2.slotsJudged).mbxRsp h [svn]).mbxEnd h stOK 0

/-- FW_DISCARD. -/
def State.mbxDiscard (s : State) (h : Nat) : State :=
  match s.slotIn 1 with
  | none => s
  | some k => (s.slotEmpty k).mbxEnd h stOK 0

/-- MR_EXTEND (R540). -/
def State.mbxExtend (s : State) (h : Nat) : State :=
  let m := s.base.get (Reg.mbxCmd_PARAM h)
  let v := sha3 (s.mr m ++ s.mbxBytes h 16)
  ((s.setMr m v).mbxRsp h ((List.range 8).map (fun i => leAt v (4 * i) 4))).mbxEnd h stOK 0

/-- PROVISION and DEPROVISION: the change waits for the next cold reset (R542, R543). -/
def State.mbxProvision (s : State) (h : Nat) (change : Option (List Byte)) : State :=
  ((({ s with hlm := { s.hlm with change := some change } } : State).keepRegs).onBase (·.raise pgKEP 16)).mbxEnd h stOK 0

/-- An accepted command. -/
def State.mbxRun (s : State) (h op : Nat) : State :=
  match op with
  | 1 => s.mbxInfo h
  | 2 => s.mbxStage h
  | 3 => s.mbxActivate h
  | 4 => s.mbxConfirm h
  | 5 => s.mbxDiscard h
  | 6 => s.mbxExtend h
  | 7 => s.mbxProvision h (some (s.mbxBytes h 4))
  | 8 => s.mbxProvision h none
  | _ => s

/-- GO: BUSY, the checks, and the command; malformed ones are recorded as MAILBOX. -/
def State.mbxGo (s : State) (h : Nat) : State :=
  let op := s.base.get (Reg.mbxCmd_OP h)
  let s1 := s.onBase (·.putFlag (Reg.mbxStatus_BUSY h) true)
  match s.mbxCheck h op with
  | none => s1.mbxRun h op
  | some st =>
    let s2 := if st = stFORMAT then s1.onBase (·.violation h pgHLM vMAILBOX (leBytes 1 op)) else s1
    s2.mbxEnd h st 0

/-- A write of a register of mailbox block h: refused while BUSY; GO starts a command. -/
def State.mbxWrite (s : State) (h key : Nat) (a : RegWr) : State :=
  s.guardedWrite key a (s.base.flag (Reg.mbxStatus_BUSY h)) (fun act _ _ x => if key = Reg.mbxCmd h && act.testBit 31 then x.mbxGo h else x)

/-- MBX_DONE: the host read of FW_STAGE ends; the image is checked and the slot is STAGED, or INVALID with the reason. -/
def State.mbxDoneRow (s : State) (h : Nat) (reply : HostRead) : State :=
  if sget (fun _ => 0) s.hlm.busy h != 2 then s
  else
    let k := s.stageSlot
    let len := s.mbxArg h 2
    match reply with
    | .fail c => ((s.setSlot k 5).onBase (·.dmaError h none c.val)).mbxEnd h stMEMORY 8
    | .data m =>
      if m.length ≠ len then s
      else match imageCheck s.fwSvn len m with
        | some (reason, st) => (s.setSlot k 5).mbxEnd h st reason
        | none =>
          let img : Image := ⟨leAt m 8 4, leAt m 5 1, true, sha3 (m.take 2720)⟩
          let s1 : State := { s with hlm := { s.hlm with images := sput (fun _ => none) s.hlm.images k (some img) } }
          (s1.onBase (fun b => (((b.setWord (Reg.hlmSlot k) 0).put (Reg.hlmSlot_STATE k) 1).put (Reg.hlmSlot_SVN k) img.svn).put (Reg.hlmSlotVer_VERSION k) img.version)).mbxEnd h stOK 0

/-! ## Boot (R547 to R550) -/

def State.image (s : State) (k : Nat) : Option Image := sget (fun _ => none) s.hlm.images k

/-- The boot ROM's check of a slot: the reason for which it fails. -/
def State.bootBad (s : State) (k : Nat) : Option Nat :=
  match s.image k with
  | none => some 1
  | some i => if !i.valid then some 6 else if i.svn < s.fwSvn then some 7 else none

/-- A slot fails the ROM's check. -/
def State.bootFails (s : State) (k reason : Nat) : State :=
  s.onBase (fun b => ((b.put (Reg.hlmSlot_STATE k) 5).putFlag (Reg.hlmSlot_PENDING k) false).fault pgHLM 1 (leBytes 1 k ++ leBytes 1 reason))

/-- The slot boots: MR1 is extended with its digest, firmware runs, Helm serves the time port. -/
def State.bootSlot (s : State) (k : Nat) : State :=
  let digest := ((s.image k).map (·.digest)).getD []
  let s1 := s.setMr 1 (sha3 (s.mr 1 ++ digest))
  let s2 : State := { s1 with
    pwr := { s1.pwr with wdogAt := s.base.ticks }
    hlm := { s1.hlm with fwAt := s.base.ticks, fell := false } }
  s2.onBase (fun b =>
    let b1 := ((b.put Reg.hlmStatus_STATE 2).put Reg.hlmStatus_BOOT_SLOT k).count Reg.hlmBoots_COUNT 1
    let b2 := if s.hlm.fell then b1.raise pgHLM 22 else b1
    (b2.putFlag Reg.ethStatus_HELM true).setOwn pgHLM uBUSY)

/-- The ROM checks the slots in a state; those that fail become INVALID, each with its fault (R545, R547). -/
def State.romChecks (s : State) (st : Nat) : State :=
  (List.range 2).foldl (fun (x : State) k => match if x.slotState k == st then x.bootBad k else none with | some r => x.bootFails k r | none => x) s

/-- The ROM boots the ACTIVE slot, else a PREVIOUS one, which becomes ACTIVE, else (after a warm reset) a STAGED one as a trial; with none it has FAILED. -/
def State.bootActive (s : State) : State :=
  let s1 := match s.slotIn 3 with
    | some k => (match s.bootBad k with | some r => { s.bootFails k r with hlm := { s.hlm with fell := true } } | none => s)
    | none => s
  match s1.slotIn 3 with
  | some k => s1.bootSlot k
  | none =>
    let s2 := s1.romChecks 4
    match s2.slotIn 4 with
    | some k => (s2.setSlot k 3).bootSlot k
    | none =>
      let s3 := if s2.hlm.warm then s2.romChecks 1 else s2
      match if s3.hlm.warm then s3.slotIn 1 else none with
      | some k => ((s3.onBase (fun b => ((b.put (Reg.hlmSlot_STATE k) 2).putFlag (Reg.hlmSlot_PENDING k) false).raise pgHLM 20))).bootSlot k
      | none => s3.onBase (fun b => (b.put Reg.hlmStatus_STATE 3).setOwn pgHLM uFAULT)

/-- FIRMWARE_BOOT: Helm is in the ROM; after a warm reset a PENDING slot is tried first. -/
def State.bootRow (s : State) : State :=
  if s.base.get Reg.hlmStatus_STATE ≠ 1 then s
  else
    match (List.range 2).find? (fun k => s.hlm.warm && s.slotState k == 1 && s.base.flag (Reg.hlmSlot_PENDING k)) with
    | none => s.bootActive
    | some k =>
      match s.bootBad k with
      | some r => (s.bootFails k r).bootActive
      | none => (s.onBase (fun b => ((b.put (Reg.hlmSlot_STATE k) 2).putFlag (Reg.hlmSlot_PENDING k) false).raise pgHLM 20)).bootSlot k

/-! ## The annunciator bits (R551) -/

/-- Table 20.5. -/
def State.fwBits (s : State) : List Bool :=
  let b := s.base
  let within (t : Option Nat) (sec : Nat) : Bool := match t with | some x => decide (b.ticks < x + sec * secTicks) | none => false
  let strs := (List.range 12).flatMap (fun z => (List.range 8).map (s.strState z))
  [true, b.get Reg.sxtStatus_STATE == 2, s.parState != 0 && s.role == 1, s.parState != 0 && s.parState != parSYNC,
    b.get Reg.thmStatus_LEVEL != 0, decide (6 ≤ b.worst 6 0), within s.wch.repairAt 86400, (s.slotIn 2).isSome,
    strs.any (fun x => decide (4 ≤ x)),
    (List.range 2).any (fun p => b.enabled (pgPRT p) && (b.unitState (pgPRT p) == uDEGRADED || (s.port p).phase != .service)),
    strs.contains strUNVERIFIED, within s.hlm.linkAt 60]
    ++ (List.range 4).map (fun h => (b.link h).up)

/-- FW_VAL_UPDATE: 100 ms after the last one. -/
def State.fwValRow (s : State) : State :=
  if !s.helmRuns || decide (s.base.ticks < s.hlm.fwAt + 100 * msTicks) then s
  else
    let v := ((s.fwBits.zip (List.range 16)).map (fun e => if e.1 then 2 ^ e.2 else 0)).foldl (· + ·) 0
    ({ s with hlm := { s.hlm with fwAt := s.base.ticks } } : State).onBase (·.setWord Reg.blfFwVal (BitVec.ofNat 32 v))

/-! ## Krydo (R554 to R556) -/

/-- A Krydo message: header, body, and zero bytes up to a whole number of DW. -/
def krydo (code : Nat) (body : List Byte) : List Byte :=
  let pad := (4 - body.length % 4) % 4
  [1, BitVec.ofNat 8 code, 0, 0] ++ leBytes 4 (8 + body.length + pad) ++ body ++ List.replicate pad 0

/-- What a request is refused with: 1 unknown CODE, 2 bad LENGTH or range, 3 a reserved byte. -/
def krydoBad (m : List Byte) : Option Nat :=
  let code := leAt m 1 1
  let len := match code with | 1 => 8 | 2 => 16 | _ => 44
  if leAt m 0 1 ≠ 1 ∨ code = 0 ∨ 3 < code then some 1
  else if leAt m 4 4 ≠ m.length ∨ m.length ≠ len then some 2
  else if leAt m 2 2 ≠ 0 ∨ (code = 3 ∧ leAt m 41 3 ≠ 0) then some 3
  else if code = 2 ∧ (leAt m 12 4 = 0 ∨ 65512 < leAt m 12 4 ∨ Config.chain.length < leAt m 8 4 + leAt m 12 4) then some 2
  else if code = 3 ∧ leAt m 40 1 = 0 then some 2
  else none

/-- The ID message. -/
def State.krydoId (s : State) : List Byte :=
  krydo 0x81 (leBytes 8 Config.serial.toNat ++ leBytes 1 s.fwSvn ++ [if s.hlm.record.isSome then 1 else 0, 0, 0]
    ++ leBytes 4 (s.base.word (Reg.hlmSlotVer (s.base.get Reg.hlmStatus_BOOT_SLOT))).toNat ++ leBytes 4 Config.chain.length)

/-- The CHAIN message. -/
def krydoChain (off n : Nat) : List Byte := krydo 0x82 (leBytes 4 off ++ leBytes 4 n ++ (Config.chain.drop off).take n)

/-- The MEAS message: the signature covers the digest of the request and of the response before it. -/
def State.krydoMeas (s : State) (m : List Byte) : List Byte :=
  let mask := leAt m 40 1
  let mrs := ((List.range 8).filter (fun k => mask.testBit k)).flatMap s.mr
  let body := (m.drop 8).take 32 ++ leBytes 1 mask ++ leBytes 1 s.fwSvn ++ [0, 0] ++ leBytes 8 s.base.E ++ mrs
  let pad := (4 - (body.length + 4627) % 4) % 4
  let head := [1, 0x83, 0, 0] ++ leBytes 4 (8 + body.length + 4627 + pad) ++ body
  let sig := Config.signature (sha3 (m ++ head))
  head ++ (List.range 4627).map (fun i => sig.getD i 0) ++ List.replicate pad 0

/-- A Krydo request in a host's DOE mailbox: one response, or ERROR and the violation MAILBOX. -/
def State.krydoRow (s : State) (h : Nat) (obj : List Byte) : State :=
  if !s.helmRuns || !decide (h < s.base.nhosts) || (s.doeOf h).error then s
  else if !doeWhole obj then s.setDoe h ⟨true⟩
  else if leAt obj 0 2 ≠ 0xC0D7 ∨ leAt obj 2 1 ≠ 1 then s
  else
    let m := obj.drop 8
    let answer := match krydoBad m with
      | some e => krydo 0x7F (leBytes 1 e)
      | none => match leAt m 1 1 with
        | 1 => s.krydoId
        | 2 => krydoChain (leAt m 8 4) (leAt m 12 4)
        | _ => s.krydoMeas m
    let s1 := s.onBase (·.emit (.doe h (doeObject 0xC0D7 1 answer)))
    if (krydoBad m).isSome then s1.onBase (·.violation h pgHLM vMAILBOX (leBytes 1 (leAt m 1 1) ++ [1])) else s1

end Sys2Proof.Machine
end

