-- ==== Sys2Proof/Machine/CfgTxn.lean ====
section
/-! DEFINITION. Configuration transactions as commands (R47 to R53, R586): OPEN, COMMIT with every check of the seal, ABORT. -/

namespace Sys2Proof.Machine

/-- OPEN: the writing host holds the transaction, unless one is open or sealed. -/
def State.cfgOpens (s : State) (h : Nat) : State :=
  if s.base.flag Reg.cfgStatus_OPEN || s.base.flag Reg.cfgStatus_SEALED then s.cfgRefuse h 1 0 0
  else
    ({ s with cfg := { s.cfg with staged := [], sealAt := 0, anyCut := false, target := none, strict := false, late := false } } : State).onBase (fun b =>
      (((b.putFlag Reg.cfgStatus_OPEN true).put Reg.cfgStatus_HOLDER h).put Reg.cfgStatus_STAGED 0))

/-- The CFG_AT target is past under STRICT. -/
def State.targetRejected (s : State) : Bool :=
  s.base.flag Reg.cfgCtrl_WHEN && s.base.flag Reg.cfgCtrl_STRICT && !future32 (s.base.word Reg.cfgAt).toNat s.base.now

/-- The statuses of the checks that fail at the seal, in the order of R92: REJ_FORMAT, REJ_RANGE, REJ_STATE. -/
def State.sealStatus (s : State) : Option Nat :=
  let geo := (s.cmpSeal).2
  firstStatus [
    (geo.contains stFORMAT, stFORMAT),
    (geo.contains stRANGE || s.scoSealBad || s.beaconSealBad || s.belfrySealBad || s.epochSealBad, stRANGE),
    (s.targetRejected, stSTATE)]

/-- The sealed transaction's target as a 64-bit instant; a past one lies before E. -/
def State.sealTarget (s : State) : Option Nat :=
  if !s.base.flag Reg.cfgCtrl_WHEN then none
  else
    let t := (s.base.word Reg.cfgAt).toNat
    some (if future32 t s.base.now then extend32 t s.base.E else s.base.E - sub32 s.base.now t)

/-- COMMIT by the holder: nothing staged, a failed check, or the seal. -/
def State.cfgCommits (s : State) (h : Nat) : State :=
  if !s.holdsCfg h then s.cfgRefuse h 2 0 0
  else if s.cfg.staged.isEmpty then s.cfgEnd stNOOP
  else
    let s1 := (s.cmpSeal).1
    match s.sealStatus with
    | some st => s1.cfgEnd st
    | none =>
      let when_ := s.base.flag Reg.cfgCtrl_WHEN
      ({ s1 with cfg := { s1.cfg with
          sealAt := s.base.E, anyCut := false, target := s.sealTarget, strict := s.base.flag Reg.cfgCtrl_STRICT
          late := when_ && !future32 (s.base.word Reg.cfgAt).toNat s.base.now } } : State).onBase (fun b =>
        (b.putFlag Reg.cfgStatus_OPEN false).putFlag Reg.cfgStatus_SEALED true)

/-- ABORT of an open transaction, by its holder or the owner host. -/
def State.cfgAborts (s : State) (h : Nat) : State :=
  if s.base.flag Reg.cfgStatus_OPEN && (s.base.get Reg.cfgStatus_HOLDER == h || h == s.base.owner) then s.cfgEnd stROLLBACK
  else s.cfgRefuse h 3 0 0

/-- An OP that R48 and R50 do not let host h make now. -/
def State.cfgOpBad (s : State) (h op : Nat) : Bool :=
  let open_ := s.base.flag Reg.cfgStatus_OPEN
  match op with
  | 1 => open_ || s.base.flag Reg.cfgStatus_SEALED
  | 2 => !s.holdsCfg h
  | 3 => !(open_ && (s.base.get Reg.cfgStatus_HOLDER == h || h == s.base.owner))
  | _ => false

/-- A write of CFG_CTRL: WHEN and STRICT, then OP; a refused OP changes nothing, WHEN and STRICT included (R48, R50). -/
def State.cfgCtrlWrite (s : State) (a : RegWr) : State :=
  s.write Reg.cfgCtrl a (fun act _ _ x =>
    let h := a.host.toNat
    let op := bits act 1 0
    if s.cfgOpBad h op then s.cfgRefuse h op 0 0
    else match op with
      | 1 => x.cfgOpens h
      | 2 => x.cfgCommits h
      | 3 => x.cfgAborts h
      | _ => x)

end Sys2Proof.Machine
end

