-- ==== Sys2Proof/Machine/Cut.lean ====
section
/-! DEFINITION. The commit cut (R21 to R23, R198 to R200, R203, R204): the configuration transaction first, then every preceding scene transaction in sequencer order, what the cut hands to the units, and the rate that it decides. -/

namespace Sys2Proof.Machine

/-- Gives quota units of a resource back to the host of a key. -/
def State.giveBack (s : State) (key res n : Nat) : State := s.onBase (·.giveUse (key / 65536) res n)

/-- An object leaves the scene: RETIRING, its entry given back (R108, R110). -/
def State.leaves (s : State) (k : ObjKind) (key oid res : Nat) : State :=
  ({ s with scenes := { s.scenes with retiring := s.scenes.retiring ++ [(k, key, oid)] } } : State).giveBack key res 1

/-- Granules that a layer no longer holds become RETIRING, and their quota is given back (R280). -/
def State.dropGrans (s : State) (key : Nat) (old new : List Nat) : State :=
  let gone := old.filter (fun g => !new.contains g)
  ({ s with dome := s.dome.retireMany gone } : State).giveBack key 5 gone.length

/-- One change of an applied transaction: what it replaces leaves, and the scene follows. -/
def State.applyOp (s : State) (o : SceneOp) : State :=
  let sc := s.scenes.live
  let s1 := match o with
    | .ctx k v => match sc.ctx k with
      | some c => if v.map Ctx.oid = some c.oid then s else s.leaves .ctx k c.oid 0
      | none => s
    | .region k v => match sc.region k with
      | some c => if v.map Region.oid = some c.oid then s else s.leaves .region k c.oid 2
      | none => s
    | .layer k v => match sc.layer k with
      | some c =>
        let s2 := s.dropGrans k c.all ((v.map Layer.all).getD [])
        if v.map Layer.oid = some c.oid then s2 else s2.leaves .layer k c.oid 1
      | none => s
  { s1 with scenes := { s1.scenes with live := s1.scenes.live.apply o } }

/-- The key of a context, or of a region, that a change touches. -/
def SceneOp.ctxKey : SceneOp → Option Nat
  | .ctx k _ => some k
  | _ => none

def SceneOp.regKey : SceneOp → Option Nat
  | .region k _ => some k
  | _ => none

/-- A sealed transaction precedes a cut (R203), or applies at any (R432). -/
def Sealed.dueAt (t : Sealed) (cut : Nat) : Bool := t.anyCut || before32 t.stamp cut

/-- One sealed transaction is applied: its changes, counters and events, and the completion of its TX_COMMIT or SCHED_COMMIT with OK or LATE (R205, R262), held pending where a reset holds the ring (event RESET_PENDING, R270). -/
def State.applySealed (cut : Nat) (s : State) (t : Sealed) : State :=
  let h := t.host
  let s1 := t.ops.foldl State.applyOp s
  let s2 := s1.onBase (fun b =>
    let b1 := ((b.count (Reg.txnApplied_COUNT h) 1).put (Reg.txnLastCut_TIME h) cut)
    if t.late.isSome then (b1.count (Reg.txnLate_COUNT h) 1).raiseMask (pgTXN h) (2 ^ 16 + 2 ^ 18) else b1.raise (pgTXN h) 16)
  let s3 := if (List.range 16).any (fun r => (s2.ring h r).held && (s2.ring h r).flight.any (fun d => d.id == t.commit && !d.drop)) then
      s2.onBase (·.raise (pgCMD h) 18) else s2
  s3.finish h t.commit (if t.late.isSome then stLATE else stOK) (t.late.getD t.stamp) (some cut)

/-- Every due scene transaction, in sequencer order; the others keep waiting. -/
def State.applyScenes (s : State) (cut : Nat) : State :=
  let due := s.scenes.sealed.filter (·.dueAt cut)
  let s1 : State := { s with scenes := { s.scenes with sealed := s.scenes.sealed.filter (fun t => !t.dueAt cut) } }
  (List.range 4).foldl (fun x h => (x.drainHost h).refreshHost h) (due.foldl (State.applySealed cut) s1)

/-- The configuration transaction at a cut: applied and completed with OK, or with LATE and CFG_LATE (R51, R52). -/
def State.cfgCut (s : State) (cut : Nat) : State :=
  if !s.cfgDue cut then s
  else if s.cfg.late then
    let late := sub32 cut (s.cfg.target.getD cut)
    ((s.cfgApply).onBase (·.setWord Reg.cfgLate (BitVec.ofNat 32 late))).cfgEnd stLATE
  else (s.cfgApply).cfgEnd stOK

/-- The registers that the configuration transaction makes live at a cut. -/
def State.cutKeys (s : State) (cut : Nat) : List Nat := if s.cfgDue cut then s.stagedKeys else []

/-- CLAMP: some layer of the new scene is clamped that was not clamped in the old one, under the DMAX that it was rendered with (R74). -/
def newlyClamped (old new : State) : Bool :=
  let d0 := geoF old.spr.geom Reg.cmpDmax_DMAX
  let d1 := new.base.get Reg.cmpDmax_DMAX
  new.scenes.live.layers.any (fun e => match e.2 with
    | none => false
    | some l => l.clamped new.dome d1 &&
        !((old.scenes.live.layer e.1).map (fun o => o.oid == l.oid && o.clamped old.dome d0)).getD false)

/-! ## The rate (R199, R200) -/

/-- The wall rate from the next slot 0. -/
def State.wallNext (s : State) : Nat :=
  match sget (fun _ => none) s.cfg.slot0 Reg.scoCtrl with
  | some w => getBits w 17 16
  | none => s.wallRate

/-- F from the next slot 0, as a rate code: the lowest of the wall rate, 40 Hz at L3, and the ports' rates. -/
def State.rateNext (s : State) : Nat :=
  max (max s.wallNext (if 3 ≤ s.base.get Reg.thmStatus_LEVEL then 2 else 0)) (max (s.portRate 0) (s.portRate 1))

/-- What a cut decides for the next slot 0: nothing, a re-anchored timeline, or the gap before the return to the wall timeline. -/
def State.decide_ (s : State) : Option (Nat × LineMode) :=
  let f := s.rateNext
  if s.sco.mode = .gap then none
  else if s.wallNext < f then (if s.sco.mode = .reduced && s.sco.rate = f then none else some (f, .reduced))
  else if s.wallNext != s.wallRate || s.sco.mode = .reduced then some (f, .gap)
  else none

/-- COMMIT_CUT: the cut of the slot-7 subframe that has begun. -/
def State.cutRow (s : State) : State :=
  if !s.sco.cutDue then s
  else
    let cut := s.sco.startAt.toNat
    let c32 := cut % 2 ^ 32
    let keys := s.cutKeys cut
    let due := s.scenes.sealed.filter (·.dueAt c32)
    let s1 := (s.cfgCut cut).applyScenes c32
    let s2 := if newlyClamped s s1 then s1.onBase (·.raise pgCMP 18) else s1
    let s3 := s2.cmpCut keys
    let s4 := s3.guardHandOver (due.flatMap (·.ages)) (due.flatMap (fun t => t.ops.filterMap SceneOp.ctxKey ++ t.ages.map (·.key))) (due.flatMap (fun t => t.ops.filterMap SceneOp.regKey))
    let s5 := s4.spireCut
    let s6 : State := { s5 with sco := { s5.sco with cutDue := false, decided := s5.decide_, leave := s5.epoch != s.epoch } }
    (if keys.contains Reg.cmpSize then s6.portsFit else s6).beginRender ((s.j + 1) % 2 ^ 32)

end Sys2Proof.Machine
end

