-- ==== Sys2Proof/Machine/Subframe.lean ====
section
/-! DEFINITION. The start of a subframe (R190 to R202, R219, R220): the timeline, what takes effect at slot 0, the underrun test, the dark cause, and the units that act at every subframe start. -/

namespace Sys2Proof.Machine

/-- The timeline and J of the subframe that starts: the first one after the cold release and a return carry a wall number (R195); slot 0 follows what the cut decided, F included, and the gap before a return runs at the new F (R198, R200); a new T_EPOCH begins a gap (R416). -/
def State.newTimeline (s : State) : Sco × Nat :=
  let c := s.sco
  let c1 : Sco := { c with startAt := s.nextStart, running := true }
  let up := (s.j + 1) % 2 ^ 32
  if !c.running then ({ c1 with idx := c.idx + 1 }, ((c.idx + 1) % 2 ^ 32).toNat)
  else if s.returnsNow then
    let k := s.wall7After c.startAt
    ({ c1 with mode := .wall, origin := s.epoch, rate := s.wallRate, idx := k, decided := none }, (k % 2 ^ 32).toNat)
  else if c.leave && c.mode != .gap then ({ c1 with mode := .gap, idx := c.idx + 1, leave := false, decided := none }, up)
  else if up % 8 = 0 then
    match c.decided with
    | some (r, m) => ({ c1 with mode := m, origin := s.nextStart, idx := 0, rate := r, decided := none }, up)
    | none => ({ c1 with idx := c.idx + 1 }, up)
  else ({ c1 with idx := c.idx + 1 }, up)

/-- The subframe that starts carries a wall number set anew: it is dark. -/
def State.wallSet (s : State) : Bool := !s.sco.running || s.returnsNow

/-- A light-field frame has ended at slot 0: aborted, whole, or in part in a gap (R180). -/
def State.frameOver (s : State) : State :=
  if !s.sco.running || s.sco.fresh then s
  else if s.sco.aborted then s.frameEnds true
  else if s.sco.gapped then s
  else s.frameEnds false

/-- The last line that the slowest quadrant has written, 0 when it has written none (Table 7.7). -/
def State.slowestLine (s : State) : Nat :=
  ((List.range 4).map (fun q => 4 * s.wroteOf q + q - 4)).foldl min (s.spr.height - 1)

/-- The frame of subframe j is aborted (R201, R202); the demand of the subframe that the Spire abandons is judged like any other (R172). -/
def State.underrun (s : State) (j : Nat) : State :=
  let s1 := s.onBase (fun b =>
    ((b.count Reg.scoAborted_COUNT 1).raise pgSCO 16).fault pgSCO 3 (leBytes 4 j ++ leBytes 2 s.slowestLine ++ leBytes 2 (j % 8)))
  let lost := s.frame.demand s.spr.width s.spr.height
  ((({ s1 with sco := { s1.sco with aborted := true }, spr := { s1.spr with lost := lost } } : State).judgeDemand lost).abandonRender)

/-- The Spire has completed subframe j. -/
def State.rendered (s : State) (j : Nat) : Bool := s.spr.complete && s.spr.k == j

/-- The DARK cause of the subframe that starts (Table 12.3): 1 before the first cut, in a gap and where J is set anew; 0 underrun; 3 guard or unit reset. -/
def State.darkCause (s : State) (set : Bool) : Option Nat :=
  if set || s.sco.mode == .gap || s.sco.fresh then some 1
  else if s.sco.aborted then some 0
  else if s.base.flag Reg.frsStatus_VEIL_DARK || s.sco.reset then some 3
  else none

/-- The overdrive band (R213). -/
def State.chooseBand (s : State) : State :=
  match s.panelTemp with
  | none => s
  | some t =>
    let thr := [Reg.scoOdThr0_T0, Reg.scoOdThr0_T1, Reg.scoOdThr0_T2, Reg.scoOdThr0_T3, Reg.scoOdThr1_T4, Reg.scoOdThr1_T5, Reg.scoOdThr1_T6].map
      (fun f => toSigned 8 (s.base.get f))
    let old := s.base.get Reg.scoStatus_BAND
    let new := bandOf t thr old
    if new = old then s else s.onBase (fun b => (b.put Reg.scoStatus_BAND new).raise pgSCO 19)

/-- What reaches the ports in place of line 0: LINK_DARK, or a DARK block for a port in training, a dark subframe, or a standby device (R338, R347, R365, R464). -/
def State.darkRows (s : State) : State :=
  match s.pnl.linkDark with
  | some c => s.sendLinkDark c
  | none =>
    (List.range 2).foldl (fun (x : State) p =>
      if !(x.port p).sends then x
      else
        let cause := if (x.port p).phase == .training then some 2 else match s.sco.dark with | some c => some c | none => if s.sco.standby then some 4 else none
        match cause with
        | none => x
        | some c => x.sendLineRow p ([0x02, 0, 0, 0] ++ leBytes 4 s.j ++ leBytes 1 (s.j % 8) ++ leBytes 1 c)) s

/-- SCO_STATUS, SCO_VTIMING and the page's state. -/
def State.scoRegs (s : State) : State :=
  let c := s.sco
  s.onBase (fun b =>
    let low := decide (s.wallRate < c.rate)
    let b1 := ((b.put Reg.scoStatus_RATE c.rate).putFlag Reg.scoStatus_BY_THERMAL (low && c.rate == 2 && decide (3 ≤ b.get Reg.thmStatus_LEVEL))).putFlag Reg.scoStatus_BY_PORT
      (low && (s.portRate 0 == c.rate || s.portRate 1 == c.rate))
    let b2 := ((b1.putFlag Reg.scoStatus_DARK c.dark.isSome).put Reg.scoStatus_BUF (s.j % 2)).put Reg.scoStatus_SLOT (s.j % 8)
    ((b2.put Reg.scoVtiming_V_TOTAL (vTotal c.height)).put Reg.scoVtiming_V_ACTIVE c.height).setOwn pgSCO uBUSY)

/-- What slot 0 brings into force before the subframe is judged: CMP_SIZE for scan-out, ports, staged values, guard tables and reset, the end of LINK_DARK and of a unit reset. -/
def State.slot0 (s : State) (hadCut : Bool) : State :=
  let s1 : State := { s with sco := { s.sco with
      size := s.base.word Reg.cmpSize, fresh := s.sco.fresh && !hadCut, aborted := false, gapped := false } }
  let s2 := (s1.portsSubframe true).beaconSlot0.cfgSlot0
  let s3 := (({ s2 with guard := { s2.guard with checks := 0, checked := false } } : State).guardSlot0).guardResetEnd
  let s4 : State := if s3.pnl.resume then { s3 with pnl := { s3.pnl with linkDark := none, resume := false } } else s3
  if s4.sco.reset then ({ s4 with sco := { s4.sco with reset := false } } : State).resetEnds pgSCO else s4

/-- The subframe is fixed: dark or lit, standby, overdrive reference, and what the Beacon is told. -/
def State.fixSubframe (s : State) (set wasDark wasStandby wasSlot7 : Bool) : State :=
  let dark := s.darkCause set
  let standby := s.isStandby
  let s1 : State := { s with sco := { s.sco with
      dark := dark, standby := standby, gapped := s.sco.gapped || dark == some 1, line := 0, tsig := 0xFFFFFFFF, timing := false, logged := 0, stale := 0
      beaconDark := dark.isSome || s.pnl.linkDark.isSome || !s.anyService
      refZero := wasDark || s.sco.refCut || (wasStandby && !standby)
      refCut := s.sco.refCut && dark.isSome, cutDue := wasSlot7 } }
  if dark = some 0 then (s1.onBase (·.count Reg.scoUnderrun_COUNT 1)).ownSignature s.j 0 true else s1

/-- The MiB that each stack delivered in the subframe that ends, all reads and those of Spire gathers (R304). The caches of R176 keep an open part of the gathers from the stacks, so a free value bounded by what the spans gathered stands for RENDER (DESIGN CHOICE, log 10). -/
def State.trafficRow (s : State) : State :=
  let bytes (k : Nat) : Nat := sget (fun _ => 0) s.dome.reads k
  let spire (k : Nat) : Nat := sget (fun _ => 0) s.dome.reads (8 + k)
  let render (k : Nat) : Nat := Config.freeReading (Reg.stkRender k) s.j % (spire k / 2 ^ 20 + 1)
  ({ s with dome := { s.dome with reads := [] } } : State).onBase (fun b => (List.range 8).foldl (fun (b : Base) k =>
    (b.put (Reg.stkRender_MIB k) (render k)).put (Reg.stkRead_MIB k) (render k + (bytes k - spire k) / 2 ^ 20)) b)

/-- SUBFRAME_START: due at the next subframe start; freshness ticks that are due (R223), a cut not yet made and a pending SET come first. -/
def State.subframeRow (s : State) : State :=
  if !s.sco.armed || decide ((s.base.E : Int) < s.nextStart) then s
  else
    let s0 := ((s.dueTicks.cutRow).setAppliedRow).beaconEnd
    let wasDark := s0.sco.dark.isSome || s0.pnl.linkDark.isSome
    let set := s0.wallSet
    let hadCut := s0.sco.running && s0.j % 8 == 7
    let t := s0.newTimeline
    let j := t.2
    let first := decide (j % 8 = 0)
    let a0 := if first then s0.frameOver else s0
    let rateMoves := t.1.rate != s0.sco.rate
    let a1 := (({ a0 with sco := t.1, scenes := { a0.scenes with retiring := [] } } : State).onBase (fun b =>
      let b1 := (b.setWord Reg.scoSubframe (BitVec.ofNat 32 j)).setWord Reg.frsVeiled (BitVec.ofNat 32 s0.sco.stale)
      if rateMoves then b1.raise pgSCO 18 else b1))
    let a2 := ((if s0.sco.running then a1.trafficRow else a1).reclaim).switchFrames
    let a3 := if first then a2.slot0 hadCut else a2.portsSubframe false
    let a4 := (a3.guardJudge (t.1.startAt.toNat)).blfSummary
    let tested := !(set || a4.sco.mode == .gap || a4.sco.fresh || a4.sco.aborted)
    let a5 := if tested && !a4.rendered j then a4.underrun j else a4
    let a6 := (a5.chooseBand).pairSubframe first
    let a7 := a6.fixSubframe set wasDark s0.sco.standby (j % 8 == 7)
    let a8 := ((a7.scoRegs).darkRows).rxCount (fun k => (a7.base.get Reg.parStatus_TX_LANES).testBit k)
    let a9 := (a8.watchSubframe).spireSubframe
    let b1 := if first then (a9.beaconFrame).wallStatus else a9
    if j % 8 = 7 || b1.sco.aborted || b1.sco.fresh then b1 else b1.beginRender ((j + 1) % 2 ^ 32)

/-- CYCLE_START: a subframe start that is due no later than the cycle start comes first, so its FRS_SUMMARY counts in the cycle that ends (R406). -/
def State.cycleTurn (s : State) : State :=
  let late : Int := (((s.base.ticks - s.blf.due) * 8 / 5 : Nat) : Int)
  if s.cycleDue && s.sco.armed && decide (s.nextStart + late ≤ (s.base.E : Int)) then s.subframeRow.cycleStartRow else s.cycleStartRow

/-- TEMP_LOST: no valid report from either port for a second, or none at all in the second after the cold release (R213). -/
def State.tempLostRow (s : State) : State :=
  let had := (List.range 2).any (fun p => (s.port p).temp.isSome)
  let never := (s.pnl.noTemp.map (fun t => decide (t + secTicks ≤ s.base.ticks))).getD false
  if (had || never) && s.panelTemp.isNone then
    let s1 := (List.range 2).foldl (fun (x : State) p => x.setPort p { x.port p with temp := none }) s
    ({ s1 with pnl := { s1.pnl with noTemp := none } } : State).onBase (·.raise pgSCO 20)
  else s

/-- A unit reset of scan-out: dark subframes up to the next slot 0; the first subframe after it has reference 0 (R211, R220). -/
def State.scoReset (s : State) : State := ({ s with sco := { s.sco with reset := true, refCut := true } } : State).resetBegins pgSCO

end Sys2Proof.Machine
end

