-- ==== Sys2Proof/Machine/Scanout.lean ====
section
/-! DEFINITION. One line of scan-out (R20, R192, R193, R196, R197, R206 to R212, R215, R334, R335, R338): read and check, overdrive, dither, veil, write back STALE, send. -/

namespace Sys2Proof.Machine

/-- Overdrive nodes: an unlisted node holds 32 × ti, the cold content. -/
def odDefault (k : Nat) : Nat := k % 33 * 32

/-- The key of a node. -/
def odKey (bank band ch pi ti : Nat) : Nat := ((bank * 8 + band) * 3 + ch) * 1089 + 33 * pi + ti

/-- A node. -/
def Sco.node (c : Sco) (k : Nat) : Nat := sget odDefault c.odt k

/-- The drive value of a channel (R212). -/
def State.overdrive (s : State) (ch prev tgt : Nat) : Nat :=
  let bank := s.base.get Reg.scoCtrl_OD_BANK
  let band := s.base.get Reg.scoStatus_BAND
  let n (i k : Nat) : Nat := s.sco.node (odKey bank band ch i k)
  let pi := prev / 32
  let pf := prev % 32
  let ti := tgt / 32
  let tf := tgt % 32
  let top := n pi ti * (32 - tf) + n pi (ti + 1) * tf
  let bot := n (pi + 1) ti * (32 - tf) + n (pi + 1) (ti + 1) * tf
  min 1023 ((top * (32 - pf) + bot * pf + 512) / 1024)

/-- The ordered dither (R215). -/
def dither (v x y j dbits : Nat) : Nat :=
  let sh := 10 - dbits
  if sh = 0 then v
  else
    let t := [0, 8, 2, 10, 12, 4, 14, 6, 3, 11, 1, 9, 15, 7, 13, 5].getD ((y + j / 4) % 4 * 4 + (x + j) % 4) 0
    min (1023 / 2 ^ sh) ((v + t / 2 ^ (4 - sh)) / 2 ^ sh) * 2 ^ sh

/-- The channels of a word. -/
def channelsOf (w : BitVec 32) : List Nat := [getBits w 9 0, getBits w 19 10, getBits w 29 20]

/-- The colour bits of three channels. -/
def colourBits (l : List Nat) : Nat := l.getD 0 0 + l.getD 1 0 * 2 ^ 10 + l.getD 2 0 * 2 ^ 20

/-- The overdrive reference of pixel (x, y) (R211). -/
def State.reference (s : State) (x y : Nat) : List Nat :=
  if s.sco.refZero then [0, 0, 0]
  else
    let w := s.storeWord ((s.j + 1) % 2) y x
    if getBits w 30 30 = 1 then (s.guard.prev.word x y (channelsOf w)).1 else channelsOf w

/-- A pixel as it leaves the veil stage, and its STALE bit. -/
def State.pixel (s : State) (grey : Bool) (x y : Nat) (w : BitVec 32) : Nat × Bool :=
  let tgt := if grey then [512, 512, 512] else channelsOf w
  let drive := if s.base.flag Reg.scoCtrl_OD_EN then
      let r := s.reference x y
      (List.range 3).map (fun c => s.overdrive c (r.getD c 0) (tgt.getD c 0)) else tgt
  let dith := drive.map (fun v => dither v x y s.j (s.base.get Reg.scoCtrl_DBITS))
  let v := s.guard.veil.word x y dith
  (colourBits v.1, v.2)

/-- Bits that have flipped in words of a line stay in the store. -/
def State.upset (s : State) (y : Nat) (flips : List (Nat × BitVec 32)) : State :=
  let buf := s.j % 2
  let one (m : Sparse (BitVec 32)) (f : Nat × BitVec 32) : Sparse (BitVec 32) :=
    if f.1 < s.sco.width then smod (fun _ => 0) m (buf * bufferSize + y * s.sco.width + f.1) (· ^^^ f.2) else m
  { s with spr := { s.spr with words := flips.foldl one s.spr.words } }

/-- The failures of a line (R208): codes with the x of the first failing word for LPAR. -/
def State.lineFailures (s : State) (y : Nat) (ws : List (BitVec 32)) (uncorrectable : Bool) : List (Nat × Nat) :=
  let stored := sget (fun _ => 0) s.spr.crcs (s.j % 2 * 16384 + y)
  let bad := (List.range ws.length).find? (fun x => !lparOk (ws.getD x 0) s.j)
  (if lineCrc y (s.j % 8) ws != stored then [(1, 0xFFFF)] else []) ++ (if uncorrectable then [(2, 0xFFFF)] else [])
    ++ (match bad with | some x => [(4, x)] | none => [])

/-- A failed line is counted; its faults are logged for the first 16 of a subframe. -/
def State.lineFails (s : State) (y : Nat) (fs : List (Nat × Nat)) : State :=
  if fs.isEmpty then s
  else
    let s1 := s.onBase (fun b => (b.count Reg.scoLineFail_COUNT 1).raise pgSCO 17)
    if 16 ≤ s.sco.logged then s1
    else
      ({ s1 with sco := { s1.sco with logged := s.sco.logged + 1 } } : State).onBase (fun b =>
        fs.foldl (fun x f => x.fault pgSCO f.1 (leBytes 4 s.j ++ leBytes 2 y ++ leBytes 2 f.2)) b)

/-! ## Rows of a line on a port (R333 to R335) -/

/-- The line's bit stream, cut into blocks of 32 bytes: pixel x holds R, G and B, most significant bit first. -/
def lineBlocks (words : List Nat) : List (List Byte) :=
  let bs := words.flatMap (fun w => msbBits 10 (bits w 9 0) ++ msbBits 10 (bits w 19 10) ++ msbBits 10 (bits w 29 20))
  let bytes (l : List Nat) : List Byte := (List.range 32).map (fun i => BitVec.ofNat 8 (ofMsb ((List.range 8).map (fun k => (l.drop (8 * i)).getD k 0))))
  (List.range (ceilDiv bs.length 256)).map (fun b => bytes ((bs.drop (256 * b)).take 256))

/-- Bytewise XOR. -/
def xorBytes (a b : List Byte) : List Byte := (a.zip b).map (fun p => p.1 ^^^ p.2)

/-- The data rows of a line on n logical lanes: in each row the payloads of the lanes in logical order, then the row parity. -/
def dataRows (blocks : List (List Byte)) (n : Nat) : List (List (List Byte)) :=
  (List.range (ceilDiv blocks.length n)).map (fun r =>
    let row := (List.range n).map (fun i => blocks.getD (r * n + i) (List.replicate 32 0))
    row ++ [row.foldl xorBytes (List.replicate 32 0)])

/-- The LINE row of a port (Table 12.3). -/
def State.lineRow (s : State) (p y : Nat) (veiled : Bool) : List Byte :=
  [0x01, (if y = 0 then 1 else 0) + (if veiled then 2 else 0)] ++ leBytes 2 y ++ leBytes 4 s.j ++ leBytes 1 (s.j % 8)
    ++ leBytes 1 (s.port p).now.map.length ++ leBytes 2 (rowBlocks s.sco.width)

/-- The port sends lines: it is in service, or its service ends at the next subframe start. -/
def State.serves (s : State) (p : Nat) : Bool := s.base.flag (Reg.prtStatus_IN_SERVICE p)

/-- A line on a port in service: the LINE row, then the data rows; each data row holds the payload of every active lane and of the parity spare. -/
def State.sendLine (s : State) (p y : Nat) (veiled : Bool) (words : List Nat) : State :=
  let t := (s.port p).now
  if !s.serves p || t.map.isEmpty then s
  else
    let lanes := t.map ++ t.par.toList
    (dataRows (lineBlocks words) t.map.length).foldl (fun (x : State) row =>
      x.onBase (fun b => b.placeRow p (b.rowFor p lineWait) (.data (lanes.zip row)))) (s.sendLineRow p (s.lineRow p y veiled))

/-- The TIMING row on every port that sends, with the LOOP blocks of its position. -/
def State.sendTiming (s : State) : State :=
  if s.sco.timing || s.pnl.linkDark.isSome then s
  else
    (List.range 2).foldl (fun (x : State) p => if (x.port p).sends then (x.sendLineRow p (x.timingRow p)).repeatLoops p else x)
      { s with sco := { s.sco with timing := true } }

/-- After the last active line: the signatures, the SIGNATURE row (none from a standby device), the TIMING row. -/
def State.subframeSent (s : State) : State :=
  let buf := s.j % 2
  let rsig := crc32c ((List.range s.sco.height).flatMap (fun y => leBytes 4 (sget (fun _ => 0) s.spr.crcs (buf * 16384 + y))))
  let tsig := s.sco.tsig ^^^ 0xFFFFFFFF
  let s1 := ({ s with sco := { s.sco with sigs := (⟨s.j, rsig, tsig⟩ :: s.sco.sigs).take 4 } } : State).onBase (fun b =>
    ((b.setWord Reg.scoSigJ (BitVec.ofNat 32 s.j)).setWord Reg.scoRsig (BitVec.ofNat 32 rsig)).setWord Reg.scoTsig (BitVec.ofNat 32 tsig))
  let s2 := if s.sco.standby then s1 else
    (List.range 2).foldl (fun (x : State) p =>
      if x.serves p then x.sendLineRow p ([0x05, 0, 0, 0] ++ leBytes 4 s.j ++ leBytes 4 rsig ++ leBytes 4 tsig) else x) s1
  (s2.sendTiming).ownSignature s.j rsig false

/-- LINE_SCANOUT, with what the guard's checks find as its words are read (R238): line y of a lit subframe, in order and no earlier than its start; a standby device reads and checks it and sends nothing. -/
def State.lineRowScan (s : State) (y : Nat) (u : LineUpset) : State :=
  if !s.sco.running || s.sco.dark.isSome || s.pnl.linkDark.isSome || y != s.sco.line || s.sco.height ≤ y || (s.base.E : Int) < s.sco.lineAt y then s
  else
    let s1 := (u.guard.foldl State.guardBad s).upset y u.flips
    let ws := (List.range s.sco.width).map (fun x => s1.storeWord (s.j % 2) y x)
    let fs := s1.lineFailures y ws u.uncorrectable
    let s2 := (s1.lineFails y fs).onBase (·.count Reg.scoSecded_COUNT u.corrected)
    let grey := !fs.isEmpty
    let px := (List.range ws.length).map (fun x => s1.pixel grey x y (ws.getD x 0))
    let out : List (Nat × Bool) := if u.veilDisagree then px.map (fun _ => (colourBits [512, 512, 512], true)) else px
    let s3 := if u.veilDisagree then s2.veilDisagree s.j y else s2
    let stale := (out.filter (·.2)).length
    let back := (ws.zip out).map (fun e => setBits e.1 30 30 (if e.2.2 then 1 else 0))
    let s4 : State := { s3 with
      spr := { s3.spr with words := storeWords s3.spr.words (s.j % 2 * bufferSize + y * s.sco.width) back }
      sco := { s3.sco with
        line := y + 1, stale := s3.sco.stale + stale
        tsig := crcRun polyC s3.sco.tsig (out.flatMap (fun e => leBytes 4 e.1)) } }
    let words := out.map (·.1)
    let s5 := if s.sco.standby || !(s.serves 0 || s.serves 1) then s4 else
      (List.range 2).foldl (fun (x : State) p => x.sendLine p y (decide (0 < stale)) words) (s4.onBase (·.emit (.line y (words.map (BitVec.ofNat 32)))))
    let s6 := s5.advanceRender
    if y + 1 = s.sco.height then s6.subframeSent else s6

/-- In a dark subframe the TIMING row starts where line HEIGHT would (R338). -/
def State.darkTiming (s : State) : State :=
  if s.sco.running && s.sco.dark.isSome && !s.sco.timing && decide (s.sco.lineAt s.sco.height ≤ (s.base.E : Int)) then s.sendTiming else s

/-! ## Overdrive tables (R214) -/

/-- OD_DATA: a node of the bank not in force, and the address advances. The register itself stores nothing: a read takes the node at the address. -/
def State.odDataWrite (s : State) (a : RegWr) : State :=
  let b := s.base
  let bank := b.get Reg.scoOdAddr_BANK
  let pi := b.get Reg.scoOdAddr_PI
  let ti := b.get Reg.scoOdAddr_TI
  let k := odKey bank (b.get Reg.scoOdAddr_BAND) (b.get Reg.scoOdAddr_CH) pi ti
  ((s.onBase (·.setWord Reg.scoOdData (BitVec.ofNat 32 (s.sco.node k)))).guardedWrite Reg.scoOdData a (bank == b.get Reg.scoCtrl_OD_BANK) (fun _ _ new x =>
    ({ x with sco := { x.sco with odt := sput odDefault x.sco.odt k (new % 2048) } } : State).onBase (fun c =>
      if ti < 32 then c.put Reg.scoOdAddr_TI (ti + 1) else (c.put Reg.scoOdAddr_TI 0).put Reg.scoOdAddr_PI (if pi < 32 then pi + 1 else 0)))).onBase
    (fun c => c.setWord Reg.scoOdData (coldWord Reg.scoOdData))

end Sys2Proof.Machine
end

