-- ==== Sys2Proof/Machine/Tick.lean ====
section
/-! DEFINITION. What time and the admission unit do on their own: one 1.6 ns tick of the device (R408 to R411, R224) and a grant of leave (R496) with what its holder does then. -/

namespace Sys2Proof.Machine

/-- SXT_NOW passes from 0xFFFF_FFFF to 0 when the accumulator goes from `a` to `b`. -/
def wraps (a b : Nat) : Bool := a / 2 ^ 64 != b / 2 ^ 64

/-- The accumulator after the next tick: the increment and the slew step, modulo 2⁹⁶. -/
def State.nextAcc (s : State) : Nat := (((s.base.acc : Int) + s.sxt.inc + slewStep s.sxt.slew) % (2 ^ 96 : Nat)).toNat

/-- The Sextant runs: its page is BUSY. -/
def State.sxtRuns (s : State) : Bool := s.base.ownState pgSXT == uBUSY

/-- One tick of the Sextant: time, slew, the freshness accumulator (which the slew never enters), WRAP. -/
def State.sxtAdvance (s : State) : State :=
  let a := s.nextAcc
  let rest := s.sxt.slew - slewStep s.sxt.slew
  let b1 : Base := { s.base with acc := a }
  let b2 := if wraps s.base.acc a then b1.raise pgSXT 16 else b1
  { s with
    base := if s.sxt.slew != 0 && rest == 0 then b2.putFlag Reg.sxtStatus_SLEWING false else b2
    sxt := { s.sxt with slew := rest }
    guard := { s.guard with accum := s.guard.accum + s.sxt.inc } }

/-- One device tick: the Sextant while it runs, the model's count of real time, the serial lanes, and the TIMING row that falls due in a dark subframe. -/
def State.tick (s : State) : State :=
  let s1 := if s.sxtRuns then s.sxtAdvance else s
  (({ s1 with base := { s1.base with ticks := s1.base.ticks + 1 } } : State).lanesTick).darkTiming

/-- WRAP: the tick at which SXT_NOW wraps. -/
def State.wrapRow (s : State) : State := if s.sxtRuns && wraps s.base.acc s.nextAcc then s.tick else s

/-- SLEW_END: the last tick of a slew. -/
def State.slewEndRow (s : State) : State :=
  if s.sxtRuns && s.sxt.slew != 0 && s.sxt.slew - slewStep s.sxt.slew == 0 then s.tick else s

/-! ## Grants -/

/-- What a requester does with its grant (Table 18.4); codec, 2D, paging, scrub, retirement and the time port look for theirs when they act. -/
def State.granted (s : State) (l : Leave) : State :=
  if l.rid = ridPort 0 then s.portTrains 0
  else if l.rid = ridPort 1 then s.portTrains 1
  else if l.rid = ridLane then s.retrainGranted l.tag
  else if l.rid = ridPair then s.pairGranted
  else if l.rid = ridZone then s.zoneGranted l.tag
  else if l.rid = ridCal then s.calGranted
  else if l.rid = ridWatch then s.watchGranted
  else s

/-- LEAVE_GRANT: the oldest request, when it fits. -/
def State.leaveGrantRow (s : State) : State :=
  match s.adm.queue with
  | [] => s
  | l :: q => if (s.grant).adm.queue = q then (s.grant).granted l else s

end Sys2Proof.Machine
end

