-- ==== Sys2Proof/Machine/QueryUnit.lean ====
section
/-! DEFINITION. The probes and queries of R46: a write starts one in the writer's own copy, and a result becomes ready there (R68, R244, R303, Table 19.7). -/

namespace Sys2Proof.Machine

/-- The number of a query. -/
def queryNum : Query → Nat
  | .probe => 0 | .frs => 1 | .domMap => 2 | .cal => 3

/-- The register whose write starts a query, and the register that shows VALID. -/
def queryReg : Query → Nat
  | .probe => Reg.cmpProbeXy | .frs => Reg.frsQuery | .domMap => Reg.domMapQuery | .cal => Reg.calQuery
def queryOut : Query → Nat
  | .probe => Reg.cmpProbeOut | .frs => Reg.frsQueryAge | .domMap => Reg.domMapEntry | .cal => Reg.calQueryOut

/-- A write of a query register: VALID of the host's result reads 0, and the query is under way. -/
def State.queryWrite (s : State) (q : Query) (a : RegWr) : State :=
  s.write (queryReg q) a (fun _ _ _ x =>
    ({ x with queries := setInsert x.queries (4 * a.host.toNat + queryNum q) } : State).onBase
      (·.putFlag ⟨hostCopy a.host.toNat (queryOut q), 31, 31⟩ false))

/-- A field of host h's copy of a query register. -/
def State.queryField (s : State) (h : Nat) (f : FieldRef) : Nat := s.base.get ⟨hostCopy h f.key, f.msb, f.lsb⟩

/-- The result word of a probe (R68): w under the live values, or RANGE. -/
def State.probeWord (s : State) (h : Nat) : Nat :=
  let x := s.queryField h Reg.cmpProbeXy_X
  let y := s.queryField h Reg.cmpProbeXy_Y
  if x < s.base.get Reg.cmpSize_WIDTH ∧ y < s.base.get Reg.cmpSize_HEIGHT then
    2 ^ 31 + compassW s.base.geometry x y (s.queryField h Reg.cmpProbeXy_C)
  else 2 ^ 31 + 2 ^ 16

/-- The context that host h's query names, if it may be shown: LIVE, and the reading tenant's own; with what the guard holds of it, from its slot 0 on (R233). -/
def State.queriedCtx (s : State) (h : Nat) : Option (Option GCtx) :=
  let k := s.queryField h Reg.frsQuery_HOST
  let hand := s.queryField h Reg.frsQuery_CONTEXT
  if 40959 < hand ∨ (h ≠ s.base.owner ∧ k ≠ h) then none
  else (s.scenes.live.ctx (objKey k hand)).map (fun c => (sget (fun _ => none) s.guard.ctxs (objKey k hand)).filter (fun g => g.oid == c.oid))

/-- The two result words of a guard query (Table 8.5). A context bad in both copies is veiled in HATCH (R238). AGE, VEIL and BOUND of a context that is LIVE since a cut whose slot 0 has not begun are free values, and it is not stale yet (log 10). -/
def State.frsWords (s : State) (h : Nat) : Nat × Nat :=
  match s.queriedCtx h with
  | none => (2 ^ 31 + 2 ^ 30, 0)
  | some none => (2 ^ 31 + Config.freeReading Reg.frsQueryAge s.base.ticks % 2 ^ 24, Config.freeReading Reg.frsQueryBound s.base.ticks % 2 ^ 18)
  | some (some g) =>
    (2 ^ 31 + (if g.stale then 2 ^ 29 else 0) + g.age % 2 ^ 24, (if g.bad then 0 else g.veil % 4) * 2 ^ 16 + g.bound % 2 ^ 16)

/-- The result word of a map query (Table 10.5). -/
def State.mapWord (s : State) (h : Nat) : Nat :=
  let p := s.queryField h Reg.domMapQuery_PAGE
  if s.dome.lent.contains p then 2 ^ 31 + 2 ^ 30
  else if s.dome.withdrawn.contains p then 2 ^ 31 + 2 ^ 29
  else 2 ^ 31 + s.dome.frameOf p % 2 ^ 16

/-- The result word of a trim query (Table 19.7). -/
def State.trimWord (s : State) (h : Nat) : Nat :=
  let t := s.queryField h Reg.calQuery_TARGET
  let i := s.queryField h Reg.calQuery_INDEX
  2 ^ 31 + ofSigned 8 (s.cal.dryTrim t i) * 2 ^ 8 + ofSigned 8 (s.cal.trim t i)

/-- QUERY_RESULT: the result of a query under way is in the host's copy, and VALID is set. -/
def State.queryResultRow (s : State) (h : Nat) (q : Query) : State :=
  if !s.queries.contains (4 * h + queryNum q) then s
  else
    let s1 : State := { s with queries := setErase s.queries (4 * h + queryNum q) }
    let put (k w : Nat) (x : State) : State := x.onBase (·.setWord (hostCopy h k) (BitVec.ofNat 32 w))
    match q with
    | .probe => put Reg.cmpProbeOut (s.probeWord h) s1
    | .frs => put Reg.frsQueryBound (s.frsWords h).2 (put Reg.frsQueryAge (s.frsWords h).1 s1)
    | .domMap => put Reg.domMapEntry (s.mapWord h) s1
    | .cal => put Reg.calQueryOut (s.trimWord h) s1

end Sys2Proof.Machine
end

