-- ==== Sys2Proof/Machine/Read.lean ====
section
/-! DEFINITION. Reads of registers (R32, R33, R43, R44, R46, R574): what a register reads, including every field that hardware keeps live. -/

namespace Sys2Proof.Machine

/-- A Bool as a bit at a position. -/
def bitAt (c : Bool) (n : Nat) : Nat := if c then 2 ^ n else 0

/-! ## The header and the root page -/

/-- The children of a page that a host sees, in chain order (R44). -/
def Base.kidsFor (b : Base) (h p : Nat) : List Nat := (kidsOf p).filter (b.visible h)

/-- UNIT_NEXT for a reading host: the next visible sibling. -/
def Base.nextFor (b : Base) (h p : Nat) : Nat :=
  match (pageInfo p).bind (·.parent) with
  | none => 0
  | some q => ((b.kidsFor h q).find? (fun c => decide (p < c))).getD 0

/-- The bifurcation code of a number of hosts. -/
def bifurCode (n : Nat) : Nat := match n with | 4 => 2 | 2 => 1 | _ => 0

/-- Live registers of the header and of the root page, for a reading host. -/
def Base.headerWord (b : Base) (h p off : Nat) : Option Nat :=
  if off = 0x00C then some ((b.kidsFor h p).length * 2 ^ 16 + (b.kidsFor h p).headD 0)
  else if off = 0x010 then some (b.nextFor h p)
  else if off = 0x014 then some (b.stateWord p)
  else if off = 0x018 then some (b.eventWord p)
  else if p = 0 ∧ off = 0x040 then some (bitAt (h == b.owner) 31 + h * 2 ^ 24 + bifurCode b.nhosts * 2 ^ 16)
  else none

/-! ## Power domains (Table 18.3, R494) -/

/-- The release step that first needs a power domain. -/
def domainStep (d : Nat) : Nat :=
  if d = 0 then 0 else if d = 1 then 2 else if d ≤ 6 then 8 else if d ≤ 10 then 5 else if d ≤ 14 then 7 else if d ≤ 23 then 4
  else if d ≤ 112 then 5 else if d ≤ 117 then 3 else if d = 130 then 3 else 6

/-- The pages of a domain that a repair can retire, all of them when the domain holds nothing else. -/
def domainPages (d : Nat) : List Nat :=
  if 25 ≤ d ∧ d ≤ 40 then [pgENG (d - 25)]
  else if 45 ≤ d ∧ d ≤ 112 then [pgSPC (d - 45)]
  else if 120 ≤ d ∧ d ≤ 127 then (List.range 4).map (fun i => pgLNK (4 * (d - 120) + i))
  else if d = 128 then (List.range 4).map (fun i => pgLNK (32 + i))
  else if d = 129 then (List.range 8).map (fun i => pgLNK (36 + i))
  else []

/-- The domains off 5 µs after the trigger of the dark sequence (Table 18.8): Helm, host units, Dome, codec, Spire. -/
def darkOff (d : Nat) : Bool := decide (2 ≤ d ∧ d ≤ 5 ∨ 7 ≤ d ∧ d ≤ 10 ∨ 15 ≤ d ∧ d ≤ 112)

/-- A dark sequence has run for a number of device ticks. -/
def State.inDark (s : State) (n : Nat) : Bool := (s.pwr.dark.map (fun x => decide (x.at_ + n ≤ s.base.ticks))).getD false

/-- A power domain is on: its step has been reached, and neither the dark sequence nor retirement nor a failed stack has switched it off. -/
def State.domainOn (s : State) (d : Nat) : Bool :=
  if d = 0 then true
  else
    !s.pwr.held && !(s.inDark 3125 && darkOff d) && decide (domainStep d ≤ s.base.get Reg.rstStep_STEP)
      && !(decide (7 ≤ d ∧ d ≤ 14) && decide (s.base.nhosts ≤ (d - 7) % 4))
      && !(decide (16 ≤ d ∧ d ≤ 23) && s.base.ownState (pgSTK (d - 16)) == uFAULT)
      && ((domainPages d).isEmpty || (domainPages d).any (fun p => s.base.ownState p != uRETIRED))

/-- The domains that hold a page; none: the root, which the table does not place. -/
def pageDomains (p : Nat) : List Nat :=
  if p = 0 then [] else if p = 1 then [2, 3, 4, 5] else if p = 2 then [1] else if p = 3 then [6] else if p ≤ 9 then [0]
  else if p ≤ 0x00B then [130] else if p = 0x00C then [129] else if p < 0x014 then [11 + p % 4] else if p < 0x020 then [7 + p % 4]
  else if p = 0x020 then [15] else if p ≤ 0x028 then [16 + (p - 0x021)] else if p = 0x030 then [24] else if p ≤ 0x040 then [25 + (p - 0x031)]
  else if p ≤ 0x043 then [117] else if p = 0x048 then [118, 119] else if p ≤ 0x04A then [118 + (p - 0x049)]
  else if p < 0x070 then [120 + (p - 0x050) / 4] else if p < 0x074 then [128] else if p < 0x07C then [129] else if p ≤ 0x090 then [131]
  else if p = 0x100 then [41] else if p ≤ 0x104 then [41 + (p - 0x101)] else if p < 0x200 then [45 + (p - 0x110)] else [45 + (p - 0x200) / 4]

/-- A page is powered. -/
def State.pageOn (s : State) (p : Nat) : Bool := (pageDomains p).isEmpty || (pageDomains p).any s.domainOn

/-! ## Live registers of the units -/

/-- Registers of pages 0x001 to 0x00C. -/
def State.liveLow (s : State) (h key : Nat) : Option Nat :=
  let b := s.base
  if key / 4096 = 1 ∧ 0x100 ≤ key % 4096 ∧ key % 4096 < 0x300 ∧ (key % 4096 - 0x100) / 0x80 ≠ h then some 0
  else if key / 4096 = 0x020 ∧ 0x100 ≤ key % 4096 ∧ (hostOnlyReg key).isSome ∧ hostOnlyReg key ≠ some h ∧ h ≠ b.owner then some 0
  else if key = Reg.kepSerialLo then some (Config.serial.toNat % 2 ^ 32)
  else if key = Reg.kepSerialHi then some (Config.serial.toNat / 2 ^ 32)
  else if key = Reg.wchStatus then
    some (match s.wch.test with
      | some t => bitAt t.runs 31 + bitAt (!t.runs && (s.asks ridWatch 0 || (t.cls == 4 && s.asks ridLane (t.target - 0x050)))) 30 + bitAt (s.spr.sweep == 1) 29 + t.cls * 2 ^ 16 + t.target % 2 ^ 16
      | none => match s.bcn.watch with
        | some pr => 2 ^ 31 + bitAt (s.spr.sweep == 1) 29 + 5 * 2 ^ 16 + pgZON (pr.1 / 32)
        | none => bitAt (s.spr.sweep == 1) 29)
  else if key = Reg.admStatus then some (bitAt s.blocked 31 + bitAt (decide (1 ≤ b.get Reg.thmStatus_LEVEL)) 30 + s.effective % 2 ^ 10 * 2 ^ 16 + s.adm.inUse % 2 ^ 10)
  else if key = Reg.admQueue then some ((match s.adm.queue with | [] => 0xFF | l :: _ => l.rid) * 2 ^ 8 + min 255 s.adm.queue.length)
  else if key / 4096 = 5 ∧ 0x060 ≤ key % 4096 ∧ key % 4096 < 0x074 then
    let k := (key % 4096 - 0x060) / 4
    some (((List.range 32).map (fun i => bitAt (decide (32 * k + i < 132) && s.domainOn (32 * k + i)) i)).foldl (· + ·) 0)
  else if key = Reg.rstCause then some (setBits (b.word key) 7 0 (min 255 s.warms10.length)).toNat
  else if key = Reg.rstWdogLeft then
    let full := b.get Reg.rstWdog_TIMEOUT
    some (if b.flag Reg.rstWdog_EN && s.helmRuns then full - (b.ticks - s.pwr.wdogAt) / msTicks else full)
  else if key = Reg.calStatus then
    some (match s.cal.run with
      | some r => match r.granted with
        | some t => (setBits (b.word key) 29 28 (calTarget r.targets s.sco.rate (b.ticks - t))).toNat
        | none => (b.word key).toNat
      | none => (b.word key).toNat)
  else if key = Reg.sxtNow then some b.now
  else if key = Reg.sxtFrac then some b.frac
  else if key = Reg.sxtWraps then some (b.E / 2 ^ 32)
  else if key = Reg.sxtAdj then some (ofSigned 32 (Int.tdiv s.sxt.slew (2 ^ 32 : Nat)))
  else none

/-- Registers of the host pages 0x014 to 0x01F and of the Dome. -/
def State.liveHost (s : State) (key : Nat) : Option Nat :=
  let p := key / 4096
  let o := key % 4096
  let h := p % 4
  if key = Reg.cmdBacklog h then some (s.backlog h % 2 ^ 32)
  else if key = Reg.useSlot h then some (s.slots h)
  else if 0x014 ≤ p ∧ p < 0x018 ∧ 0x200 ≤ o ∧ (o - 0x200) % 0x20 = 0x1C then
    let x := s.ring h ((o - 0x200) / 0x20)
    some (if x.held then (x.flight.filter (fun d => !d.pendingB && !d.drop)).length else 0)
  else if key = Reg.txnStatus h then some (s.waiting h * 2 ^ 16 + ((s.openTxns h).filter (fun t => t.2.closing)).length)
  else if key = Reg.twdStatus h then
    some (match s.twdOp h with
      | some t => 2 ^ 31 + bitAt (!t.writing && s.twdWaitOrder h t) 30 + bitAt (!t.writing && s.twdWaitLeave h t) 29 + bitAt (!t.staged) 28 + s.base.get (Reg.twdStatus_ROWS h)
      | none => s.base.get (Reg.twdStatus_ROWS h))
  else if key = Reg.domFree then some s.dome.freeCount
  else if key = Reg.domRetiring then some s.dome.retiring
  else if key = Reg.domSpilled then some s.dome.spilledCount
  else if key = Reg.domFrames then some (s.dome.retired.length * 2 ^ 16 + (1024 - s.dome.lent.length - s.wch.gone.length))
  else if p = 0x020 ∧ 0x100 ≤ o ∧ o < 0x140 ∧ o % 0x10 = 0x0C then some (s.dome.slotsUsed ((o - 0x100) / 0x10))
  else none

/-- The lane of a page has a transmitter. -/
def laneSends (l : Nat) : Bool := decide (l < 32 ∨ (36 ≤ l ∧ l < 40))

/-- Registers of the codec, scan-out and lane pages. -/
def State.liveUnit (s : State) (h key : Nat) : Option Nat :=
  let p := key / 4096
  let o := key % 4096
  if key = Reg.cdcQueue then
    some (min 65535 s.codec.decodes.length * 2 ^ 16 + min 65535 (s.codec.waiting.length + ((List.range 16).filter s.engineWaits).length))
  else if 0x031 ≤ p ∧ p ≤ 0x040 ∧ (o = 0x040 ∨ o = 0x044) then
    some (match (s.engine (p - 0x031)).job with
      | none => 0
      | some j => match s.decodeOf j.dec with
        | none => 0
        | some d =>
          if o = 0x044 then
            (if h = s.base.owner ∨ h = d.host then
              j.ty * 2 ^ 16 + (j.tx + (if s.engineWaits (p - 0x031) then 0 else Config.freeReading key s.base.ticks % j.n)) % 2 ^ 16 else 0)
          else 2 ^ 31 + bitAt (s.engineWaits (p - 0x031)) 30 + d.host * 2 ^ 28 + d.plane * 2 ^ 16 + (if h = s.base.owner ∨ h = d.host then d.layer else 0))
  else if key = Reg.scoNextCut then
    some (if s.sco.running then (s.nextCut % 2 ^ 32).toNat else if s.sco.armed then (s.wallAt (s.wall7After s.sco.startAt) % 2 ^ 32).toNat else 0)
  else if key = Reg.scoOdData then
    let b := s.base
    some (s.sco.node (odKey (b.get Reg.scoOdAddr_BANK) (b.get Reg.scoOdAddr_BAND) (b.get Reg.scoOdAddr_CH) (b.get Reg.scoOdAddr_PI) (b.get Reg.scoOdAddr_TI)))
  else if key = Reg.scoPanelTemp then some (match s.panelTemp with | some t => 2 ^ 16 + ofSigned 16 t | none => 0)
  else if 0x050 ≤ p ∧ p < 0x07C ∧ o = 0x048 ∧ !laneSends (p - 0x050) then some 0
  else if 0x050 ≤ p ∧ p < 0x07C ∧ o = 0x04C then
    some (if laneSends (p - 0x050) then 0
      else if s.base.flag (Reg.lnkRxeq_ADAPT (p - 0x050)) && s.base.ownState p != uOFF then (setBits (s.base.word key) 19 16 (Config.freeReading key s.base.ticks)).toNat
      else (setBits (s.base.word key) 19 16 (s.base.get (Reg.lnkRxeq_CTLE (p - 0x050)))).toNat)
  else if 0x050 ≤ p ∧ p < 0x07C ∧ 0x050 ≤ o ∧ o < 0x05C then
    some (if laneSends (p - 0x050) || s.base.ownState p == uOFF then 0
      else Config.freeReading key (if s.base.flag (Reg.lnkRxeq_FREEZE (p - 0x050)) then (s.lane (p - 0x050)).froze else s.base.ticks) % 2 ^ 32)
  else none

/-- What hardware shows in a register at the moment of a read, where that is not what the register stores. -/
def State.liveWord (s : State) (h key : Nat) : Option Nat :=
  match s.base.headerWord h (key / 4096) (key % 4096) with
  | some w => some w
  | none => match s.liveLow h key with
    | some w => some w
    | none => match s.liveHost key with
      | some w => some w
      | none => s.liveUnit h key

/-! ## Reads -/

/-- The value of a register for a reading host: 0 on an absent or hidden page and at an offset without a register. -/
def State.readWord (s : State) (h key : Nat) : BitVec 32 :=
  if s.base.visible h (key / 4096) && (descAt key).isSome then
    match s.liveWord h key with
    | some w => BitVec.ofNat 32 w
    | none => s.base.word (storeKey h key)
  else 0

/-- A register without its RC fields. -/
def clearRc (key : Nat) (w : BitVec 32) : BitVec 32 :=
  w &&& ~~~(BitVec.ofNat 32 (((descAt key).map (fun d => d.maskOf (· == .rc))).getD 0))

/-- RC_READ: the answer goes to the host; a read with all four byte enables clears RC fields. -/
def State.rcReadRow (s : State) (h : Nat) (page off : Nat) (be : BitVec 4) : State :=
  let key := page * 4096 + off / 4 * 4
  s.onBase (fun b =>
    let b1 := b.emit (.readData h page off (s.readWord h key))
    if be = 0xF ∧ b.visible h page then b1.setWord key (clearRc key (b1.word key)) else b1)

/-- CRC-8 with polynomial 0x07 over bytes, highest bit first, from 0. -/
def crc8 (bs : List Byte) : Byte :=
  bs.foldl (fun (a : Byte) x => (List.range 8).foldl (fun (a : Byte) _ => if a.msb then (a <<< 1) ^^^ 0x07#8 else a <<< 1) (a ^^^ x)) 0

/-- The PEC of a sideband read: over the address bytes, command 0x10, PAGE, OFFSET and the register (R574; that the CRC starts at 0 is PRESUMED from SMBus, log 54). -/
def State.sidebandPec (s : State) (page off : Nat) (v : BitVec 32) : Byte :=
  let a := 2 * (0x58 + s.pwr.sbAddr)
  crc8 (leBytes 1 a ++ [0x10] ++ leBytes 2 page ++ leBytes 2 off ++ leBytes 1 (a + 1) ++ leBytes 4 v.toNat)

/-- What the sideband target reads from a register. -/
def State.sidebandWord (s : State) (page off : Nat) : BitVec 32 :=
  if s.pageOn page then s.readWord s.base.owner (page * 4096 + off / 4 * 4) else 0

/-- SIDEBAND_READ: as the owner host reads, without side effects; a page whose domain is off reads 0; without power nothing answers (R574). -/
def State.sidebandRow (s : State) (page off : Nat) : State :=
  if s.pwr.off then s.onBase (·.emit (.sideband none))
  else s.onBase (·.emit (.sideband (some (s.sidebandWord page off, s.sidebandPec page off (s.sidebandWord page off)))))

end Sys2Proof.Machine
end

