-- ==== Sys2Proof/Machine/RegWrite.lean ====
section
/-! DEFINITION. Writes of registers: the header (R45, R54 to R57), UNIT_CTRL of every page, quotas (R121), and the one place that gives every register of BAR0 its behaviour under a write. -/

namespace Sys2Proof.Machine

/-! ## The header -/

/-- UNIT_EVENT: bits written 1 are cleared, and an enabled event that remains is announced again (R56). -/
def State.eventWrite (s : State) (p : Nat) (a : RegWr) : State :=
  s.write (hdr p 0x18) a (fun _ _ _ x => x.onBase (fun b => b.msixAll (b.eventMsgs p (s.base.active p) (b.active p) true)))

/-- UNIT_EVENT_EN: events that become enabled are announced (R56). -/
def State.eventEnWrite (s : State) (p : Nat) (a : RegWr) : State :=
  s.write (hdr p 0x1C) a (fun _ _ _ x => x.onBase (fun b => b.msixAll (b.eventMsgs p (s.base.active p) (b.active p) false)))

/-- UNIT_FAULT: clearing VALID clears CODE and re-arms the latch (Table 2.3). -/
def State.faultWrite (s : State) (p : Nat) (a : RegWr) : State :=
  s.write (hdr p 0x24) a (fun _ old new x => if old.testBit 31 && !new.testBit 31 then x.onBase (·.setWord (hdr p 0x24) 0) else x)

/-! ## Unit resets and enables -/

/-- A unit reset of an engine: its job goes back to the front of the queue, a FAULT ends (R155). -/
def State.engineReset (e : Nat) (s : State) : State :=
  let s1 := if (s.engine e).job.isSome then (s.requeue e).groupLeave else s
  (if s1.base.ownState (pgENG e) = uFAULT then s1.setUnit (pgENG e) uREADY else s1).refreshEngine e

/-- An engine's ENABLE: OFF once it has no job; back in dispatch when it is enabled again. -/
def State.engineEnabled (e : Nat) (on : Bool) (s : State) : State :=
  if on && s.base.ownState (pgENG e) == uOFF && decide (5 ≤ s.base.get Reg.rstStep_STEP) then s.onBase (·.setOwn (pgENG e) uREADY)
  else s.refreshEngine e

/-- A unit reset of the codec group reaches its engines (Table 2.3). -/
def State.codecReset (s : State) : State := (List.range 16).foldl (fun x e => x.engineReset e) s

/-- A unit reset of a 2D engine (R322, R326): the operation stops at once, its transaction rolls back as by TX_ABORT, a FAULT ends. -/
def State.twdReset (h : Nat) (s : State) : State :=
  let s1 := match s.twdOp h with
    | some o => (s.abortTxn h o.txn s.rings.nextId stRESET).drainHost h
    | none => s
  (if s1.base.ownState (pgTWD h) = uFAULT then s1.setUnit (pgTWD h) uREADY else s1).refreshHost h

/-- A test result that the state does not determine. -/
def State.freeBit (s : State) : Bool := Config.freeNat s.base.fresh % 2 == 1

/-- The unit reset of one page; the result of the guard's veil test and the sensor readings of a re-test are given. -/
def State.pageReset (testOk : Bool) (retest : List Sample) (s : State) (p : Nat) : State :=
  if p = pgCMP then s.cmpReset
  else if p = pgFRS then s.guardReset testOk
  else if p = pgSCO then s.scoReset
  else if p = pgPNL then s.panelReset
  else if p = pgPRT 0 ∨ p = pgPRT 1 then s.portReset (p - 0x049)
  else if 0x050 ≤ p ∧ p < 0x07C then (s.laneReset (p - 0x050)).lanesFollow (p - 0x050)
  else if p = pgBCN then s.beaconReset
  else if 0x081 ≤ p ∧ p ≤ 0x08C then s.zoneReset (p - 0x081)
  else if p = pgBLF then s.belfryReset
  else if p = pgPAR then s.pairReset
  else if p = pgTHM then s.thmReset retest
  else if p = pgCAL then s.calReset
  else if p = pgSXT ∨ p = pgETH then s.ethReset
  else if 0x010 ≤ p ∧ p < 0x014 then s.hstReset (p % 4)
  else if 0x014 ≤ p ∧ p < 0x01C then s.cmdReset (p % 4)
  else if 0x01C ≤ p ∧ p < 0x020 then s.twdReset (p % 4)
  else if p = pgCDC then s.codecReset
  else if 0x031 ≤ p ∧ p < 0x041 then s.engineReset (p - 0x031)
  else if 0x100 ≤ p then s.spireReset p
  else s

/-- A unit reset of a page and its subtree (Table 2.3); that of the root reaches every page, and its RESET reads 1 until all of them have completed. -/
def State.unitReset (testOk : Bool) (retest : List Sample) (p : Nat) (s : State) : State :=
  if p = 0 then
    let s1 := ((kidsOf 0).filter s.base.present).foldl (State.pageReset testOk retest) s
    let open_ := ((below 5 0).filter s1.base.present).filter s1.inReset
    s1.onBase (fun b => ({ b with rootWaits := open_ } : Base).putFlag ⟨hdr 0 0x20, 1, 1⟩ (!open_.isEmpty))
  else s.pageReset testOk retest p

/-- A cell is OFF while its own ENABLE is 0 (R39, Table 2.4; what its cluster renders does not change, log 21). -/
def State.cellEnabled (p : Nat) (on : Bool) (s : State) : State :=
  if on then (if s.base.ownState p = uOFF then s.onBase (·.setOwn p (if s.spr.rendering && s.renders ((p - 0x200) / 4) then uBUSY else uREADY)) else s)
  else s.setUnit p uOFF

/-- What a change of ENABLE does at once; where nothing stands here, the unit looks at ENABLE when it acts. -/
def State.pageEnabled (p : Nat) (on : Bool) (s : State) : State :=
  if p = pgPRT 0 ∨ p = pgPRT 1 then s.portEnabled (p - 0x049) on
  else if 0x050 ≤ p ∧ p < 0x07C then (if on then s.laneEnabled (p - 0x050) on else (s.laneEnabled (p - 0x050) on).lanesFollow (p - 0x050))
  else if p = pgBCN then s.beaconEnabled on
  else if 0x081 ≤ p ∧ p ≤ 0x08C then s.zoneEnabled (p - 0x081) on
  else if p = pgBLF then s.belfryEnabled on
  else if p = pgETH then s.ethEnabled on
  else if p = pgPAR then s.pairEnabled on
  else if 0x031 ≤ p ∧ p < 0x041 then s.engineEnabled (p - 0x031) on
  else if 0x200 ≤ p then s.cellEnabled p on
  else s

/-- A write of UNIT_CTRL of any page. -/
def State.ctrlWrite (s : State) (p : Nat) (a : RegWr) (testOk : Bool) (retest : List Sample) : State :=
  s.unitCtrl p a (State.pageEnabled p) (State.unitReset testOk retest p)

/-- A write of UNIT_CTRL where nothing gives the results of the tests that a unit reset makes: the guard's is a free value, and no sensor is re-tested. -/
def State.ctrlWriteFree (s : State) (p : Nat) (a : RegWr) : State := (s.ctrlWrite p a s.freeBit []).onBase Base.draw

/-! ## Quotas (R121) -/

/-- The resource of a quota register. -/
def quotaOf (off : Nat) : Option Nat :=
  if off = 0x100 then some 0 else if off = 0x104 then some 1 else if off = 0x108 then some 2 else if off = 0x10C then some 3
  else if off = 0x110 ∨ off = 0x114 then some 4 else if off = 0x118 ∨ off = 0x11C then some 5 else none

/-- The largest LIMIT of a resource. -/
def limitMost (r : Nat) : Nat := if r = 3 then 256 else quotaTotal r

/-- Quotas that R121 does not allow. -/
def State.quotaBad (s : State) (r : Nat) : Bool :=
  let hs := List.range s.base.nhosts
  hs.any (fun h => decide (s.base.get (limitOf h r) < s.base.get (reserveOf h r) ∨ limitMost r < s.base.get (limitOf h r))) ||
    decide (quotaTotal r < (hs.map (fun h => s.base.get (reserveOf h r) + overUse (s.used h r) (s.base.get (reserveOf h r)))).foldl (· + ·) 0)

/-- A write of a quota register: within the totals, or recorded and ignored. -/
def State.quotaWrite (s : State) (h off : Nat) (a : RegWr) : State :=
  match quotaOf off with
  | none => s
  | some r =>
    let key := hdr (pgCMD h) off
    s.guardedWrite key a ((s.plainWrite key a).quotaBad r) (fun _ _ _ x => x)

/-! ## Registers with rules of their own -/

/-- SWING, C_POST, C_MAIN and C_PRE within R359. -/
def txeqLegal (w : Nat) : Bool :=
  decide (32 ≤ bits w 11 5 ∧ bits w 11 5 ≤ 64 ∧ bits w 4 0 ≤ 16 ∧ bits w 16 12 ≤ 24 ∧ bits w 4 0 + bits w 11 5 + bits w 16 12 ≤ 64)

/-- A written LNK_TXEQ with what R12 leaves unchanged: a coefficient outside its own range, and all three where their sum is too large. DESIGN CHOICE (log 18): R359 does not say which of the three a broken sum names. -/
def txeqKept (old new : Nat) : Nat :=
  let pick (w f : Nat × Nat) (ok : Bool) : Nat := if ok then bits w.1 f.1 f.2 else bits w.2 f.1 f.2
  let pre := pick (new, old) (4, 0) (decide (bits new 4 0 ≤ 16))
  let main := pick (new, old) (11, 5) (decide (32 ≤ bits new 11 5 ∧ bits new 11 5 ≤ 64))
  let post := pick (new, old) (16, 12) (decide (bits new 16 12 ≤ 24))
  if pre + main + post ≤ 64 then new / 2 ^ 17 * 2 ^ 17 + post * 2 ^ 12 + main * 2 ^ 5 + pre else new / 2 ^ 17 * 2 ^ 17 + old % 2 ^ 17

/-- LNK_TXEQ: ignored on a receive lane; coefficients outside R359 are a reserved encoding, and the rest of the write applies (R12). -/
def State.txeqWrite (s : State) (l : Nat) (a : RegWr) : State :=
  let key := Reg.lnkTxeq l
  let old := (s.sealWord key).toNat
  let new := mergeBytes old a.val.toNat a.be
  if !laneSends l then s
  else if !txeqLegal new && s.base.visible a.host.toNat (pgLNK l) && s.base.mayWrite a.host.toNat key && s.holdsCfg a.host.toNat then
    (s.onBase (·.refuse a.host.toNat key vRESERVED a.val)).plainWrite key { a with val := BitVec.ofNat 32 (txeqKept old new) }
  else s.plainWrite key a

/-- LNK_RXEQ: ignored on a transmit lane; setting FREEZE holds the taps (R360). -/
def State.rxeqWrite (s : State) (l : Nat) (a : RegWr) : State :=
  if laneSends l then s
  else s.write (Reg.lnkRxeq l) a (fun _ old new x => if !old.testBit 8 && new.testBit 8 then
      x.setLane l { x.lane l with froze := x.base.ticks } else x)

/-- The parameter registers of a 2D engine stand while it is BUSY (R308). -/
def State.twdParamWrite (s : State) (h key : Nat) (a : RegWr) : State := s.guardedWrite key a (s.twdOp h).isSome (fun _ _ _ x => x)

/-- The spill area of a host stands while it holds granules (R302). -/
def State.spillAreaWrite (s : State) (h key : Nat) (a : RegWr) : State := s.guardedWrite key a (s.dome.slotsUsed h != 0) (fun _ _ _ x => x)

/-! ## Every register -/

/-- Writes to registers of pages 0x000 to 0x00C beyond the header. -/
def State.writeLow (s : State) (key : Nat) (a : RegWr) : State :=
  let p := key / 4096
  let o := key % 4096
  if key = Reg.cfgCtrl then s.cfgCtrlWrite a
  else if p = 1 ∧ 0x100 ≤ o ∧ o < 0x300 then s.mbxWrite ((o - 0x100) / 0x80) key a
  else if key = Reg.pwrCtrl then s.pwrCtrlWrite a
  else if key = Reg.rstCtrl then s.rstCtrlWrite a
  else if key = Reg.rstWdogKick then s.wdogKick (some a.host.toNat) a.val
  else if key = Reg.clkMeasSel then s.measWrite a
  else if key = Reg.thmThrDie ∨ key = Reg.thmThrStk then s.thrWrite key a
  else if key = Reg.calCtrl then s.calCtrlWrite a
  else if key = Reg.calQuery then s.queryWrite .cal a
  else if key = Reg.sxtCtrl then s.sxtCtrlWrite a
  else if key = Reg.sxtIncHi then s.incWrite a
  else if key = Reg.sxtAdj then s.adjWrite a
  else if p = pgSXT ∧ 0x180 ≤ o ∧ o < 0x1C0 then s.gpioWrite ((o - 0x180) / 4) a
  else if key = Reg.actCtrl 0 then s.actArmWrite 0 a
  else if key = Reg.actCtrl 1 then s.actArmWrite 1 a
  else if key = Reg.actCtrl 2 then s.actArmWrite 2 a
  else if key = Reg.actCtrl 3 then s.actArmWrite 3 a
  else if key = Reg.parCmd then s.swapCmdWrite a
  else s.plainWrite key a

/-- Writes to registers of the host pages and of the Dome beyond the header. -/
def State.writeHost (s : State) (key : Nat) (a : RegWr) : State :=
  let p := key / 4096
  let o := key % 4096
  let h := p % 4
  if key = Reg.hstFlogCtrl h then s.logCtrlWrite (2 * h) a
  else if key = Reg.hstVlogCtrl h then s.logCtrlWrite (2 * h + 1) a
  else if 0x014 ≤ p ∧ p < 0x018 ∧ (quotaOf o).isSome then s.quotaWrite h o a
  else if 0x014 ≤ p ∧ p < 0x018 ∧ 0x200 ≤ o ∧ o < 0x400 then
    let r := (o - 0x200) / 0x20
    if o % 0x20 < 0x10 then s.ringBaseWrite key h r a
    else if o % 0x20 = 0x10 then s.ringCtrlWrite h r a
    else if o % 0x20 = 0x18 then s.tailWrite h r a
    else s.plainWrite key a
  else if key = Reg.twdOp h then s.twdOpWrite h a
  else if 0x01C ≤ p ∧ p < 0x020 ∧ 0x044 ≤ o ∧ o < 0x078 then s.twdParamWrite h key a
  else if key = Reg.domMapQuery then s.queryWrite .domMap a
  else if p = 0x020 ∧ 0x100 ≤ o ∧ o < 0x140 then s.spillAreaWrite ((o - 0x100) / 0x10) key a
  else if p = 0x020 ∧ 0x200 ≤ o ∧ o < 0x300 ∧ o % 8 = 0 then s.winObjWrite ((o - 0x200) / 0x40) (o % 0x40 / 8) a
  else s.plainWrite key a

/-- Writes to registers of the pages from 0x030 on beyond the header. -/
def State.writeUnit (s : State) (key : Nat) (a : RegWr) : State :=
  let p := key / 4096
  let o := key % 4096
  if key = Reg.cmpProbeXy then s.queryWrite .probe a
  else if key = Reg.frsQuery then s.queryWrite .frs a
  else if key = Reg.scoOdData then s.odDataWrite a
  else if key = Reg.pnlCtrl then s.linkDarkWrite a
  else if 0x050 ≤ p ∧ p < 0x07C ∧ o = 0x040 then s.loopWrite (p - 0x050) a
  else if 0x050 ≤ p ∧ p < 0x07C ∧ o = 0x048 then s.txeqWrite (p - 0x050) a
  else if 0x050 ≤ p ∧ p < 0x07C ∧ o = 0x04C then s.rxeqWrite (p - 0x050) a
  else if 0x081 ≤ p ∧ p ≤ 0x08C ∧ 0x100 ≤ o ∧ o < 0x200 ∧ o % 0x20 = 0 then s.strCtrlWrite (p - 0x081) ((o - 0x100) / 0x20) a
  else if 0x081 ≤ p ∧ p ≤ 0x08C ∧ 0x100 ≤ o ∧ o < 0x200 ∧ o % 0x20 = 0x0C then s.strRearmWrite (p - 0x081) ((o - 0x100) / 0x20) a
  else if key = Reg.blfBank then s.bankSwapWrite a
  else if key = Reg.blfTemp then s.blfTempWrite a
  else if key = Reg.blfCrc0 then s.bankWrite key 0 a
  else if key = Reg.blfCrc1 then s.bankWrite key 1 a
  else if p = pgBLF ∧ 0x200 ≤ o ∧ o < 0x300 then s.bankWrite key ((o - 0x200) / 0x80) a
  else if key = Reg.sprLimits then s.autocapWrite a
  else s.plainWrite key a

/-- A write of the register at a key, with the behaviour that register has. -/
def State.regWriteAt (s : State) (key : Nat) (a : RegWr) : State :=
  let p := key / 4096
  let o := key % 4096
  if o = 0x18 then s.eventWrite p a
  else if o = 0x1C then s.eventEnWrite p a
  else if o = 0x20 then s.ctrlWriteFree p a
  else if o = 0x24 then s.faultWrite p a
  else if o < 0x40 then s.plainWrite key a
  else if p < 0x010 then s.writeLow key a
  else if p < 0x030 then s.writeHost key a
  else s.writeUnit key a

end Sys2Proof.Machine
end

