-- ==== Sys2Proof/Machine/ConfigCommands.lean ====
section
/-! DEFINITION. Register accesses of a host and of the sideband, and configuration transactions (chapters 2, 4 and 21). One meaning per command of the table. -/

namespace Sys2Proof.Machine

/-- CFG_OPEN (R48): Opens the single configuration transaction for the writing host. -/
def execCfgOpen (a : RegWr) (s : State) : Out := .next (s.cfgCtrlWrite a)

/-- CFG_COMMIT (R586): Seals the configuration transaction after every check of the seal, or discards it. -/
def execCfgCommit (a : RegWr) (s : State) : Out := .next (s.cfgCtrlWrite a)

/-- CFG_ABORT (R50): Discards the open configuration transaction with ABORT_ROLLBACK. -/
def execCfgAbort (a : RegWr) (s : State) : Out := .next (s.cfgCtrlWrite a)

/-- RWS_WRITE (R49): A write to a staged register goes to the staged copy of the holder's transaction, or is refused. -/
def execRwsWrite (page : BitVec 10) (off : BitVec 12) (a : RegWr) (s : State) : Out := .next (s.regWriteAt (regKey page off) a)

/-- CMP_PROBE_XY (R68): Starts a Compass probe for one subpixel. -/
def execCmpProbeXy (a : RegWr) (s : State) : Out := .next (s.queryWrite .probe a)

/-- FRS_QUERY (R244): Starts a query of one context's age and bound. -/
def execFrsQuery (a : RegWr) (s : State) : Out := .next (s.queryWrite .frs a)

/-- DOM_MAP_QUERY (R303): Starts a query of the frame carrying one logical page. -/
def execDomMapQuery (a : RegWr) (s : State) : Out := .next (s.queryWrite .domMap a)

/-- CAL_QUERY (R46): Starts a query of one calibration trim. -/
def execCalQuery (a : RegWr) (s : State) : Out := .next (s.queryWrite .cal a)

/-- QUERY_RESULT (R46): A probe or query result becomes ready in the host's copy and VALID is set. -/
def execQueryResult (h : Fin 4) (q : Query) (s : State) : Out := .next (s.queryResultRow h.val q)

/-- REGISTER_WRITE (R31): A write to a register with no behaviour of its own, checked for access rights and reserved encodings. -/
def execRegisterWrite (page : BitVec 10) (off : BitVec 12) (a : RegWr) (s : State) : Out := .next (s.regWriteAt (regKey page off) a)

/-- RC_READ (R32): A full-width read of an RC counter returns and clears it. -/
def execRcRead (h : Fin 4) (page : BitVec 10) (off : BitVec 12) (be : BitVec 4) (s : State) : Out := .next (s.rcReadRow h.val page.toNat off.toNat be)

/-- UNIT_EVENT_CLEAR (R56): A write to UNIT_EVENT clears W1C bits and re-sends a message if an enabled event remains. -/
def execUnitEventClear (page : BitVec 10) (a : RegWr) (s : State) : Out := .next (s.eventWrite page.toNat a)

/-- UNIT_FAULT_CLEAR (R57): Clearing UNIT_FAULT.VALID clears CODE and re-arms the latch. -/
def execUnitFaultClear (page : BitVec 10) (a : RegWr) (s : State) : Out := .next (s.faultWrite page.toNat a)

/-- QUOTA_WRITE (R121): The owner host writes a LIMIT or RESERVE, accepted only within the totals. -/
def execQuotaWrite (h : Fin 4) (off : BitVec 12) (a : RegWr) (s : State) : Out := .next (s.quotaWrite h.val (off.toNat / 4 * 4) a)

/-- SIDEBAND_READ (R574): A sideband transaction reads one register as the owner sees it, without side effects. -/
def execSidebandRead (page : BitVec 10) (off : BitVec 12) (s : State) : Out := .next (s.sidebandRow page.toNat off.toNat)

end Sys2Proof.Machine
end

