-- ==== Sys2Proof/Machine/EngineCommands.lean ====
section
/-! DEFINITION. Jobs of the codec and operations of the 2D engines (chapters 5 and 11). One meaning per command of the table. -/

namespace Sys2Proof.Machine

/-- JOB_DISPATCH (R149): The codec group dispatches a waiting job of up to 32 tiles to a free permitted engine. -/
def execJobDispatch (e : Fin 16) (s : State) : Out := .next (s.dispatch e.val)

/-- JOB_DONE (R147): An engine finishes decoding or filling the tiles of a job. -/
def execJobDone (e : Fin 16) (ecc : Ecc) (s : State) : Out := .next (s.jobDone e.val ecc)

/-- SELF_CHECK (R157): A parity error in an engine's tile buffer requeues its job and makes the engine FAULT. -/
def execSelfCheck (e : Fin 16) (s : State) : Out := .next (s.engineFault e.val)

/-- ENGINE_LEAVE_RELEASE (R153): An engine idle for 10 µs releases its leave, and the group releases its own when no engine holds any. -/
def execEngineLeaveRelease (e : Fin 16) (s : State) : Out := .next (s.engineIdle e.val)

/-- TWD_UNIT_RESET (R322): Stops the 2D operation at once and rolls its transaction back. -/
def execTwdUnitReset (h : Fin 4) (a : RegWr) (s : State) : Out := .next (s.ctrlWriteFree (pgTWD h.val) a)

/-- ENGINE_ENABLE (R157): Removes or returns a codec engine from dispatch. -/
def execEngineEnable (e : Fin 16) (a : RegWr) (s : State) : Out := .next (s.ctrlWriteFree (pgENG e.val) a)

/-- CODEC_ENABLE (R156): Stops or resumes dispatch of codec jobs. -/
def execCodecEnable (a : RegWr) (s : State) : Out := .next (s.ctrlWriteFree pgCDC a)

/-- FILL (R312): GO with OP FILL checks and starts a fill of a rectangle. -/
def execTwdFill (h : Fin 4) (a : RegWr) (s : State) : Out := .next (s.twdOpWrite h.val a)

/-- COPY (R313): GO with OP COPY checks and starts a rectangle copy. -/
def execTwdCopy (h : Fin 4) (a : RegWr) (s : State) : Out := .next (s.twdOpWrite h.val a)

/-- EXPAND (R315): GO with OP EXPAND checks and starts a glyph expansion. -/
def execTwdExpand (h : Fin 4) (a : RegWr) (s : State) : Out := .next (s.twdOpWrite h.val a)

/-- TWD_WRITE_START (R319): A 2D operation begins writing once order, leave and memory waits end. -/
def execTwdWriteStart (h : Fin 4) (s : State) : Out := .next (s.twdStart h.val)

/-- TWD_DONE (R321): A 2D operation completes, writing status, tag and time. -/
def execTwdDone (h : Fin 4) (ecc : Ecc) (s : State) : Out := .next (s.twdDoneRow h.val ecc)

/-- TWD_SELF_CHECK (R326): A parity or residue error stops the operation and faults the engine. -/
def execTwdSelfCheck (h : Fin 4) (s : State) : Out := .next (s.twdFault h.val)

/-- ENGINE_UNIT_RESET (R155): A unit reset of a codec engine page returns its current job to the front of the queue and restarts the engine. -/
def execEngineUnitReset (e : Fin 16) (a : RegWr) (s : State) : Out := .next (s.ctrlWriteFree (pgENG e.val) a)

end Sys2Proof.Machine
end

