-- ==== Sys2Proof/Machine/FrameCommands.lean ====
section
/-! DEFINITION. Subframes, the commit cut, rendering and scan-out (chapters 3, 6 and 7). One meaning per command of the table. -/

namespace Sys2Proof.Machine

/-- COMMIT_CUT (R204): At slot 7's start the device applies a sealed configuration transaction and then every preceding sealed scene transaction in sequencer order. -/
def execCommitCut (s : State) : Out := .next (s.cutRow)

/-- SUBFRAME_START (R194): At each subframe start the buffers change roles, j advances and the subframe's state is fixed. -/
def execSubframeStart (s : State) : Out := .next (s.subframeRow)

/-- TEMP_LOST (R213): No valid panel temperature report for 1,000 ms keeps the band and sets TEMP_LOST. -/
def execTempLost (s : State) : Out := .next (s.tempLostRow)

/-- LINE_SCANOUT (R20): The scan-out engine reads, checks, overdrives, dithers, veils and sends one line on both ports. -/
def execLineScanout (y : BitVec 16) (u : LineUpset) (s : State) : Out := .next (s.lineRowScan y.toNat u)

/-- SPAN_DONE (R174): A cluster finishes a 128-pixel span, and the quadrant hands the next span to a free cluster. -/
def execSpanDone (c : Fin 68) (found : SpanFound) (s : State) : Out := .next (s.spanDoneRow c.val found.ecc found.clusterPe found.quadPe)

/-- STALL (R177): A span unfinished after 64 µs is abandoned and reissued. -/
def execSpanStall (c : Fin 68) (s : State) : Out := .next (s.stallRow c.val)

/-- DATAPATH (R177): A residue or parity error in a cell abandons the span for reissue. -/
def execSpanDatapath (c : Fin 68) (k : Fin 4) (permanent : Bool) (s : State) : Out := .next (s.datapathRow c.val k.val permanent)

/-- AUTOCAP (R181): Writing 1 ends the AUTOCAP limits at the next cut. -/
def execSprAutocap (a : RegWr) (s : State) : Out := .next (s.autocapWrite a)

/-- COMPASS_COPY_CHECK (R87): The Compass checks both copies of its live geometry once per frame. -/
def execCompassCopyCheck (bad : List (BitVec 12 × BitVec 2)) (s : State) : Out := .next (s.cmpCheckRow bad)

/-- COMPASS_UNIT_RESET (R88): Re-checks both geometry copies and completes at the next cut. -/
def execCompassUnitReset (a : RegWr) (s : State) : Out := .next (s.ctrlWriteFree pgCMP a)

/-- SPIRE_UNIT_RESET (R184): Withdraws a cluster and reissues its spans, or resets a quadrant or the array at the next cut. -/
def execSpireUnitReset (page : BitVec 10) (a : RegWr) (s : State) : Out := .next (if 0x100 ≤ page.toNat then s.ctrlWriteFree page.toNat a else s)

/-- SCO_UNIT_RESET (R220): Sends dark subframes up to the next slot 0. -/
def execScoUnitReset (a : RegWr) (s : State) : Out := .next (s.ctrlWriteFree pgSCO a)

/-- COMPASS_ENABLE (R85): Switches flat rendering on or off from the next cut. -/
def execCompassEnable (a : RegWr) (s : State) : Out := .next (s.ctrlWriteFree pgCMP a)

/-- CLUSTER_ENABLE (R185): Withdraws or returns a cluster from the next subframe start. -/
def execClusterEnable (c : Fin 68) (a : RegWr) (s : State) : Out := .next (s.ctrlWriteFree (pgSPC c.val) a)

/-- OD_DATA (R214): Writes one overdrive node of the bank not in force and advances the address. -/
def execOdData (a : RegWr) (s : State) : Out := .next (s.odDataWrite a)

end Sys2Proof.Machine
end

