-- ==== Sys2Proof/Machine/GuardCommands.lean ====
section
/-! DEFINITION. The freshness guard (chapter 8). One meaning per command of the table. -/

namespace Sys2Proof.Machine

/-- FRESHNESS_TICK (R224): Each millisecond of the elapsed-time accumulator raises every AGE and staged age by 1. -/
def execFreshnessTick (s : State) : Out := .next (s.freshnessTickRow)

/-- TICK_LOST (R225): No Sextant tick for 1.05 ms makes the guard issue its own tick and switch to local ticks. -/
def execTickLost (s : State) : Out := .next (s.tickLostRow)

/-- LOCAL_TICK (R225): While ticking locally, the guard issues a tick every 156,250 always-on ticks. -/
def execLocalTick (s : State) : Out := .next (s.localTickRow)

/-- GUARD_COPY_CHECK (R238): The guard checks both copies of its tables once per frame, repairing or veiling. -/
def execGuardCopyCheck (bad : List GuardBad) (s : State) : Out := .next (s.guardCheckRow bad)

/-- GUARD_UNIT_RESET (R240): Re-checks the guard tables, discards double-bad regions and tests the veil stage by the next slot 0. -/
def execGuardUnitReset (a : RegWr) (testOk : Bool) (s : State) : Out := .next (s.ctrlWrite pgFRS a testOk [])

end Sys2Proof.Machine
end

