-- ==== Sys2Proof/Machine/HelmCommands.lean ====
section
/-! DEFINITION. Firmware, the Keep, mailboxes, Krydo and the Watch (chapter 20). One meaning per command of the table. -/

namespace Sys2Proof.Machine

/-- WATCH_TEST_START (R557): At its period, the Watch takes the next unit of a class for test. -/
def execWatchTestStart (cls : Fin 7) (target : Nat) (s : State) : Out := .next (s.watchStartRow cls.val target)

/-- WATCH_TEST_END (R557): A Watch test ends with a verdict and repairs on failure. -/
def execWatchTestEnd (verdict : WatchVerdict) (s : State) : Out := .next (s.watchEndRow verdict)

/-- SWEEP_DONE (R559): The Watch finishes sweeping every active cluster after an abort run. -/
def execSweepDone (failed : List (Fin 68)) (s : State) : Out := .next (s.sweepDoneRow (failed.map (·.val)))

/-- GET_INFO (R552): Mailbox command returning firmware version, SVN and slot states. -/
def execGetInfo (h : Fin 4) (a : RegWr) (s : State) : Out := .next (s.mbxWrite h.val (Reg.mbxCmd h.val) a)

/-- FW_STAGE (R545): Starts reading and checking a firmware image into the free slot. -/
def execFwStage (h : Fin 4) (a : RegWr) (s : State) : Out := .next (s.mbxWrite h.val (Reg.mbxCmd h.val) a)

/-- MBX_DONE (R552): A mailbox command that took time completes with STATUS and INFO. -/
def execMbxDone (h : Fin 4) (reply : HostRead) (s : State) : Out := .next (s.mbxDoneRow h.val reply)

/-- FW_ACTIVATE (R547): Marks the staged slot PENDING, optionally with a warm reset. -/
def execFwActivate (h : Fin 4) (a : RegWr) (s : State) : Out := .next (s.mbxWrite h.val (Reg.mbxCmd h.val) a)

/-- FW_CONFIRM (R548): Makes the trial slot ACTIVE and raises FW_SVN. -/
def execFwConfirm (h : Fin 4) (a : RegWr) (s : State) : Out := .next (s.mbxWrite h.val (Reg.mbxCmd h.val) a)

/-- FW_DISCARD (R552): Empties the staged slot. -/
def execFwDiscard (h : Fin 4) (a : RegWr) (s : State) : Out := .next (s.mbxWrite h.val (Reg.mbxCmd h.val) a)

/-- MR_EXTEND (R540): Extends measurement register MRm with a 64-byte value. -/
def execMrExtend (h : Fin 4) (a : RegWr) (s : State) : Out := .next (s.mbxWrite h.val (Reg.mbxCmd h.val) a)

/-- PROVISION (R542): Stores a pending provisioning record and locks the debug port. -/
def execProvision (h : Fin 4) (a : RegWr) (s : State) : Out := .next (s.mbxWrite h.val (Reg.mbxCmd h.val) a)

/-- DEPROVISION (R543): Marks the provisioning record for removal at the next cold reset. -/
def execDeprovision (h : Fin 4) (a : RegWr) (s : State) : Out := .next (s.mbxWrite h.val (Reg.mbxCmd h.val) a)

/-- FIRMWARE_BOOT (R547): Helm's ROM checks and boots the pending, trial or active slot. -/
def execFirmwareBoot (s : State) : Out := .next (s.bootRow)

/-- FW_VAL_UPDATE (R551): Firmware writes the annunciator bits every 100 ms. -/
def execFwValUpdate (s : State) : Out := .next (s.fwValRow)

/-- GET_ID (R554): Krydo request answered with an ID message. -/
def execGetId (h : Fin 4) (msg : List Byte) (s : State) : Out := .next (s.krydoRow h.val msg)

/-- GET_CHAIN (R556): Krydo request answered with part of the certificate chain. -/
def execGetChain (h : Fin 4) (msg : List Byte) (s : State) : Out := .next (s.krydoRow h.val msg)

/-- GET_MEAS (R555): Krydo request answered with signed measurement registers. -/
def execGetMeas (h : Fin 4) (msg : List Byte) (s : State) : Out := .next (s.krydoRow h.val msg)

/-- DOE_ABORT (R459): The host clears a DOE error and any object in progress. -/
def execDoeAbort (h : Fin 4) (s : State) : Out := .next (s.doeAbortRow h.val)

/-- DOE_DISCOVERY (R458): A DOE Discovery request, or a request naming an unsupported protocol, receives its response on the host's mailbox. -/
def execDoeDiscovery (h : Fin 4) (msg : List Byte) (s : State) : Out := .next (s.doeDiscoveryRow h.val msg)

end Sys2Proof.Machine
end

