-- ==== Sys2Proof/Machine/HostCommands.lean ====
section
/-! DEFINITION. Host links, logs, interrupts and BAR2 (chapters 10 and 16). One meaning per command of the table. -/

namespace Sys2Proof.Machine

/-- CMD_ENABLE (R272): Stops or resumes fetching from every ring of the host. -/
def execCmdEnable (h : Fin 4) (a : RegWr) (s : State) : Out := .next (s.ctrlWriteFree (pgCMD h.val) a)

/-- DL_DOWN (R455): Link down of host h causes a link reset. -/
def execDlDown (h : Fin 4) (s : State) : Out := .next (s.linkEvent h.val 1)

/-- HOT_RESET (R455): A Hot Reset on link h causes a link reset. -/
def execHotReset (h : Fin 4) (s : State) : Out := .next (s.linkEvent h.val 2)

/-- FLR (R455): A Function Level Reset causes a link reset with the link kept up. -/
def execFlr (h : Fin 4) (s : State) : Out := .next (s.linkEvent h.val 3)

/-- HST_UNIT_RESET (R455): A unit reset of the HST page causes a link reset. -/
def execHstUnitReset (h : Fin 4) (a : RegWr) (s : State) : Out := .next (s.ctrlWriteFree (pgHST h.val) a)

/-- LINK_RESET_DONE (R456): The link reset completes within 100 µs. -/
def execLinkResetDone (h : Fin 4) (s : State) : Out := .next (s.linkResetDone h.val)

/-- LINK_UP (R460): Host link h comes up. -/
def execLinkUp (h : Fin 4) (speed : Fin 8) (width : Fin 17) (flit : Bool) (s : State) : Out := .next (s.linkUpRow h.val speed.val width.val flit)

/-- BAR2_READ (R300): A BAR2 read returns object bytes, or misses and starts a page-in. -/
def execBar2Read (h : Fin 4) (off : BitVec 28) (len : Nat) (ecc : Ecc) (s : State) : Out := .next (s.bar2ReadRow h.val off.toNat len ecc)

/-- BAR2_WRITE (R298): A BAR2 write stores into a permitted upload, or is ignored. -/
def execBar2Write (h : Fin 4) (off : BitVec 28) (data : List Byte) (poisoned : Bool) (s : State) : Out := .next (s.bar2WriteRow h.val off.toNat data poisoned)

/-- TLP_ERROR (R453): A bad, unsupported or oversize request is answered and logged as violation LINK. -/
def execTlpError (h : Fin 4) (e : LinkError) (aer : Byte) (hdr : List Byte) (s : State) : Out := .next (s.tlpErrorRow h.val e aer hdr)

/-- COMPLETION_TIMEOUT (R453): A device read that times out is treated as a UR completion. -/
def execCompletionTimeout (h : Fin 4) (who : Requester) (s : State) : Out := .next (s.timeoutRow h.val who)

/-- BUS_MASTER_ENABLE (R451): Clearing or setting Bus Master Enable stops or resumes requests on the link. -/
def execBusMasterEnable (h : Fin 4) (on : Bool) (s : State) : Out := .next (s.busMaster h.val on)

/-- D3HOT (R451): Entering or leaving D3hot stops or resumes requests on the link. -/
def execD3hot (h : Fin 4) (on : Bool) (s : State) : Out := .next (s.d3 h.val on)

/-- MSIX_UNMASK (R445): Unmasking sends one message per pending bit. -/
def execMsixUnmask (h : Fin 4) (vec : BitVec 8) (s : State) : Out := .next (s.unmask h.val vec.toNat)

/-- LOG_WRITE (R449): A queued log entry is written to its ring once room exists. -/
def execLogWrite (h : Fin 4) (viol : Bool) (s : State) : Out := .next (s.logWriteRow (2 * h.val + (if viol then 1 else 0)))

/-- LOG_ENABLE (R448): Enabling a log restarts its sequence numbering. -/
def execLogEnable (h : Fin 4) (viol : Bool) (a : RegWr) (s : State) : Out := .next (s.logCtrlWrite (2 * h.val + (if viol then 1 else 0)) a)

/-- DOM_WIN_OBJ (R299): Host h names a permitted object for a BAR2 window. -/
def execDomWinObj (h : Fin 4) (w : Fin 8) (a : RegWr) (s : State) : Out := .next (s.winObjWrite h.val w.val a)

/-- CMD_UNIT_RESET (R269): A unit reset of host h's CMD or TXN page rolls back h's open transactions, holds completions pending and stops h's rings, as in Table 9.8. -/
def execCmdUnitReset (h : Fin 4) (txnPage : Bool) (a : RegWr) (s : State) : Out := .next (s.ctrlWriteFree (if txnPage then pgTXN h.val else pgCMD h.val) a)

end Sys2Proof.Machine
end

