-- ==== Sys2Proof/Machine/LightCommands.lean ====
section
/-! DEFINITION. The Beacon and the Belfry (chapters 13 and 14). One meaning per command of the table. -/

namespace Sys2Proof.Machine

/-- ZONE_UNIT_RESET (R385): Drives a zone's GATE and DIM low and restarts it. -/
def execZoneUnitReset (z : Fin 12) (a : RegWr) (s : State) : Out := .next (s.ctrlWriteFree (pgZON z.val) a)

/-- BELFRY_UNIT_RESET (R405): Discharges the glass, re-checks both banks and restarts the Belfry. -/
def execBelfryUnitReset (a : RegWr) (s : State) : Out := .next (s.ctrlWriteFree pgBLF a)

/-- BEACON_ENABLE (R376): Starts the zones one at a time, or drives every GATE and DIM low. -/
def execBeaconEnable (a : RegWr) (s : State) : Out := .next (s.ctrlWriteFree pgBCN a)

/-- ZONE_ENABLE (R385): Enables a zone, or drives its balls low. -/
def execZoneEnable (z : Fin 12) (a : RegWr) (s : State) : Out := .next (s.ctrlWriteFree (pgZON z.val) a)

/-- STRING_ENABLE (R377): Starts a string with its own soft start, or stops it. -/
def execStringEnable (z : Fin 12) (i : Fin 8) (a : RegWr) (s : State) : Out := .next (s.strCtrlWrite z.val i.val a)

/-- BELFRY_ENABLE (R404): Ramps V_OP and starts cycles, or completes the cycle and discharges the glass. -/
def execBelfryEnable (a : RegWr) (s : State) : Out := .next (s.ctrlWriteFree pgBLF a)

/-- LIGHT_WINDOW_OPEN (R373): At a zone's window, the strings of direction group s fire their planned pulses. -/
def execLightWindowOpen (z : Fin 12) (s : State) : Out := .next (s.lightWindowRow z.val)

/-- PULSE_END (R378): A pulse ends; one of at least 2 µs gives an open, short or pass verdict. -/
def execPulseEnd (z : Fin 12) (i : Fin 8) (len : Nat) (rise : Option (BitVec 12)) (reads : PulseReads) (s : State) : Out :=
  .next (s.pulseEndRow z.val i.val len (rise.map (·.toNat)) reads.vsns.toNat (reads.isns.map (fun r => (r.1, r.2.toNat))))

/-- TRIP (R371): ISNS at ITH_OC or VSNS at VOV ends the pulse within 20 ns. -/
def execStrTrip (z : Fin 12) (i : Fin 8) (trip : Trip) (s : State) : Out := .next (s.tripRow z.val i.val trip.overVoltage trip.k trip.step)

/-- UNVERIFIED (R380): A string with no verdict for 64 lit frames becomes UNVERIFIED. -/
def execStrUnverified (z : Fin 12) (i : Fin 8) (s : State) : Out := .next (s.unverifiedRow z.val i.val)

/-- STARTED (R376): A zone's soft start ends after frame 8, releasing its leave. -/
def execZoneStarted (z : Fin 12) (s : State) : Out := .next (s.zoneStartedRow z.val)

/-- NEIGHBOUR_PIN_TEST (R382): One ball-pair short test completes, faulting strings on a short. -/
def execNeighbourPinTest (a b : Ball) (short : Bool) (s : State) : Out := .next (s.pinTestRow (ballNum a) (ballNum b) short)

/-- REARM (R384): Retests a faulted string's ball pairs and restarts it. -/
def execStrRearm (z : Fin 12) (i : Fin 8) (a : RegWr) (s : State) : Out := .next (s.strRearmWrite z.val i.val a)

/-- CYCLE_START (R393): A Belfry multiplex cycle starts, applying swaps, bands, maps, V_OP and guard cells. -/
def execCycleStart (s : State) : Out := .next (s.cycleTurn)

/-- BLF_BANK_SWAP (R395): Requests a bank change decided at the next cycle start. -/
def execBlfBankSwap (a : RegWr) (s : State) : Out := .next (s.bankSwapWrite a)

/-- BLF_TEMP (R401): Software reports a temperature for the Belfry. -/
def execBlfTemp (a : RegWr) (s : State) : Out := .next (s.blfTempWrite a)

/-- VLCD_LOW (R403): VLCD below V_OP plus 0.2 V sets VLCD_LOW. -/
def execVlcdLow (mv : BitVec 16) (s : State) : Out := .next (s.vlcdRow mv.toNat)

/-- DISCHARGE_END (R404): After 100 µs joined, the electrodes are driven to V0. -/
def execDischargeEnd (s : State) : Out := .next (s.dischargeEndRow)

/-- CLOSED_INTERVAL (R381): At a zone's closed interval, a diagnostic pulse fires, or a standby device's diagnostic pulse fires at the interval's start. -/
def execClosedInterval (z : Fin 12) (s : State) : Out := .next (s.closedIntervalRow z.val)

end Sys2Proof.Machine
end

