-- ==== Sys2Proof/Machine/MemoryCommands.lean ====
section
/-! DEFINITION. Scene memory (chapter 10). One meaning per command of the table. -/

namespace Sys2Proof.Machine

/-- DOM_UNIT_RESET (R303): Completes within 256 ticks and changes nothing. -/
def execDomUnitReset (page : BitVec 10) (a : RegWr) (s : State) : Out := .next (if 0x020 ≤ page.toNat ∧ page.toNat ≤ 0x028 then s.ctrlWriteFree page.toNat a else s)

/-- SPILL (R284): With few free granules, the Dome spills unpinned granules to host memory. -/
def execSpill (s : State) : Out := .next (s.spillRow s.found)

/-- PAGE_IN (R286): A spilled granule is paged in and CRC-checked. -/
def execPageIn (g : Nat) (reply : HostRead) (s : State) : Out := .next (s.pageInRow g reply)

/-- SCRUB_BURST (R292): A patrol scrub reads one frame and writes back corrected words. -/
def execScrubBurst (ecc : Ecc) (s : State) : Out := .next (s.scrubRow ecc)

/-- RETIRE (R293): A frame's retirement copy completes, and the map switches at the next subframe start. -/
def execRetire (s : State) : Out := .next (s.retireRow s.found)

/-- STACK_DOWN (R295): A stack that stops answering becomes FAULT. -/
def execStackDown (k : Fin 8) (s : State) : Out := .next (s.stackDownRow k.val)

/-- ZERO_FILL (R278): A FREE_DIRTY granule is zeroed in the background and becomes FREE_ZERO. -/
def execZeroFill (g : Nat) (s : State) : Out := .next (s.zeroFillRow g)

end Sys2Proof.Machine
end

