-- ==== Sys2Proof/Machine/PairCommands.lean ====
section
/-! DEFINITION. The pair link (chapter 17). One meaning per command of the table. -/

namespace Sys2Proof.Machine

/-- PAIR_ENABLE (R486): Requests leave and trains the pair lanes, or sends DOWN and idles them. -/
def execPairEnable (a : RegWr) (s : State) : Out := .next (s.ctrlWriteFree pgPAR a)

/-- HEARTBEAT (R473): A partner heartbeat updates skew, lock and the configuration comparison. -/
def execParHeartbeat (blk : LaneBlock) (s : State) : Out := .next (s.heartbeatRow blk.lane.val blk.block)

/-- SIGNATURE (R477): A partner RSIG is compared with the device's own, driving DIVERGED or SYNC. -/
def execParSignature (blk : LaneBlock) (s : State) : Out := .next (s.signatureRow blk.lane.val blk.block)

/-- YIELD (R483): The active partner yields its role at a named J. -/
def execParYield (blk : LaneBlock) (s : State) : Out := .next (s.yieldRow blk.lane.val blk.block)

/-- SWAP_REQ (R482): The partner requests a role swap at a named J. -/
def execSwapReq (blk : LaneBlock) (s : State) : Out := .next (s.swapReqRow blk.lane.val blk.block)

/-- SWAP_ACK (R482): The partner confirms a role swap. -/
def execSwapAck (blk : LaneBlock) (s : State) : Out := .next (s.swapAckRow blk.lane.val blk.block)

/-- HELLO (R472): The first message after pair link up gives identity and starts the latency measurement. -/
def execParHello (blk : LaneBlock) (s : State) : Out := .next (s.helloRow blk.lane.val blk.block)

/-- DOWN (R479): The partner announces it is going down, and the standby takes over. -/
def execParDown (blk : LaneBlock) (s : State) : Out := .next (s.downRow blk.lane.val blk.block)

/-- ACK (R468): Frees acknowledged messages from the replay buffer. -/
def execParAck (blk : LaneBlock) (s : State) : Out := .next (s.ackRow blk.lane.val blk.block)

/-- NAK (R468): Resends messages from the SEQ named. -/
def execParNak (blk : LaneBlock) (s : State) : Out := .next (s.nakRow blk.lane.val blk.block)

/-- MAP (R469): Restripes the pair link over the named lanes. -/
def execParMap (blk : LaneBlock) (s : State) : Out := .next (s.mapRow blk.lane.val blk.block)

/-- PAIR_LINK_RESET (R471): Violations, retries or lane loss reset the pair link and restart it with HELLO. -/
def execPairLinkReset (cause : Fin 3) (s : State) : Out := .next (s.pairLinkResetRow cause.val)

/-- PARTNER_LOST (R479): At HB_WAIT with no heartbeat or ALIVE edge, the standby takes over or enters PARTITION. -/
def execPartnerLost (s : State) : Out := .next (s.partnerLostRow)

/-- ALIVE_IN (R474): An ALIVE_IN edge from the partner is noted. -/
def execAliveIn (level : Bool) (s : State) : Out := .next (s.aliveInRow level)

/-- PAR_CMD_SWAP (R482): The owner host requests a role swap three subframes ahead. -/
def execParCmdSwap (a : RegWr) (s : State) : Out := .next (s.swapCmdWrite a)

/-- PAR_VIOL (R470): A pair-link block of reserved TYPE, with a nonzero reserved byte or a bad CRC, is answered with NAK and counted. -/
def execParViol (blk : LaneBlock) (s : State) : Out := .next (s.parViolRow blk.lane.val blk.block)

end Sys2Proof.Machine
end

