-- ==== Sys2Proof/Machine/PanelCommands.lean ====
section
/-! DEFINITION. The panel link: ports, lanes and the back-channel (chapter 12). One meaning per command of the table. -/

namespace Sys2Proof.Machine

/-- PORT_UNIT_RESET (R366): Ends a port's service at the next subframe start and brings it up anew. -/
def execPortUnitReset (p : Fin 2) (a : RegWr) (s : State) : Out := .next (s.ctrlWriteFree (pgPRT p.val) a)

/-- LANE_UNIT_RESET (R367): Starts retraining of a FAULT or working lane. -/
def execLaneUnitReset (l : Fin 44) (a : RegWr) (s : State) : Out := .next (s.ctrlWriteFree (pgLNK l.val) a)

/-- PORT_ENABLE (R347): Requests leave and brings a panel port out of electrical idle, or ends its service. -/
def execPortEnable (p : Fin 2) (a : RegWr) (s : State) : Out := .next (s.ctrlWriteFree (pgPRT p.val) a)

/-- LANE_ENABLE (R367): Withdraws a lane as a loss, or starts its retraining. -/
def execLaneEnable (l : Fin 44) (a : RegWr) (s : State) : Out := .next (s.ctrlWriteFree (pgLNK l.val) a)

/-- STATUS (R353): A back-channel STATUS message updates lock, temperature and lane health. -/
def execBcStatus (p : Fin 2) (bc : Fin 2) (msg : BackBlock) (s : State) : Out := .next (s.backBlock p.val bc.val 0x10 msg (State.statusMsg p.val))

/-- HEALTH (R353): A HEALTH message updates per-lane error counts and may take a lane out of service. -/
def execBcHealth (p : Fin 2) (bc : Fin 2) (msg : BackBlock) (s : State) : Out := .next (s.backBlock p.val bc.val 0x11 msg (State.healthMsg p.val))

/-- CRC_REPORT (R352): The panel's TSIG report is compared with the device's. -/
def execCrcReport (p : Fin 2) (bc : Fin 2) (msg : BackBlock) (s : State) : Out := .next (s.backBlock p.val bc.val 0x12 msg (State.crcMsg p.val))

/-- LANE_LOSS (R353): The panel reports a lane leaving LOCKED, and the device takes it out of service. -/
def execLaneLoss (p : Fin 2) (bc : Fin 2) (msg : BackBlock) (s : State) : Out := .next (s.backBlock p.val bc.val 0x13 msg (State.laneLossMsg p.val))

/-- LOOP_RESULT (R348): The panel reports pattern errors of a far-end loop. -/
def execLoopResult (p : Fin 2) (bc : Fin 2) (msg : BackBlock) (s : State) : Out := .next (s.backBlock p.val bc.val 0x14 msg (State.loopMsg p.val))

/-- RX_LANE_LOCKED (R341): A back-channel or pair receive lane reaches LOCKED. -/
def execRxLaneLocked (l : Fin 44) (s : State) : Out := .next ((s.rxLockedRow l.val).lanesFollow l.val)

/-- LOCK_LOSS (R341): A receive lane leaves LOCKED on 16 invalid headers out of 64. -/
def execLockLoss (l : Fin 44) (s : State) : Out := .next ((s.lockLossRow l.val).lanesFollow l.val)

/-- RETRAIN_PASS (R357): A retraining lane completes 64 consecutive locked reports and becomes a spare. -/
def execRetrainPass (l : Fin 44) (s : State) : Out := .next ((s.retrainPassRow l.val).lanesFollow l.val)

/-- RETRAIN_FAIL (R357): No run of 64 within 500 ms returns the lane to FAULT, or RETIRED on its third failure. -/
def execRetrainFail (l : Fin 44) (s : State) : Out := .next (s.retrainFailRow l.val)

/-- LINK_DARK (R365): Makes both ports send LINK_DARK, or resumes lines from the next slot 0. -/
def execLinkDark (a : RegWr) (s : State) : Out := .next (s.linkDarkWrite a)

/-- LOOP (R364): Starts or stops a loop and pattern on an eligible lane, sending LOOP blocks. -/
def execLnkLoop (l : Fin 44) (a : RegWr) (s : State) : Out := .next (s.loopWrite l.val a)

end Sys2Proof.Machine
end

