-- ==== Sys2Proof/Machine/PowerCommands.lean ====
section
/-! DEFINITION. Admission, power, reset, clocks, temperature and calibration (chapters 18 and 19). One meaning per command of the table. -/

namespace Sys2Proof.Machine

/-- THM_UNIT_RESET (R536): Re-tests every temperature sensor. -/
def execThmUnitReset (a : RegWr) (retest : List Sample) (s : State) : Out := .next (s.ctrlWrite pgTHM a false retest)

/-- CAL_UNIT_RESET (R534): Abandons a calibration run with ABORT_RESET. -/
def execCalUnitReset (a : RegWr) (s : State) : Out := .next (s.ctrlWriteFree pgCAL a)

/-- LEAVE_GRANT (R496): The oldest waiting leave request is granted once it fits the effective budget. -/
def execLeaveGrant (s : State) : Out := .next (s.leaveGrantRow)

/-- ADM_BUDGET (R495): The owner host sets the admission budget. -/
def execAdmBudget (a : RegWr) (s : State) : Out := .next (s.plainWrite Reg.admBudget a)

/-- WARN (R489): A rail in warning for 2 samples holds the admission grants and is recorded. -/
def execRailWarn (r : Fin 8) (m1 m2 : BitVec 16) (s : State) : Out := .next (s.railWarnRow r.val m1.toNat m2.toNat)

/-- RECOVER (R488): A rail leaves warning after 2 samples above its level. -/
def execRailRecover (r : Fin 8) (m1 m2 : BitVec 16) (s : State) : Out := .next (s.railRecoverRow r.val m1.toNat m2.toNat)

/-- HOLDOFF_END (R27): One millisecond after recovery, the admission unit resumes grants. -/
def execHoldoffEnd (s : State) : Out := .next (s.holdoffEndRow)

/-- OVERVOLT (R491): A rail at over-voltage sets OV and logs a fault. -/
def execOvervolt (r : Fin 8) (mv : BitVec 16) (s : State) : Out := .next (s.overvoltRow r.val mv.toNat)

/-- VHOLD_LOW (R491): VHOLD below 11.0 V sets VHOLD_LOW and logs a fault. -/
def execVholdLow (mv : BitVec 16) (s : State) : Out := .next (s.vholdRow mv.toNat)

/-- RAIL_RESET_LEVEL (R490): A rail at its reset level for 4 samples starts the dark sequence. -/
def execRailResetLevel (r : Fin 8) (m1 m2 m3 m4 : BitVec 16) (s : State) : Out := .next (s.railResetRow r.val [m1.toNat, m2.toNat, m3.toNat, m4.toNat])

/-- VIN_TRIGGER (R488): VIN at or below 10.8 V for 2 samples starts the dark sequence. -/
def execVinTrigger (m1 m2 : BitVec 16) (s : State) : Out := .next (s.vinRow m1.toNat m2.toNat)

/-- PWRFAIL_N (R510): PWRFAIL_N low starts the dark sequence. -/
def execPwrfailN (level : Bool) (s : State) : Out := .next (s.pwrfailRow level)

/-- DARK_SEQUENCE_END (R510): At 250 µs every domain but the always-on island is off, lanes are idle, and a thermal shutdown latches. -/
def execDarkSequenceEnd (s : State) : Out := .next (s.darkEndRow)

/-- REF_LOST (R500): REFCLK absent for 1 µs moves to the internal oscillator and starts the dark sequence. -/
def execRefLost (s : State) : Out := .next (s.refLostRow)

/-- RESET_N (R502): RESET_N low for 1 µs starts the dark sequence and holds cold reset. -/
def execResetN (level : Bool) (s : State) : Out := .next (s.resetNRow level)

/-- POR_N (R503): POR_N low holds cold reset, running the dark sequence first if the device runs. -/
def execPorN (level : Bool) (s : State) : Out := .next (s.porRow level)

/-- COLD_RELEASE (R505): After 10 ms of good conditions the cold release starts at step 0 and samples the straps. -/
def execColdRelease (bifurStrap sbAddr : BitVec 2) (s : State) : Out := .next (s.coldReleaseRow bifurStrap.toNat sbAddr.toNat)

/-- RELEASE_STEP (R505): After its gap, a release step releases its units as their clock-goods arrive. -/
def execReleaseStep (good : BitVec 214) (s : State) : Out := .next (s.releaseStepRow good.toNat)

/-- NO_CLOCK (R505): A clock-good missing at its timeout leaves the unit in reset as NO_CLOCK. -/
def execNoClock (page : BitVec 10) (dom : BitVec 8) (s : State) : Out := .next (s.noClockRow page.toNat dom.toNat)

/-- RESET_OUT_RELEASE (R507): RESET_OUT_N goes high 10 ms after step 8 or after a warm reset completes. -/
def execResetOutRelease (s : State) : Out := .next (s.resetOutRow)

/-- WARM_N (R502): A falling edge of WARM_N starts a warm reset. -/
def execWarmN (level : Bool) (s : State) : Out := .next (s.warmNRow level)

/-- WARM (R518): The owner host requests a warm reset through RST_CTRL.WARM. -/
def execRstWarm (a : RegWr) (s : State) : Out := .next (s.rstCtrlWrite a)

/-- WARM_DONE (R508): The hardware part of the warm reset completes after its release steps. -/
def execWarmDone (s : State) : Out := .next (s.warmDoneRow)

/-- WDOG_EXPIRY (R504): Watchdog expiry causes a warm reset, or a cold reset on the third within 10 s. -/
def execWdogExpiry (s : State) : Out := .next (s.wdogRow)

/-- RST_WDOG_KICK (R504): Helm restarts the watchdog with the key. -/
def execRstWdogKick (by_ : Option (Fin 4)) (v : BitVec 32) (s : State) : Out := .next (s.wdogKick (by_.map (·.val)) v)

/-- CG_LOST (R499): A falling clock-good makes its unit FAULT. -/
def execCgLost (dom : BitVec 8) (s : State) : Out := .next (s.cgLostRow dom.toNat)

/-- CLK_MEAS_SEL (R519): Starts a 1 ms frequency count of a clock domain. -/
def execClkMeasSel (a : RegWr) (s : State) : Out := .next (s.measWrite a)

/-- CLK_MEAS_DONE (R519): The frequency count ends, and CLK_MEAS becomes valid. -/
def execClkMeasDone (khz : BitVec 24) (s : State) : Out := .next (s.measDoneRow khz.toNat)

/-- MIN_RESET (R517): Loads every rail minimum with its latest sample. -/
def execMinReset (a : RegWr) (s : State) : Out := .next (s.pwrCtrlWrite a)

/-- THERMAL_SAMPLE (R522): All 64 sensors are sampled, and zone levels and shutdown are judged. -/
def execThermalSample (samples : List Sample) (s : State) : Out := .next (s.thermalRow samples)

/-- THM_THR_WRITE (R527): The owner host writes throttle thresholds, restarting the zone counts. -/
def execThmThrWrite (stack : Bool) (a : RegWr) (s : State) : Out := .next (s.thrWrite (if stack then Reg.thmThrStk else Reg.thmThrDie) a)

/-- CAL_START (R531): The owner host starts a calibration run. -/
def execCalStart (a : RegWr) (s : State) : Out := .next (s.calCtrlWrite a)

/-- CAL_DONE (R532): A calibration run ends, applying its new trims together unless DRY_RUN or an error applies. -/
def execCalDone (m : CalResult) (s : State) : Out := .next (s.calDoneRow m)

/-- VAON_REMOVED (R512): VAON below 0.50 V with VHOLD below 6.0 V unpowers the always-on island, clearing THM_LATCH and every retained field. -/
def execVaonRemoved (s : State) : Out := .next (s.vaonRow)

/-- OVERVOLT_CLEAR (R516): A rail sample below its over-voltage level clears OV, and the PWR page leaves FAULT. -/
def execOvervoltClear (r : Fin 8) (mv : BitVec 16) (s : State) : Out := .next (s.overvoltClearRow r.val mv.toNat)

end Sys2Proof.Machine
end

