-- ==== Sys2Proof/Machine/RingCommands.lean ====
section
/-! DEFINITION. The commands that a host's rings bring: processing of the descriptor at the front of ring r of host h (chapters 4, 8, 9). One meaning per command of the table. -/

namespace Sys2Proof.Machine

/-- ALLOCATION_RESUME on a ring: the command at its front that waits for granules is processed again (R279). -/
def State.resumeRing (s : State) (h r : Nat) : State :=
  match ((s.ring h r).front.filter (·.admitted)).map Desc.op with
  | some 0x06 => s.ringRow h r 0x06 (State.runLayerCreate h r)
  | some 0x09 => s.ringRow h r 0x09 (State.runUpload h r)
  | some 0x0A => s.ringRow h r 0x0A (State.runDecode h r)
  | _ => s

/-- TX_BEGIN (R260): Opens a new transaction under a free handle, taking one open-transaction unit. -/
def execTxBegin (h : Fin 4) (r : Fin 16) (s : State) : Out := .next (s.ringRow h.val r.val 0x01 (State.runTxBegin h.val r.val))

/-- TX_COMMIT (R261): Closes a transaction to CLOSING; it seals once its earlier commands have completed. -/
def execTxCommit (h : Fin 4) (r : Fin 16) (s : State) : Out := .next (s.ringRow h.val r.val 0x02 (State.runCommit h.val r.val none))

/-- TX_ABORT (R263): Rolls back an OPEN or CLOSING transaction, completing its uncompleted commands with ABORT_ROLLBACK. -/
def execTxAbort (h : Fin 4) (r : Fin 16) (s : State) : Out := .next (s.ringRow h.val r.val 0x03 (State.runTxAbort h.val r.val))

/-- CTX_OPEN (R94): Creates a context with a staged age, or updates VEIL, BOUND and SHARED of an existing one. -/
def execCtxOpen (h : Fin 4) (r : Fin 16) (s : State) : Out := .next (s.ringRow h.val r.val 0x04 (State.runCtxOpen h.val r.val))

/-- CTX_CLOSE (R98): Removes a context with all its layers and regions in the same commit. -/
def execCtxClose (h : Fin 4) (r : Fin 16) (s : State) : Out := .next (s.ringRow h.val r.val 0x05 (State.runCtxClose h.val r.val))

/-- LAYER_CREATE (R99): Creates a layer, allocating its zero-filled planes under quota. -/
def execLayerCreate (h : Fin 4) (r : Fin 16) (s : State) : Out := .next (s.ringRow h.val r.val 0x06 (State.runLayerCreate h.val r.val))

/-- ALLOCATION_RESUME (R279): A command waiting for FREE_ZERO granules proceeds once zeroing, reclaim or spill has made them available. -/
def execAllocationResume (h : Fin 4) (ring : Option (Fin 16)) (s : State) : Out := .next (match ring with | some r => s.resumeRing h.val r.val | none => s.resumeTwd h.val)

/-- LAYER_DESTROY (R110): Destroys a layer; it leaves the scene at the cut, and its memory is reclaimed after its last subframe. -/
def execLayerDestroy (h : Fin 4) (r : Fin 16) (s : State) : Out := .next (s.ringRow h.val r.val 0x07 (State.runLayerDestroy h.val r.val))

/-- LAYER_SET (R99): Changes the SET fields of a layer inside a transaction. -/
def execLayerSet (h : Fin 4) (r : Fin 16) (s : State) : Out := .next (s.ringRow h.val r.val 0x08 (State.runLayerChange h.val r.val setFields))

/-- LAYER_MOVE (R99): Changes the position and depth of a layer inside a transaction. -/
def execLayerMove (h : Fin 4) (r : Fin 16) (s : State) : Out := .next (s.ringRow h.val r.val 0x0B (State.runLayerChange h.val r.val moveFields))

/-- UPLOAD (R251): Creates or extends an upload and issues the host-memory read of its bytes. -/
def execUpload (h : Fin 4) (r : Fin 16) (s : State) : Out := .next (s.ringRow h.val r.val 0x09 (State.runUpload h.val r.val))

/-- UPLOAD_DONE (R251): The host read of an UPLOAD completes, and the command completes with OK or ERR_MEMORY. -/
def execUploadDone (h : Fin 4) (r : Fin 16) (n : BitVec 32) (reply : HostRead) (s : State) : Out := .next (s.uploadDone h.val r.val n.toNat reply)

/-- DECODE (R126): Checks a DECODE record and hands it to the codec group, which divides it into jobs. -/
def execDecode (h : Fin 4) (r : Fin 16) (s : State) : Out := .next (s.ringRow h.val r.val 0x0A (State.runDecode h.val r.val))

/-- REGION_SET (R115): Creates or replaces a watch region inside a transaction. -/
def execRegionSet (h : Fin 4) (r : Fin 16) (s : State) : Out := .next (s.ringRow h.val r.val 0x0C (State.runRegionSet h.val r.val))

/-- REGION_CLEAR (R114): Removes a watch region inside a transaction. -/
def execRegionClear (h : Fin 4) (r : Fin 16) (s : State) : Out := .next (s.ringRow h.val r.val 0x0D (State.runRegionClear h.val r.val))

/-- FENCE (R256): Completes once earlier descriptors of its ring and of the masked rings have completed. -/
def execFence (h : Fin 4) (r : Fin 16) (s : State) : Out := .next (s.ringRow h.val r.val 0x0E (State.runDone h.val r.val))

/-- MARK_FRESH (R228): Gives a context a staged age equal to the declared age plus the ticks since its doorbell stamp. -/
def execMarkFresh (h : Fin 4) (r : Fin 16) (s : State) : Out := .next (s.ringRow h.val r.val 0x0F (State.runMarkFresh h.val r.val))

/-- SCHED_COMMIT (R205): Closes a transaction for sealing at a Sextant target, or seals it at once as LATE or rolls it back under SCHED_STRICT. -/
def execSchedCommit (h : Fin 4) (r : Fin 16) (s : State) : Out := .next (s.ringRow h.val r.val 0x10 (fun d x => State.runCommit h.val r.val (some (d.rec_ 0 4, d.flags.testBit 2)) d x))

/-- READBACK (R253): Writes a 64-byte result block describing an object, then its completion. -/
def execReadback (h : Fin 4) (r : Fin 16) (s : State) : Out := .next (s.ringRow h.val r.val 0x11 (State.runReadback h.val r.val))

/-- NOP (R250): Completes at processing with OK. -/
def execNop (h : Fin 4) (r : Fin 16) (s : State) : Out := .next (s.ringRow h.val r.val 0x12 (State.runDone h.val r.val))

/-- RING_TAIL (R246): A doorbell write publishes descriptors and takes a Sextant stamp, or is refused as DOORBELL. -/
def execRingTail (h : Fin 4) (r : Fin 16) (a : RegWr) (s : State) : Out := .next (s.tailWrite h.val r.val a)

/-- DESCRIPTOR_FETCH (R248): A fetch read of up to 64 descriptors completes under the host-service arbiter. -/
def execDescriptorFetch (h : Fin 4) (r : Fin 16) (reply : HostRead) (s : State) : Out := .next (s.fetchRow h.val r.val reply)

/-- RUN (R270): Writing RING_CTRL.RUN to 1 starts fetching, clears HALTED and writes held completions first. -/
def execRingRun (h : Fin 4) (r : Fin 16) (a : RegWr) (s : State) : Out := .next (s.ringCtrlWrite h.val r.val a)

/-- DISCARD (R270): Drops held completions and empties the ring. -/
def execRingDiscard (h : Fin 4) (r : Fin 16) (a : RegWr) (s : State) : Out := .next (s.ringCtrlWrite h.val r.val a)

/-- OVERLOAD (R268): At the end of each 100-tick window the backlog growth is judged, and OVERLOAD is latched after enough growing windows. -/
def execCmdOverload (s : State) : Out := .next (s.overloadRow)

/-- SEAL (R261): A closed transaction seals once its commands, decodes and 2D operations have completed and its layers are resident, and takes a sequencer position. -/
def execSeal (h : Fin 4) (t : Fin 256) (s : State) : Out := .next (s.sealRow h.val t.val)

/-- SCHED_SEAL (R205): A scheduled transaction seals when Sextant time reaches its TARGET. -/
def execSchedSeal (h : Fin 4) (t : Fin 256) (s : State) : Out := .next (s.schedSealRow h.val t.val)

end Sys2Proof.Machine
end

