-- ==== Sys2Proof/Machine/TimeCommands.lean ====
section
/-! DEFINITION. The Sextant, its timers and the time port (chapter 15). One meaning per command of the table. -/

namespace Sys2Proof.Machine

/-- SXT_UNIT_RESET (R434): Leaves the Sextant running and retrains the time port link. -/
def execSxtUnitReset (a : RegWr) (s : State) : Out := .next (s.ctrlWriteFree pgSXT a)

/-- TIME_PORT_ENABLE (R421): Requests leave and trains the time port. -/
def execTimePortEnable (a : RegWr) (s : State) : Out := .next (s.ctrlWriteFree pgETH a)

/-- WRAP (R408): SXT_NOW wraps, and SXT_WRAPS increments. -/
def execSxtWrap (s : State) : Out := .next (s.wrapRow)

/-- SXT_INC_HI (R410): Makes both increment halves live from the next tick. -/
def execSxtIncHi (a : RegWr) (s : State) : Out := .next (s.incWrite a)

/-- SXT_ADJ (R411): Starts or replaces a slew of the Sextant time. -/
def execSxtAdj (a : RegWr) (s : State) : Out := .next (s.adjWrite a)

/-- SLEW_END (R411): The last tick of a slew adds the exact remainder. -/
def execSlewEnd (s : State) : Out := .next (s.slewEndRow)

/-- SET (R412): Requests a load of the Sextant time at the next subframe start. -/
def execSxtSet (a : RegWr) (s : State) : Out := .next (s.sxtCtrlWrite a)

/-- SET_APPLIED (R432): E is loaded at a subframe start, waiting targets are re-judged, and the device returns to the wall timeline. -/
def execSetApplied (s : State) : Out := .next (s.setAppliedRow)

/-- SNAP (R413): Copies SXT_NOW, SXT_FRAC and SXT_WRAPS from one tick. -/
def execSxtSnap (a : RegWr) (s : State) : Out := .next (s.sxtCtrlWrite a)

/-- HOLD (R418): Forces or releases Sextant HOLDOVER. -/
def execSxtHold (a : RegWr) (s : State) : Out := .next (s.sxtCtrlWrite a)

/-- LOCKED (R418): Sixteen offsets within the lock window move the Sextant to LOCKED. -/
def execSxtLocked (offsets : List Int) (s : State) : Out := .next (s.lockedRow offsets)

/-- HOLDOVER (R418): No valid offset for 4 s, or a Helm reset or link loss, forces HOLDOVER. -/
def execSxtHoldover (why : HoldCause) (s : State) : Out := .next (s.holdoverRow why)

/-- ACT_ARM (R429): Arms an action timer, firing it at once if its target is past. -/
def execActArm (n : Fin 4) (a : RegWr) (s : State) : Out := .next (s.actArmWrite n.val a)

/-- ACT_DONE (R429): An action timer reaches its target and performs its GPIO action. -/
def execActDone (n : Fin 4) (s : State) : Out := .next (s.actDoneRow n.val)

/-- ACT_PULSE_END (R431): A timer pulse of WIDTH ends, and the GPIO returns to its previous level. -/
def execActPulseEnd (n : Fin 4) (s : State) : Out := .next (s.actPulseEndRow n.val)

/-- CAPTURE (R430): A selected GPIO edge records SXT_NOW in CAP_TIME. -/
def execGpioCapture (m : Fin 2) (rising : Bool) (s : State) : Out := .next (s.captureRow m.val rising)

/-- GPIO_CFG (R431): Selects a GPIO ball's function and level. -/
def execGpioCfg (n : Fin 16) (a : RegWr) (s : State) : Out := .next (s.gpioWrite n.val a)

/-- PTP_RX (R424): A received PTP frame is accepted and timestamped, or dropped as malformed. -/
def execPtpRx (frame : List Byte) (mac : Timestamp) (s : State) : Out := .next (s.ethRx frame true (some mac))

/-- ETH_OTHER (R423): A frame not for the device, with a bad FCS or arriving while Helm is in reset is dropped and counted. -/
def execEthOther (frame : List Byte) (fcsOk : Bool) (s : State) : Out := .next (s.ethRx frame fcsOk none)

/-- PTP_TX (R425): A PTP event frame is sent and timestamped, with one-step correction inserted. -/
def execPtpTx (frame : List Byte) (base mac : Timestamp) (s : State) : Out := .next (s.ptpTxRow frame base mac)

/-- WALL_STATUS_RX (R428): A received wall-status message is counted and checked for an epoch mismatch. -/
def execWallStatusRx (frame : List Byte) (s : State) : Out := .next (s.ethRx frame true none)

/-- TIME_LINK_UP (R435): The time port link comes up. -/
def execTimeLinkUp (s : State) : Out := .next (s.timeLinkUpRow)

/-- TIME_LINK_DOWN (R435): The time port link goes down. -/
def execTimeLinkDown (s : State) : Out := .next (s.timeLinkDownRow)

end Sys2Proof.Machine
end

