-- ==== Sys2Proof/Machine/Dispatch.lean ====
section
/-! DEFINITION. The dispatch: one arm per command. -/

namespace Sys2Proof.Machine

/-- The effect of a command on everything but the queue. -/
def exec (i : Instr) (s : State) : Host.Outcome State Fault Refusal :=
  match i with
  | .txBegin h r => Sys2Proof.Machine.execTxBegin h r s
  | .txCommit h r => Sys2Proof.Machine.execTxCommit h r s
  | .txAbort h r => Sys2Proof.Machine.execTxAbort h r s
  | .ctxOpen h r => Sys2Proof.Machine.execCtxOpen h r s
  | .ctxClose h r => Sys2Proof.Machine.execCtxClose h r s
  | .layerCreate h r => Sys2Proof.Machine.execLayerCreate h r s
  | .allocationResume h ring => Sys2Proof.Machine.execAllocationResume h ring s
  | .layerDestroy h r => Sys2Proof.Machine.execLayerDestroy h r s
  | .layerSet h r => Sys2Proof.Machine.execLayerSet h r s
  | .layerMove h r => Sys2Proof.Machine.execLayerMove h r s
  | .upload h r => Sys2Proof.Machine.execUpload h r s
  | .uploadDone h r n reply => Sys2Proof.Machine.execUploadDone h r n reply s
  | .decode h r => Sys2Proof.Machine.execDecode h r s
  | .regionSet h r => Sys2Proof.Machine.execRegionSet h r s
  | .regionClear h r => Sys2Proof.Machine.execRegionClear h r s
  | .fence h r => Sys2Proof.Machine.execFence h r s
  | .markFresh h r => Sys2Proof.Machine.execMarkFresh h r s
  | .schedCommit h r => Sys2Proof.Machine.execSchedCommit h r s
  | .readback h r => Sys2Proof.Machine.execReadback h r s
  | .nop h r => Sys2Proof.Machine.execNop h r s
  | .ringTail h r a => Sys2Proof.Machine.execRingTail h r a s
  | .descriptorFetch h r reply => Sys2Proof.Machine.execDescriptorFetch h r reply s
  | .ringRun h r a => Sys2Proof.Machine.execRingRun h r a s
  | .ringDiscard h r a => Sys2Proof.Machine.execRingDiscard h r a s
  | .cmdOverload => Sys2Proof.Machine.execCmdOverload s
  | .seal h t => Sys2Proof.Machine.execSeal h t s
  | .schedSeal h t => Sys2Proof.Machine.execSchedSeal h t s
  | .jobDispatch e => Sys2Proof.Machine.execJobDispatch e s
  | .jobDone e ecc => Sys2Proof.Machine.execJobDone e ecc s
  | .selfCheck e => Sys2Proof.Machine.execSelfCheck e s
  | .engineLeaveRelease e => Sys2Proof.Machine.execEngineLeaveRelease e s
  | .commitCut => Sys2Proof.Machine.execCommitCut s
  | .subframeStart => Sys2Proof.Machine.execSubframeStart s
  | .tempLost => Sys2Proof.Machine.execTempLost s
  | .lineScanout y u => Sys2Proof.Machine.execLineScanout y u s
  | .spanDone c found => Sys2Proof.Machine.execSpanDone c found s
  | .spanStall c => Sys2Proof.Machine.execSpanStall c s
  | .spanDatapath c k permanent => Sys2Proof.Machine.execSpanDatapath c k permanent s
  | .sprAutocap a => Sys2Proof.Machine.execSprAutocap a s
  | .freshnessTick => Sys2Proof.Machine.execFreshnessTick s
  | .tickLost => Sys2Proof.Machine.execTickLost s
  | .localTick => Sys2Proof.Machine.execLocalTick s
  | .guardCopyCheck bad => Sys2Proof.Machine.execGuardCopyCheck bad s
  | .compassCopyCheck bad => Sys2Proof.Machine.execCompassCopyCheck bad s
  | .cfgOpen a => Sys2Proof.Machine.execCfgOpen a s
  | .cfgCommit a => Sys2Proof.Machine.execCfgCommit a s
  | .cfgAbort a => Sys2Proof.Machine.execCfgAbort a s
  | .rwsWrite page off a => Sys2Proof.Machine.execRwsWrite page off a s
  | .cmpProbeXy a => Sys2Proof.Machine.execCmpProbeXy a s
  | .frsQuery a => Sys2Proof.Machine.execFrsQuery a s
  | .domMapQuery a => Sys2Proof.Machine.execDomMapQuery a s
  | .calQuery a => Sys2Proof.Machine.execCalQuery a s
  | .queryResult h q => Sys2Proof.Machine.execQueryResult h q s
  | .registerWrite page off a => Sys2Proof.Machine.execRegisterWrite page off a s
  | .rcRead h page off be => Sys2Proof.Machine.execRcRead h page off be s
  | .unitEventClear page a => Sys2Proof.Machine.execUnitEventClear page a s
  | .unitFaultClear page a => Sys2Proof.Machine.execUnitFaultClear page a s
  | .compassUnitReset a => Sys2Proof.Machine.execCompassUnitReset a s
  | .guardUnitReset a testOk => Sys2Proof.Machine.execGuardUnitReset a testOk s
  | .spireUnitReset page a => Sys2Proof.Machine.execSpireUnitReset page a s
  | .scoUnitReset a => Sys2Proof.Machine.execScoUnitReset a s
  | .portUnitReset p a => Sys2Proof.Machine.execPortUnitReset p a s
  | .laneUnitReset l a => Sys2Proof.Machine.execLaneUnitReset l a s
  | .zoneUnitReset z a => Sys2Proof.Machine.execZoneUnitReset z a s
  | .belfryUnitReset a => Sys2Proof.Machine.execBelfryUnitReset a s
  | .domUnitReset page a => Sys2Proof.Machine.execDomUnitReset page a s
  | .thmUnitReset a retest => Sys2Proof.Machine.execThmUnitReset a retest s
  | .calUnitReset a => Sys2Proof.Machine.execCalUnitReset a s
  | .sxtUnitReset a => Sys2Proof.Machine.execSxtUnitReset a s
  | .twdUnitReset h a => Sys2Proof.Machine.execTwdUnitReset h a s
  | .compassEnable a => Sys2Proof.Machine.execCompassEnable a s
  | .portEnable p a => Sys2Proof.Machine.execPortEnable p a s
  | .laneEnable l a => Sys2Proof.Machine.execLaneEnable l a s
  | .beaconEnable a => Sys2Proof.Machine.execBeaconEnable a s
  | .zoneEnable z a => Sys2Proof.Machine.execZoneEnable z a s
  | .stringEnable z n a => Sys2Proof.Machine.execStringEnable z n a s
  | .belfryEnable a => Sys2Proof.Machine.execBelfryEnable a s
  | .pairEnable a => Sys2Proof.Machine.execPairEnable a s
  | .timePortEnable a => Sys2Proof.Machine.execTimePortEnable a s
  | .clusterEnable c a => Sys2Proof.Machine.execClusterEnable c a s
  | .engineEnable e a => Sys2Proof.Machine.execEngineEnable e a s
  | .codecEnable a => Sys2Proof.Machine.execCodecEnable a s
  | .cmdEnable h a => Sys2Proof.Machine.execCmdEnable h a s
  | .quotaWrite h off a => Sys2Proof.Machine.execQuotaWrite h off a s
  | .leaveGrant => Sys2Proof.Machine.execLeaveGrant s
  | .admBudget a => Sys2Proof.Machine.execAdmBudget a s
  | .railWarn r m1 m2 => Sys2Proof.Machine.execRailWarn r m1 m2 s
  | .railRecover r m1 m2 => Sys2Proof.Machine.execRailRecover r m1 m2 s
  | .holdoffEnd => Sys2Proof.Machine.execHoldoffEnd s
  | .overvolt r mv => Sys2Proof.Machine.execOvervolt r mv s
  | .vholdLow mv => Sys2Proof.Machine.execVholdLow mv s
  | .railResetLevel r m1 m2 m3 m4 => Sys2Proof.Machine.execRailResetLevel r m1 m2 m3 m4 s
  | .vinTrigger m1 m2 => Sys2Proof.Machine.execVinTrigger m1 m2 s
  | .pwrfailN level => Sys2Proof.Machine.execPwrfailN level s
  | .darkSequenceEnd => Sys2Proof.Machine.execDarkSequenceEnd s
  | .refLost => Sys2Proof.Machine.execRefLost s
  | .resetN level => Sys2Proof.Machine.execResetN level s
  | .porN level => Sys2Proof.Machine.execPorN level s
  | .coldRelease bifurStrap sbAddr => Sys2Proof.Machine.execColdRelease bifurStrap sbAddr s
  | .releaseStep good => Sys2Proof.Machine.execReleaseStep good s
  | .noClock page dom => Sys2Proof.Machine.execNoClock page dom s
  | .resetOutRelease => Sys2Proof.Machine.execResetOutRelease s
  | .warmN level => Sys2Proof.Machine.execWarmN level s
  | .rstWarm a => Sys2Proof.Machine.execRstWarm a s
  | .warmDone => Sys2Proof.Machine.execWarmDone s
  | .wdogExpiry => Sys2Proof.Machine.execWdogExpiry s
  | .rstWdogKick by_ v => Sys2Proof.Machine.execRstWdogKick by_ v s
  | .cgLost dom => Sys2Proof.Machine.execCgLost dom s
  | .clkMeasSel a => Sys2Proof.Machine.execClkMeasSel a s
  | .clkMeasDone khz => Sys2Proof.Machine.execClkMeasDone khz s
  | .minReset a => Sys2Proof.Machine.execMinReset a s
  | .thermalSample samples => Sys2Proof.Machine.execThermalSample samples s
  | .thmThrWrite stack a => Sys2Proof.Machine.execThmThrWrite stack a s
  | .calStart a => Sys2Proof.Machine.execCalStart a s
  | .calDone m => Sys2Proof.Machine.execCalDone m s
  | .sxtWrap => Sys2Proof.Machine.execSxtWrap s
  | .sxtIncHi a => Sys2Proof.Machine.execSxtIncHi a s
  | .sxtAdj a => Sys2Proof.Machine.execSxtAdj a s
  | .slewEnd => Sys2Proof.Machine.execSlewEnd s
  | .sxtSet a => Sys2Proof.Machine.execSxtSet a s
  | .setApplied => Sys2Proof.Machine.execSetApplied s
  | .sxtSnap a => Sys2Proof.Machine.execSxtSnap a s
  | .sxtHold a => Sys2Proof.Machine.execSxtHold a s
  | .sxtLocked offsets => Sys2Proof.Machine.execSxtLocked offsets s
  | .sxtHoldover why => Sys2Proof.Machine.execSxtHoldover why s
  | .actArm n a => Sys2Proof.Machine.execActArm n a s
  | .actDone n => Sys2Proof.Machine.execActDone n s
  | .actPulseEnd n => Sys2Proof.Machine.execActPulseEnd n s
  | .gpioCapture m rising => Sys2Proof.Machine.execGpioCapture m rising s
  | .gpioCfg n a => Sys2Proof.Machine.execGpioCfg n a s
  | .ptpRx frame mac => Sys2Proof.Machine.execPtpRx frame mac s
  | .ethOther frame fcsOk => Sys2Proof.Machine.execEthOther frame fcsOk s
  | .ptpTx frame base mac => Sys2Proof.Machine.execPtpTx frame base mac s
  | .wallStatusRx frame => Sys2Proof.Machine.execWallStatusRx frame s
  | .timeLinkUp => Sys2Proof.Machine.execTimeLinkUp s
  | .timeLinkDown => Sys2Proof.Machine.execTimeLinkDown s
  | .bcStatus p bc msg => Sys2Proof.Machine.execBcStatus p bc msg s
  | .bcHealth p bc msg => Sys2Proof.Machine.execBcHealth p bc msg s
  | .crcReport p bc msg => Sys2Proof.Machine.execCrcReport p bc msg s
  | .laneLoss p bc msg => Sys2Proof.Machine.execLaneLoss p bc msg s
  | .loopResult p bc msg => Sys2Proof.Machine.execLoopResult p bc msg s
  | .rxLaneLocked l => Sys2Proof.Machine.execRxLaneLocked l s
  | .lockLoss l => Sys2Proof.Machine.execLockLoss l s
  | .retrainPass l => Sys2Proof.Machine.execRetrainPass l s
  | .retrainFail l => Sys2Proof.Machine.execRetrainFail l s
  | .linkDark a => Sys2Proof.Machine.execLinkDark a s
  | .lnkLoop l a => Sys2Proof.Machine.execLnkLoop l a s
  | .odData a => Sys2Proof.Machine.execOdData a s
  | .lightWindowOpen z => Sys2Proof.Machine.execLightWindowOpen z s
  | .pulseEnd z n len rise reads => Sys2Proof.Machine.execPulseEnd z n len rise reads s
  | .strTrip z n trip => Sys2Proof.Machine.execStrTrip z n trip s
  | .strUnverified z n => Sys2Proof.Machine.execStrUnverified z n s
  | .zoneStarted z => Sys2Proof.Machine.execZoneStarted z s
  | .neighbourPinTest a b short => Sys2Proof.Machine.execNeighbourPinTest a b short s
  | .strRearm z n a => Sys2Proof.Machine.execStrRearm z n a s
  | .cycleStart => Sys2Proof.Machine.execCycleStart s
  | .blfBankSwap a => Sys2Proof.Machine.execBlfBankSwap a s
  | .blfTemp a => Sys2Proof.Machine.execBlfTemp a s
  | .vlcdLow mv => Sys2Proof.Machine.execVlcdLow mv s
  | .dischargeEnd => Sys2Proof.Machine.execDischargeEnd s
  | .parHeartbeat blk => Sys2Proof.Machine.execParHeartbeat blk s
  | .parSignature blk => Sys2Proof.Machine.execParSignature blk s
  | .parYield blk => Sys2Proof.Machine.execParYield blk s
  | .swapReq blk => Sys2Proof.Machine.execSwapReq blk s
  | .swapAck blk => Sys2Proof.Machine.execSwapAck blk s
  | .parHello blk => Sys2Proof.Machine.execParHello blk s
  | .parDown blk => Sys2Proof.Machine.execParDown blk s
  | .parAck blk => Sys2Proof.Machine.execParAck blk s
  | .parNak blk => Sys2Proof.Machine.execParNak blk s
  | .parMap blk => Sys2Proof.Machine.execParMap blk s
  | .pairLinkReset cause => Sys2Proof.Machine.execPairLinkReset cause s
  | .partnerLost => Sys2Proof.Machine.execPartnerLost s
  | .aliveIn level => Sys2Proof.Machine.execAliveIn level s
  | .parCmdSwap a => Sys2Proof.Machine.execParCmdSwap a s
  | .dlDown h => Sys2Proof.Machine.execDlDown h s
  | .hotReset h => Sys2Proof.Machine.execHotReset h s
  | .flr h => Sys2Proof.Machine.execFlr h s
  | .hstUnitReset h a => Sys2Proof.Machine.execHstUnitReset h a s
  | .linkResetDone h => Sys2Proof.Machine.execLinkResetDone h s
  | .linkUp h speed width flit => Sys2Proof.Machine.execLinkUp h speed width flit s
  | .bar2Read h off len ecc => Sys2Proof.Machine.execBar2Read h off len ecc s
  | .bar2Write h off data poisoned => Sys2Proof.Machine.execBar2Write h off data poisoned s
  | .tlpError h e aer hdr => Sys2Proof.Machine.execTlpError h e aer hdr s
  | .completionTimeout h who => Sys2Proof.Machine.execCompletionTimeout h who s
  | .busMasterEnable h on => Sys2Proof.Machine.execBusMasterEnable h on s
  | .d3hot h on => Sys2Proof.Machine.execD3hot h on s
  | .msixUnmask h vec => Sys2Proof.Machine.execMsixUnmask h vec s
  | .logWrite h viol => Sys2Proof.Machine.execLogWrite h viol s
  | .logEnable h viol a => Sys2Proof.Machine.execLogEnable h viol a s
  | .spill => Sys2Proof.Machine.execSpill s
  | .pageIn g reply => Sys2Proof.Machine.execPageIn g reply s
  | .scrubBurst ecc => Sys2Proof.Machine.execScrubBurst ecc s
  | .retire => Sys2Proof.Machine.execRetire s
  | .stackDown k => Sys2Proof.Machine.execStackDown k s
  | .zeroFill g => Sys2Proof.Machine.execZeroFill g s
  | .domWinObj h w a => Sys2Proof.Machine.execDomWinObj h w a s
  | .watchTestStart cls target => Sys2Proof.Machine.execWatchTestStart cls target s
  | .watchTestEnd verdict => Sys2Proof.Machine.execWatchTestEnd verdict s
  | .sweepDone failed => Sys2Proof.Machine.execSweepDone failed s
  | .twdFill h a => Sys2Proof.Machine.execTwdFill h a s
  | .twdCopy h a => Sys2Proof.Machine.execTwdCopy h a s
  | .twdExpand h a => Sys2Proof.Machine.execTwdExpand h a s
  | .twdWriteStart h => Sys2Proof.Machine.execTwdWriteStart h s
  | .twdDone h ecc => Sys2Proof.Machine.execTwdDone h ecc s
  | .twdSelfCheck h => Sys2Proof.Machine.execTwdSelfCheck h s
  | .getInfo h a => Sys2Proof.Machine.execGetInfo h a s
  | .fwStage h a => Sys2Proof.Machine.execFwStage h a s
  | .mbxDone h reply => Sys2Proof.Machine.execMbxDone h reply s
  | .fwActivate h a => Sys2Proof.Machine.execFwActivate h a s
  | .fwConfirm h a => Sys2Proof.Machine.execFwConfirm h a s
  | .fwDiscard h a => Sys2Proof.Machine.execFwDiscard h a s
  | .mrExtend h a => Sys2Proof.Machine.execMrExtend h a s
  | .provision h a => Sys2Proof.Machine.execProvision h a s
  | .deprovision h a => Sys2Proof.Machine.execDeprovision h a s
  | .firmwareBoot => Sys2Proof.Machine.execFirmwareBoot s
  | .fwValUpdate => Sys2Proof.Machine.execFwValUpdate s
  | .getId h msg => Sys2Proof.Machine.execGetId h msg s
  | .getChain h msg => Sys2Proof.Machine.execGetChain h msg s
  | .getMeas h msg => Sys2Proof.Machine.execGetMeas h msg s
  | .doeAbort h => Sys2Proof.Machine.execDoeAbort h s
  | .sidebandRead page off => Sys2Proof.Machine.execSidebandRead page off s
  | .vaonRemoved => Sys2Proof.Machine.execVaonRemoved s
  | .closedInterval z => Sys2Proof.Machine.execClosedInterval z s
  | .engineUnitReset e a => Sys2Proof.Machine.execEngineUnitReset e a s
  | .cmdUnitReset h txnPage a => Sys2Proof.Machine.execCmdUnitReset h txnPage a s
  | .parViol blk => Sys2Proof.Machine.execParViol blk s
  | .doeDiscovery h msg => Sys2Proof.Machine.execDoeDiscovery h msg s
  | .overvoltClear r mv => Sys2Proof.Machine.execOvervoltClear r mv s

end Sys2Proof.Machine
end

