-- ==== Sys2Proof/Safety.lean ====
section
/-! DEFINITION. The terms in which statements speak: what a safe step is, the canonical forms of State, when a register write is taken, when a ring's command is ready, and when it has completed. -/

namespace Sys2Proof.Machine

/-! ## Safe steps -/

/-- A step is safe when it answers a next state: neither a fault nor a refusal. -/
def State.safeStep (s : State) : Prop := ∃ t, step s = .next t

/-- Scene memory is in its canonical form: addresses strictly rising, no listed byte equal to what an unlisted one reads as. -/
def Memory.wf (m : Sparse Byte) : Bool := swf (fun _ => 0) m

/-- The register file is in its canonical form: keys strictly rising, no entry equal to the register's cold value. -/
def Registers.wf (r : Sparse (BitVec 32)) : Bool := swf coldWord r

/-- The parts of State that are addressed like memory are in canonical form: registers, scene memory, unit states, transactions. -/
def State.canonical (s : State) : Prop :=
  Registers.wf s.base.regs = true ∧ Memory.wf s.dome.mem = true ∧ swf (fun _ => 0) s.base.own = true ∧
    swf (fun _ => none) s.scenes.txns = true

/-! ## Registers -/

/-- A register beyond the page header that is no LOST counter of a log: no event, fault, violation or state change touches it. -/
def unitReg (k : Nat) : Bool := decide (0x40 ≤ k % 4096) && !(List.range 8).any (fun i => (logLost i).key == k)

/-- What a write makes of the fields of the register at a key (Table 2.1). -/
def State.applied (s : State) (key : Nat) (a : RegWr) : Applied :=
  match descAt key with
  | some d => applyWrite d (s.base.word (storeKey a.host.toNat key)).toNat (s.sealWord key).toNat a
  | none => ⟨0, 0, 0, false, false⟩

/-- A register write is taken: the page is visible to the host (R33), the register exists and has a writable field (R34), the host has the right (R45), and the write meets no reserved encoding (R12). -/
def State.accepts (s : State) (key : Nat) (a : RegWr) : Bool :=
  s.base.visible a.host.toNat (key / 4096) && ((descAt key).map RegDesc.writable).getD false && s.base.mayWrite a.host.toNat key &&
    !(s.applied key a).bad && !(s.applied key a).rwsBad && comboLegal key (s.applied key a).word

/-- The register at a key has no staged (RWS) field. -/
def unstaged (key : Nat) : Bool := ((descAt key).map (fun d => d.flds.all (fun f => f.acc != .rws))).getD false

/-- The state with the RW and W1C fields of a taken write in the register. -/
def State.stored (s : State) (key : Nat) (a : RegWr) : State :=
  s.onBase (·.setWord (storeKey a.host.toNat key) (BitVec.ofNat 32 (s.applied key a).word))

/-- The write of UNIT_CTRL of a page is taken and asks for a unit reset, with ENABLE as it is; the page has its clock. -/
def State.asksReset (s : State) (p : Nat) (a : RegWr) : Bool :=
  s.accepts (hdr p 0x20) a && s.base.ownState p != uNOCLOCK && (s.applied (hdr p 0x20) a).act.testBit 1 &&
    (s.base.word (hdr p 0x20)).toNat % 2 == (s.applied (hdr p 0x20) a).word % 2

/-- The write of UNIT_CTRL of a page is taken and changes ENABLE to `on`, without a unit reset; the page has its clock. -/
def State.asksEnable (s : State) (p : Nat) (a : RegWr) (on : Bool) : Bool :=
  s.accepts (hdr p 0x20) a && s.base.ownState p != uNOCLOCK && !(s.applied (hdr p 0x20) a).act.testBit 1 &&
    (s.base.word (hdr p 0x20)).toNat % 2 != (s.applied (hdr p 0x20) a).word % 2 && (s.applied (hdr p 0x20) a).word % 2 == (if on then 1 else 0)

/-- The counter field has counted n more, stopping at its greatest value. -/
def State.counted (s t : State) (f : FieldRef) (n : Nat) : Prop :=
  t.base.get f = min (2 ^ (f.msb + 1 - f.lsb) - 1) (s.base.get f + n)

/-- Every register beyond the page headers and the LOST counters keeps its word, but those named. -/
def State.keepsBut (s t : State) (ks : List Nat) : Prop := ∀ k, unitReg k = true → k ∉ ks → t.base.word k = s.base.word k

/-- Every register beyond the page headers and the LOST counters keeps its word, but those of the named pages. -/
def State.keepsPages (s t : State) (ps : List Nat) : Prop := ∀ k, unitReg k = true → k / 4096 ∉ ps → t.base.word k = s.base.word k

/-- The pages that belong to one host: its link, command processor, transactions and 2D engine (Table 2.2). -/
abbrev hostPages (h : Nat) : List Nat := [pgHST h, pgCMD h, pgTXN h, pgTWD h]

/-- The hosts of a device: one, two or four links, and an owner among them (R441, Table 16.2). -/
def State.hostsOk (s : State) : Prop := s.base.nhosts ∈ [1, 2, 4] ∧ s.base.owner < s.base.nhosts

/-- The event bit of the page is pending. -/
def State.hasEvent (s : State) (p bit : Nat) : Bool := (s.base.word (hdr p 0x18)).toNat.testBit bit

/-- A pair-link message of a TYPE that is the next one in order on a link that is up (R468). -/
def State.inOrder (s : State) (m : List Byte) (type : Nat) : Bool :=
  s.par.up && !s.pairBad true m && leAt m 0 1 == type && leAt m 2 2 == s.par.rxSeq

/-- A pair-link control block of a TYPE on a link that is up (R468, R469). -/
def State.pairCtlOk (s : State) (m : List Byte) (type : Nat) : Bool := s.par.up && !s.pairBad false m && leAt m 0 1 == type

/-- A register of the Compass, guard, scan-out or Beacon page beyond the header that has no behaviour of its own under a write. -/
def plainKey (key : Nat) : Bool :=
  decide (0x40 ≤ key % 4096) && [pgCMP, pgFRS, pgSCO, pgBCN].contains (key / 4096) && !([Reg.cmpProbeXy, Reg.frsQuery, Reg.scoOdData].contains key)

/-- A write of MBX_CMD of host h is taken, sets GO while the block is not BUSY, names this OP, and passes every check of R553. -/
def State.mailbox (s : State) (h : Nat) (a : RegWr) (op : Nat) : Bool :=
  let key := Reg.mbxCmd h
  s.accepts key a && !s.base.flag (Reg.mbxStatus_BUSY h) && (s.applied key a).act.testBit 31 &&
    (s.stored key a).base.get (Reg.mbxCmd_OP h) == op && ((s.stored key a).mbxCheck h op).isNone

/-- The newest entry of a host's violation log that waits. -/
def State.lastViolation (s : State) (h : Nat) : Option LogEntry := (s.base.logq (2 * h + 1)).waiting.getLast?

/-! ## Command rings -/

/-- The next descriptor of ring r of host h is `d`, with this opcode, and its waits are over. -/
def State.ready (s : State) (h r op : Nat) (d : Desc) : Prop := s.next h r op = some d ∧ s.waits h r d = false

/-- The descriptor has completed: no descriptor of its ring with its identity is still pending. -/
def State.completed (s : State) (h r : Nat) (d : Desc) : Prop := ∀ e ∈ (s.ring h r).flight, e.id = d.id → e.pendingB = false

/-- A transaction without the fields that judging a schedule sets (R205). -/
def Txn.core (x : Txn) : Txn := { x with due := none, past := false, pord := 0 }

/-- The command ends with a status and INFO: it has completed, and when it is alone in its ring, its completion may be written and the link sends, its 16 bytes go to its place in the completion array (R254). -/
def State.answers (s t : State) (h r : Nat) (d : Desc) (st info : Nat) : Prop :=
  t.completed h r d ∧ ((s.ring h r).flight = [d] → (s.ring h r).held = false → d.drop = false → s.base.canSend h = true →
    Output.hostWrite h (s.base.addr64 (Reg.cplBaseLo h r) (Reg.cplBaseHi h r) + d.n % 2 ^ s.base.get (Reg.ringCtrl_LOG2 h r) * 16)
      (completionBytes r (s.base.get (Reg.ringCtrl_LOG2 h r)) s.base.now d st info none) ∈ t.base.out)

/-- The command is refused with a status and INFO: it ends with them and does nothing else (R250). No transaction, scene or granule changes. -/
def State.refuses (s t : State) (h r : Nat) (d : Desc) (st info : Nat) : Prop :=
  s.answers t h r d st info ∧ t.sealedScene = s.sealedScene ∧ (∀ k j, (t.txn k j).map Txn.core = (s.txn k j).map Txn.core) ∧
    t = { s with scenes := t.scenes, rings := t.rings, base := t.base }

/-- A LAYER_CREATE passes its checks (R92, R99, R102); its room is judged before it waits for granules, and then not again (R119, R279). -/
def State.layerChecked (s : State) (h : Nat) (d : Desc) : Bool :=
  let l := d.layer h s.scenes.oids
  l.width != 0 && l.height != 0 && !s.held h d .ctx l.ctx && decide (d.rec_ 6 1 ≤ 3) && d.rec_ 28 4 == 0 && !l.badForm &&
    decide (d.rec_ 0 2 ≤ 49151 ∧ d.rec_ 2 2 ≤ 40959 ∧ l.width ≤ 16384 ∧ l.height ≤ 16384) &&
    ((s.view h d.txn).layer (objKey h (d.rec_ 0 2))).isNone && !s.held h d .layer (objKey h (d.rec_ 0 2)) &&
    ((s.view h d.txn).ctx l.ctx).isSome && (d.admitted || (s.hasRoom 1 h 1 && s.hasRoom 5 h (l.planeGrans 0 + l.planeGrans 1)))

end Sys2Proof.Machine
end

