-- ==== Sys2Proof/Certificates/Slice0/Obligations.lean ====
section
/-! DEFINITION. The statements for the provers, from the numbered rules of spec/. Every completion statement concludes that exec answers a next state and says what that state holds; hypotheses speak of the state and the operands alone. -/

open Sys2Proof Sys2Proof.Machine

/-! ## The block as a whole -/

/-- With a command at the front of the queue, a step is exec of that command on the state with the queue's rest. On an empty queue a step is one 1.6 ns tick of the device (DESIGN CHOICE, log 1). -/
def Obligations.StepRunsTheFrontCommand : Prop :=
  (∀ (s : State) (c : Instr) (rest : List Instr), s.pending = c :: rest → step s = exec c { s with pending := rest }) ∧
  (∀ (s : State), s.pending = [] → step s = .next s.tick)

/-- The state after reset has an empty queue and is canonical; every register holds its cold value but RST_COUNT, which counts the power-up (log 2 names the values the spec does not give); cold reset is held; one host is its own owner until the release samples the straps. -/
def Obligations.ResetIsColdAndCanonical : Prop :=
  State.reset.pending = [] ∧ State.reset.canonical ∧ State.reset.hostsOk ∧ State.reset.pwr.held = true ∧
  ∀ k, k ≠ Reg.rstCount → State.reset.base.word k = coldWord k

/-- From every state a step answers a next state, never a fault or a refusal, and the queue afterwards is the queue before without its front: no command enters, leaves or changes the queue on its own. -/
def Obligations.EveryStepCompletesAndTakesOneCommand : Prop :=
  ∀ (s : State), ∃ t, step s = .next t ∧ t.pending = s.pending.tail

/-- From every canonical state, a step leads to a canonical state: register words, the bytes of scene memory, unit states and open transactions are listed with strictly rising keys and no entry equal to what an unlisted key reads as. -/
def Obligations.EveryStepKeepsTheCanonicalForm : Prop :=
  ∀ (s t : State), s.canonical → step s = .next t → t.canonical

/-- From every state with one, two or four hosts and an owner among them, a step leads to such a state; only the cold release and the loss of VAON change them. -/
def Obligations.EveryStepKeepsTheHosts : Prop :=
  (∀ (s t : State), s.hostsOk → step s = .next t → t.hostsOk) ∧
  (∀ (s t : State) (c : Instr), exec c s = .next t → (∀ strap addr, c ≠ .coldRelease strap addr) → c ≠ .vaonRemoved →
    t.base.nhosts = s.base.nhosts ∧ t.base.owner = s.base.owner)

/-- Beyond the page headers (events, faults, counts, states) and the LOST counters of the logs, each of these commands leaves every register as it was but those it names: rail samples, hold-off, clock measurement, link up and resets, log delivery, link errors, zeroing, spilling, stack loss, Dome resets, BAR2 writes, the configuration transaction, queries, calibration and DOE. The premise on the number of hosts is the invariant EveryStepKeepsTheHosts. -/
def Obligations.OnlyTheNamedRegistersChange : Prop :=
  ∀ (s t : State), s.base.nhosts ≤ 4 →
    (∀ r m1 m2, exec (.railWarn r m1 m2) s = .next t →
      s.keepsBut t [Reg.pwrStatus, Reg.pwrWarnLast, Reg.pwrWarnTime, Reg.pwrWarnDur, Reg.pwrWarns, Reg.pwrRail r]) ∧
    (∀ r m1 m2, exec (.railRecover r m1 m2) s = .next t → s.keepsBut t [Reg.pwrStatus, Reg.pwrWarnLast, Reg.pwrWarnDur, Reg.pwrRail r]) ∧
    (∀ r mv, exec (.overvolt r mv) s = .next t → s.keepsBut t [Reg.pwrStatus, Reg.pwrWarnLast, Reg.pwrRail r]) ∧
    (∀ r mv, exec (.overvoltClear r mv) s = .next t → s.keepsBut t [Reg.pwrStatus, Reg.pwrWarnLast, Reg.pwrRail r]) ∧
    (∀ mv, exec (.vholdLow mv) s = .next t → s.keepsBut t [Reg.pwrStatus, Reg.pwrWarnLast, Reg.pwrRail 8]) ∧
    (exec .holdoffEnd s = .next t → s.keepsBut t [Reg.pwrStatus]) ∧
    (exec .resetOutRelease s = .next t → s.keepsBut t []) ∧
    (∀ a, exec (.clkMeasSel a) s = .next t → s.keepsBut t [Reg.clkMeasSel, Reg.clkMeas]) ∧
    (∀ khz, exec (.clkMeasDone khz) s = .next t → s.keepsBut t [Reg.clkMeas]) ∧
    (∀ h sp w fl, exec (.linkUp h sp w fl) s = .next t → s.keepsBut t [Reg.hstLink h]) ∧
    (∀ h, exec (.linkResetDone h) s = .next t → s.keepsBut t []) ∧
    (∀ h v, exec (.msixUnmask h v) s = .next t → s.keepsBut t []) ∧
    (∀ h v, exec (.logWrite h v) s = .next t → s.keepsBut t [Reg.hstFlogWr h, Reg.hstVlogWr h]) ∧
    (∀ h e b l, exec (.tlpError h e b l) s = .next t → s.keepsBut t []) ∧
    (∀ h off data p, exec (.bar2Write h off data p) s = .next t → s.keepsBut t [Reg.domBar2Miss]) ∧
    (∀ g, exec (.zeroFill g) s = .next t → s.keepsBut t []) ∧
    (exec .spill s = .next t ∨ exec .retire s = .next t →
      s.keepsBut t ([Reg.domCe, Reg.domUe] ++ (List.range 8).flatMap (fun k => [Reg.stkCe k, Reg.stkUe k]))) ∧
    (∀ k, exec (.stackDown k) s = .next t → s.keepsBut t []) ∧
    (∀ p a, exec (.domUnitReset p a) s = .next t → s.keepsBut t []) ∧
    (∀ a, exec (.cfgOpen a) s = .next t → s.keepsBut t [Reg.cfgCtrl, Reg.cfgStatus]) ∧
    (∀ a, exec (.cfgCommit a) s = .next t → s.keepsBut t [Reg.cfgCtrl, Reg.cfgStatus]) ∧
    (∀ a, exec (.cfgAbort a) s = .next t → s.keepsBut t [Reg.cfgCtrl, Reg.cfgStatus]) ∧
    (∀ p a, exec (.unitEventClear p a) s = .next t → s.keepsBut t []) ∧
    (∀ p a, exec (.unitFaultClear p a) s = .next t → s.keepsBut t []) ∧
    (∀ h p off be, exec (.rcRead h p off be) s = .next t → s.keepsBut t [regKey p off]) ∧
    (∀ p off, exec (.sidebandRead p off) s = .next t → s.keepsBut t []) ∧
    (∀ h q, exec (.queryResult h q) s = .next t → s.keepsBut t [hostCopy h (queryOut q), hostCopy h Reg.frsQueryBound]) ∧
    (∀ a, exec (.calStart a) s = .next t → s.keepsBut t [Reg.calCtrl, Reg.calStatus, Reg.calDoneTime]) ∧
    (∀ m, exec (.calDone m) s = .next t → s.keepsBut t [Reg.calRef, Reg.calStatus, Reg.calDoneTime, Reg.calDelta]) ∧
    (∀ h m, exec (.doeDiscovery h m) s = .next t → s.keepsBut t []) ∧
    (∀ h m, exec (.getMeas h m) s = .next t → s.keepsBut t [])

/-- R32. A read of a register on a page visible to the reader answers with its value; with all four byte enables set every RC field reads 0 afterwards, and with any byte enable clear no register changes. -/
def Obligations.RcRegistersClearOnlyOnFullReads : Prop :=
  ∀ (s : State) (h : Fin 4) (page : BitVec 10) (off : BitVec 12) (be : BitVec 4), s.base.visible h page.toNat = true →
    ∃ t, exec (.rcRead h page off be) s = .next t ∧
      t.base.out.head? = some (.readData h page.toNat off.toNat (s.readWord h (regKey page off))) ∧
      (be = 15 → ∀ d f, descAt (regKey page off) = some d → f ∈ d.flds → f.acc = .rc → getBits (t.base.word (regKey page off)) f.msb f.lsb = 0) ∧
      (be ≠ 15 → t.base.regs = s.base.regs) ∧ t = { s with base := t.base }

/-- R38. In every state, when a page reads RETIRED in UNIT_STATE.STATE, every present page below it in the unit tree as a child reads RETIRED too. -/
def Obligations.ChildrenOfARetiredUnitReadRetired : Prop :=
  ∀ (s : State) (p c : Nat), c ∈ kidsOf p → s.base.present c = true → s.base.unitState p = uRETIRED → s.base.unitState c = uRETIRED

/-- R40. In every state the root's STATE is FAULT when a present child reads FAULT or NO_CLOCK, otherwise DEGRADED when one reads DEGRADED, otherwise READY; so it is never BUSY or OFF. -/
def Obligations.TheRootStateFollowsItsChildren : Prop :=
  ∀ (s : State),
    ((∃ c ∈ kidsOf 0, s.base.present c = true ∧ (s.base.unitState c = uFAULT ∨ s.base.unitState c = uNOCLOCK)) → s.base.unitState 0 = uFAULT) ∧
    ((¬ ∃ c ∈ kidsOf 0, s.base.present c = true ∧ (s.base.unitState c = uFAULT ∨ s.base.unitState c = uNOCLOCK)) →
      (∃ c ∈ kidsOf 0, s.base.present c = true ∧ s.base.unitState c = uDEGRADED) → s.base.unitState 0 = uDEGRADED) ∧
    ((¬ ∃ c ∈ kidsOf 0, s.base.present c = true ∧ (s.base.unitState c = uFAULT ∨ s.base.unitState c = uNOCLOCK ∨ s.base.unitState c = uDEGRADED)) →
      s.base.unitState 0 = uREADY) ∧
    s.base.unitState 0 ≠ uBUSY ∧ s.base.unitState 0 ≠ uOFF

/-- R77. Whatever K[v] and DMAX are, the disparity of depth 0 is 0, and clamping leaves depth 0 as it is. -/
def Obligations.DepthZeroHasNoDisparity : Prop :=
  ∀ (dmax : Nat) (k : Int), disparity dmax k 0 = 0 ∧ clampDepth dmax 0 = 0

/-! ## Scene commands of the rings -/

/-- TX_BEGIN under a free handle with quota opens an empty transaction and completes; TX_COMMIT and SCHED_COMMIT of an open transaction close it (SCHED_COMMIT with its TARGET and SCHED_STRICT), or end it at once when nothing was accepted into it. Only scenes, rings and the common core change; other transactions and the scene in force and sealed stand. TX_BEGIN is refused with REJ_RANGE, REJ_STATE or REJ_QUOTA, in this order, and a commit of a transaction that is not OPEN with REJ_TXN. -/
def Obligations.TransactionCommandsOpenAndClose : Prop :=
  (∀ (s : State) (h : Fin 4) (r : Fin 16) (d : Desc), s.ready h r 0x01 d → swf (fun _ => none) s.scenes.txns = true →
    d.txn < 256 → s.txn h d.txn = none → s.hasRoom 3 h 1 = true →
    ∃ t, exec (.txBegin h r) s = .next t ∧ (t.txn h d.txn).map Txn.core = some Txn.fresh ∧ t.completed h r d ∧
      (∀ k j, k * 256 + j ≠ h * 256 + d.txn → (t.txn k j).map Txn.core = (s.txn k j).map Txn.core) ∧
      t = { s with scenes := t.scenes, rings := t.rings, base := t.base } ∧ t.sealedScene = s.sealedScene) ∧
  (∀ (s : State) (h : Fin 4) (r : Fin 16) (d : Desc) (x : Txn), s.ready h r 0x02 d → swf (fun _ => none) s.scenes.txns = true →
    s.txn h d.txn = some x → s.joins h d = true → x.closing = false →
    ∃ t, exec (.txCommit h r) s = .next t ∧
      (t.txn h d.txn).map Txn.core =
        (if x.accepted then some (Txn.core { x with closing := true, commit := some d.id, sched := none }) else none) ∧
      (x.accepted = false → t.completed h r d) ∧
      t = { s with scenes := t.scenes, rings := t.rings, base := t.base } ∧ t.sealedScene = s.sealedScene) ∧
  (∀ (s : State) (h : Fin 4) (r : Fin 16) (d : Desc) (x : Txn), s.ready h r 0x10 d → swf (fun _ => none) s.scenes.txns = true →
    s.txn h d.txn = some x → s.joins h d = true → x.closing = false →
    ∃ t, exec (.schedCommit h r) s = .next t ∧
      (t.txn h d.txn).map Txn.core = (if x.accepted then
        some (Txn.core { x with closing := true, commit := some d.id, sched := some (d.rec_ 0 4, d.flags.testBit 2) }) else none) ∧
      (x.accepted = false → t.completed h r d) ∧
      t = { s with scenes := t.scenes, rings := t.rings, base := t.base } ∧ t.sealedScene = s.sealedScene) ∧
  (∀ (s : State) (h : Fin 4) (r : Fin 16) (d : Desc) (st : Nat), s.ready h r 0x01 d → swf (fun _ => none) s.scenes.txns = true →
    firstStatus [(decide (255 < d.txn), stRANGE), ((s.txn h d.txn).isSome, stSTATE), (!s.hasRoom 3 h 1, stQUOTA)] = some st →
    ∃ t, exec (.txBegin h r) s = .next t ∧ s.refuses t h r d st (if st = stQUOTA then 4 else 0)) ∧
  (∀ (s : State) (h : Fin 4) (r : Fin 16) (d : Desc) (c : Instr) (op : Nat), (op, c) ∈ [(0x02, .txCommit h r), (0x10, .schedCommit h r)] →
    s.ready h r op d → swf (fun _ => none) s.scenes.txns = true →
    (s.joins h d = false ∨ (s.txn h d.txn).map (·.closing) = some true) → ∃ t, exec c s = .next t ∧ s.refuses t h r d stTXN 0)

/-- A CTX_OPEN that passes its checks puts a new context with the record's VEIL, BOUND, SHARED and a staged age into its transaction, or changes an existing one; CTX_CLOSE takes the context with all its layers and regions out of what the transaction sees; MARK_FRESH stages an age of the context. Each completes; the scene in force and sealed stands. One that fails a check is refused with the status of the first check that fails. -/
def Obligations.ContextCommandsStageTheirChange : Prop :=
  (∀ (s : State) (h : Fin 4) (r : Fin 16) (d : Desc) (x : Txn), s.ready h r 0x04 d → swf (fun _ => none) s.scenes.txns = true →
    s.txn h d.txn = some x → s.joins h d = true → d.rec_ 2 1 = 0 ∨ (d.rec_ 2 1 = 2 ∧ (h : Nat) = s.base.owner) → d.rec_ 3 1 ≤ 2 → d.rec_ 6 2 = 0 → d.rec_ 11 1 = 0 → d.rec_ 12 4 = 0 →
    d.rec_ 0 2 ≤ 40959 → (s.view h d.txn).ctx (objKey h (d.rec_ 0 2)) = none → s.held h d .ctx (objKey h (d.rec_ 0 2)) = false →
    s.hasRoom 0 h 1 = true →
    ∃ t, exec (.ctxOpen h r) s = .next t ∧ t.completed h r d ∧
      (t.view h d.txn).ctx (objKey h (d.rec_ 0 2)) = some ⟨s.scenes.oids, d.rec_ 3 1, d.rec_ 4 2, d.rec_ 2 1 == 2, d.rec_ 8 3⟩ ∧
      ((t.txn h d.txn).map (fun y => y.ages)) = some (addAge x.ages ⟨objKey h (d.rec_ 0 2), s.scenes.oids, s.chargedAge d (d.rec_ 8 3)⟩) ∧
      ((t.txn h d.txn).map (fun y => y.newCtx)) = some (x.newCtx + 1) ∧
      t = { s with scenes := t.scenes, rings := t.rings, base := t.base } ∧ t.sealedScene = s.sealedScene) ∧
  (∀ (s : State) (h : Fin 4) (r : Fin 16) (d : Desc) (x : Txn) (c : Ctx), s.ready h r 0x04 d → swf (fun _ => none) s.scenes.txns = true →
    s.txn h d.txn = some x → s.joins h d = true → d.rec_ 2 1 = 1 ∨ (d.rec_ 2 1 = 3 ∧ (h : Nat) = s.base.owner) → d.rec_ 3 1 ≤ 2 → d.rec_ 6 2 = 0 → d.rec_ 11 1 = 0 → d.rec_ 12 4 = 0 →
    d.rec_ 0 2 ≤ 40959 → (s.view h d.txn).ctx (objKey h (d.rec_ 0 2)) = some c → s.held h d .ctx (objKey h (d.rec_ 0 2)) = false →
    d.rec_ 4 2 ≠ 0 ∨ s.criticalOn h d.txn (objKey h (d.rec_ 0 2)) c.oid = false →
    ∃ t, exec (.ctxOpen h r) s = .next t ∧ t.completed h r d ∧
      (t.view h d.txn).ctx (objKey h (d.rec_ 0 2)) = some { c with veil := d.rec_ 3 1, bound := d.rec_ 4 2, shared := d.rec_ 2 1 == 3 } ∧
      t = { s with scenes := t.scenes, rings := t.rings, base := t.base } ∧ t.sealedScene = s.sealedScene) ∧
  (∀ (s : State) (h : Fin 4) (r : Fin 16) (d : Desc) (x : Txn) (c : Ctx), s.ready h r 0x05 d → swf (fun _ => none) s.scenes.txns = true →
    s.txn h d.txn = some x → s.joins h d = true → d.rec_ 0 2 ≤ 40959 →
    (s.view h d.txn).ctx (objKey h (d.rec_ 0 2)) = some c → s.held h d .ctx (objKey h (d.rec_ 0 2)) = false →
    (∀ k ∈ (s.view h d.txn).layersOf (objKey h (d.rec_ 0 2)), s.held h d .layer k = false) →
    (∀ k ∈ (s.view h d.txn).regionsOf (objKey h (d.rec_ 0 2)), s.held h d .region k = false) →
    ∃ t, exec (.ctxClose h r) s = .next t ∧ t.completed h r d ∧
      (t.view h d.txn).ctx (objKey h (d.rec_ 0 2)) = none ∧
      (∀ k ∈ (s.view h d.txn).layersOf (objKey h (d.rec_ 0 2)), (t.view h d.txn).layer k = none) ∧
      (∀ k ∈ (s.view h d.txn).regionsOf (objKey h (d.rec_ 0 2)), (t.view h d.txn).region k = none) ∧
      t = { s with scenes := t.scenes, rings := t.rings, dome := t.dome, base := t.base } ∧ t.sealedScene = s.sealedScene) ∧
  (∀ (s : State) (h : Fin 4) (r : Fin 16) (d : Desc) (x : Txn) (c : Ctx), s.ready h r 0x0F d → swf (fun _ => none) s.scenes.txns = true →
    s.txn h d.txn = some x → s.joins h d = true → d.rec_ 2 2 = 0 → d.rec_ 7 1 = 0 → d.rec_ 8 8 = 0 → d.rec_ 0 2 ≤ 40959 →
    (s.view h d.txn).ctx (objKey h (d.rec_ 0 2)) = some c → s.held h d .ctx (objKey h (d.rec_ 0 2)) = false →
    ∃ t, exec (.markFresh h r) s = .next t ∧ t.completed h r d ∧
      ((t.txn h d.txn).map (fun y => y.ages)) = some (addAge x.ages ⟨objKey h (d.rec_ 0 2), c.oid, s.chargedAge d (d.rec_ 4 3)⟩) ∧
      t = { s with scenes := t.scenes, rings := t.rings, base := t.base } ∧ t.sealedScene = s.sealedScene) ∧
  (∀ (s : State) (h : Fin 4) (r : Fin 16) (d : Desc) (st : Nat), s.ready h r 0x04 d → swf (fun _ => none) s.scenes.txns = true →
    firstStatus [(!s.joins h d || ((d.rec_ 2 1).testBit 0 && s.held h d .ctx (objKey h (d.rec_ 0 2))), stTXN),
      (decide (3 < d.rec_ 2 1) || decide (2 < d.rec_ 3 1) || d.rec_ 6 2 != 0 || d.rec_ 11 1 != 0 || d.rec_ 12 4 != 0, stFORMAT),
      ((d.rec_ 2 1).testBit 1 && (h : Nat) != s.base.owner, stOWNER),
      (decide (40959 < d.rec_ 0 2) || ((d.rec_ 2 1).testBit 0 && d.rec_ 4 2 == 0 &&
        (((s.view h d.txn).ctx (objKey h (d.rec_ 0 2))).map (fun x => s.criticalOn h d.txn (objKey h (d.rec_ 0 2)) x.oid)).getD false), stRANGE),
      (if (d.rec_ 2 1).testBit 0 then ((s.view h d.txn).ctx (objKey h (d.rec_ 0 2))).isNone
        else ((s.view h d.txn).ctx (objKey h (d.rec_ 0 2))).isSome || s.held h d .ctx (objKey h (d.rec_ 0 2)), stSTATE),
      (!(d.rec_ 2 1).testBit 0 && !s.hasRoom 0 h 1, stQUOTA)] = some st →
    ∃ t, exec (.ctxOpen h r) s = .next t ∧ s.refuses t h r d st (if st = stQUOTA then 1 else 0)) ∧
  (∀ (s : State) (h : Fin 4) (r : Fin 16) (d : Desc) (st : Nat), s.ready h r 0x05 d → swf (fun _ => none) s.scenes.txns = true →
    firstStatus [(!s.joins h d || s.held h d .ctx (objKey h (d.rec_ 0 2)) || ((s.view h d.txn).layersOf (objKey h (d.rec_ 0 2))).any (s.held h d .layer) ||
        ((s.view h d.txn).regionsOf (objKey h (d.rec_ 0 2))).any (s.held h d .region), stTXN),
      (decide (40959 < d.rec_ 0 2), stRANGE), (((s.view h d.txn).ctx (objKey h (d.rec_ 0 2))).isNone, stSTATE)] = some st →
    ∃ t, exec (.ctxClose h r) s = .next t ∧ s.refuses t h r d st 0) ∧
  (∀ (s : State) (h : Fin 4) (r : Fin 16) (d : Desc) (st : Nat), s.ready h r 0x0F d → swf (fun _ => none) s.scenes.txns = true →
    firstStatus [(!s.joins h d || s.held h d .ctx (objKey h (d.rec_ 0 2)), stTXN), (d.rec_ 2 2 != 0 || d.rec_ 7 1 != 0 || d.rec_ 8 8 != 0, stFORMAT),
      (decide (40959 < d.rec_ 0 2), stRANGE), (((s.view h d.txn).ctx (objKey h (d.rec_ 0 2))).isNone, stSTATE)] = some st →
    ∃ t, exec (.markFresh h r) s = .next t ∧ s.refuses t h r d st 0)

/-- A LAYER_CREATE that passes its checks with granules free puts the record's layer, with newly taken granules for its planes, into its transaction; LAYER_DESTROY takes the layer out of what the transaction sees; LAYER_SET and LAYER_MOVE change the fields marked SET and MOVE in Table 4.2 and no other. Each completes; the scene in force and sealed stands. One for which granules can still come free waits for them, admitted, and takes nothing; one for which none can ends with ERR_MEMORY and MEM_SHORT. An ALLOCATION_RESUME of a waiting LAYER_CREATE runs it as LAYER_CREATE does. A command that fails a check is refused with the status of the first check that fails. -/
def Obligations.LayerCommandsStageTheirChange : Prop :=
  (∀ (s : State) (h : Fin 4) (r : Fin 16) (d : Desc) (x : Txn), s.ready h r 0x06 d → swf (fun _ => none) s.scenes.txns = true →
    s.txn h d.txn = some x → s.joins h d = true → s.layerChecked h d = true →
    s.allocState ((d.layer h s.scenes.oids).planeGrans 0 + (d.layer h s.scenes.oids).planeGrans 1) = 0 →
    ∃ t gc gz, exec (.layerCreate h r) s = .next t ∧ t.completed h r d ∧
      (t.view h d.txn).layer (objKey h (d.rec_ 0 2)) = some { d.layer h s.scenes.oids with gc := gc, gz := gz } ∧
      gc.length = (d.layer h s.scenes.oids).planeGrans 0 ∧ gz.length = (d.layer h s.scenes.oids).planeGrans 1 ∧
      (d.admitted = true → exec (.allocationResume h (some r)) s = .next t) ∧
      t = { s with scenes := t.scenes, rings := t.rings, dome := t.dome, base := t.base } ∧ t.sealedScene = s.sealedScene) ∧
  (∀ (s : State) (h : Fin 4) (r : Fin 16) (d : Desc) (x : Txn), s.ready h r 0x06 d → swf (fun _ => none) s.scenes.txns = true →
    s.txn h d.txn = some x → s.joins h d = true → s.layerChecked h d = true →
    (s.allocState ((d.layer h s.scenes.oids).planeGrans 0 + (d.layer h s.scenes.oids).planeGrans 1) = 1 →
      ∃ t, exec (.layerCreate h r) s = .next t ∧ (∀ e ∈ (t.ring h r).flight, e.id = d.id → e.admitted = true) ∧
        (t.txn h d.txn).map (·.accepted) = some true ∧
        t = { s with scenes := t.scenes, rings := t.rings, base := t.base } ∧ t.sealedScene = s.sealedScene) ∧
    (s.allocState ((d.layer h s.scenes.oids).planeGrans 0 + (d.layer h s.scenes.oids).planeGrans 1) = 2 →
      ∃ t, exec (.layerCreate h r) s = .next t ∧ s.refuses t h r d stMEMORY 0 ∧ t.hasEvent pgDOM 17 = true)) ∧
  (∀ (s : State) (h : Fin 4) (r : Fin 16) (d : Desc) (x : Txn) (l : Layer), s.ready h r 0x07 d → swf (fun _ => none) s.scenes.txns = true →
    s.txn h d.txn = some x → s.joins h d = true → d.rec_ 0 2 ≤ 49151 →
    (s.view h d.txn).layer (objKey h (d.rec_ 0 2)) = some l → s.held h d .layer (objKey h (d.rec_ 0 2)) = false →
    ∃ t, exec (.layerDestroy h r) s = .next t ∧ t.completed h r d ∧
      (t.view h d.txn).layer (objKey h (d.rec_ 0 2)) = none ∧
      t = { s with scenes := t.scenes, rings := t.rings, dome := t.dome, base := t.base } ∧ t.sealedScene = s.sealedScene) ∧
  (∀ (s : State) (h : Fin 4) (r : Fin 16) (d : Desc) (x : Txn) (l : Layer), s.ready h r 0x08 d → swf (fun _ => none) s.scenes.txns = true →
    s.txn h d.txn = some x → s.joins h d = true → d.rec_ 0 2 ≤ 49151 → d.rec_ 6 1 ≤ 3 → d.rec_ 28 4 = 0 → d.rec_ 16 2 = 0 ∨ (l.pin = false ∧ l.kind ≠ 1) →
    (s.view h d.txn).layer (objKey h (d.rec_ 0 2)) = some l → s.held h d .layer (objKey h (d.rec_ 0 2)) = false →
    ∃ t, exec (.layerSet h r) s = .next t ∧ t.completed h r d ∧
      (t.view h d.txn).layer (objKey h (d.rec_ 0 2)) = some { l with
        visible := (d.rec_ 6 1).testBit 0, opacity := d.rec_ 7 1, x := d.rec_ 8 2, y := d.rec_ 10 2, depth := d.rec_ 16 2,
        stack := d.rec_ 18 2, fg := d.rec_ 20 4, bg := d.rec_ 24 4 } ∧
      t = { s with scenes := t.scenes, rings := t.rings, base := t.base } ∧ t.sealedScene = s.sealedScene) ∧
  (∀ (s : State) (h : Fin 4) (r : Fin 16) (d : Desc) (x : Txn) (l : Layer), s.ready h r 0x0B d → swf (fun _ => none) s.scenes.txns = true →
    s.txn h d.txn = some x → s.joins h d = true → d.rec_ 0 2 ≤ 49151 → d.rec_ 6 1 ≤ 3 → d.rec_ 28 4 = 0 → d.rec_ 16 2 = 0 ∨ (l.pin = false ∧ l.kind ≠ 1) →
    (s.view h d.txn).layer (objKey h (d.rec_ 0 2)) = some l → s.held h d .layer (objKey h (d.rec_ 0 2)) = false →
    ∃ t, exec (.layerMove h r) s = .next t ∧ t.completed h r d ∧
      (t.view h d.txn).layer (objKey h (d.rec_ 0 2)) = some { l with x := d.rec_ 8 2, y := d.rec_ 10 2, depth := d.rec_ 16 2 } ∧
      t = { s with scenes := t.scenes, rings := t.rings, base := t.base } ∧ t.sealedScene = s.sealedScene) ∧
  (∀ (s : State) (h : Fin 4) (r : Fin 16) (d : Desc) (st : Nat), s.ready h r 0x06 d → swf (fun _ => none) s.scenes.txns = true →
    firstStatus [((d.layer h s.scenes.oids).width == 0 || (d.layer h s.scenes.oids).height == 0, stNOOP),
      (!s.joins h d || s.held h d .ctx (d.layer h s.scenes.oids).ctx, stTXN),
      (decide (3 < d.rec_ 6 1) || d.rec_ 28 4 != 0 || (d.layer h s.scenes.oids).badForm, stFORMAT),
      (decide (49151 < d.rec_ 0 2) || decide (40959 < d.rec_ 2 2) || decide (16384 < (d.layer h s.scenes.oids).width) || decide (16384 < (d.layer h s.scenes.oids).height), stRANGE),
      (((s.view h d.txn).layer (objKey h (d.rec_ 0 2))).isSome || s.held h d .layer (objKey h (d.rec_ 0 2)) || ((s.view h d.txn).ctx (d.layer h s.scenes.oids).ctx).isNone, stSTATE),
      (!d.admitted && (!s.hasRoom 1 h 1 || !s.hasRoom 5 h ((d.layer h s.scenes.oids).planeGrans 0 + (d.layer h s.scenes.oids).planeGrans 1)), stQUOTA)] = some st →
    ∃ t, exec (.layerCreate h r) s = .next t ∧ s.refuses t h r d st (if st = stQUOTA then (if s.hasRoom 1 h 1 then 5 else 2) else 0)) ∧
  (∀ (s : State) (h : Fin 4) (r : Fin 16) (d : Desc) (st : Nat), s.ready h r 0x07 d → swf (fun _ => none) s.scenes.txns = true →
    firstStatus [(!s.joins h d || s.held h d .layer (objKey h (d.rec_ 0 2)), stTXN), (decide (49151 < d.rec_ 0 2), stRANGE),
      (((s.view h d.txn).layer (objKey h (d.rec_ 0 2))).isNone, stSTATE)] = some st →
    ∃ t, exec (.layerDestroy h r) s = .next t ∧ s.refuses t h r d st 0) ∧
  (∀ (s : State) (h : Fin 4) (r : Fin 16) (d : Desc) (st : Nat) (c : Instr) (op : Nat), (op, c) ∈ [(0x08, .layerSet h r), (0x0B, .layerMove h r)] →
    s.ready h r op d → swf (fun _ => none) s.scenes.txns = true →
    firstStatus [(!s.joins h d || s.held h d .layer (objKey h (d.rec_ 0 2)), stTXN), (decide (3 < d.rec_ 6 1) || d.rec_ 28 4 != 0, stFORMAT),
      (decide (49151 < d.rec_ 0 2), stRANGE),
      ((((s.view h d.txn).layer (objKey h (d.rec_ 0 2))).map (fun l => d.rec_ 16 2 != 0 && (l.pin || l.kind == 1))).getD true, stSTATE)] = some st →
    ∃ t, exec c s = .next t ∧ s.refuses t h r d st 0)

/-- A REGION_SET that passes its checks puts the record's watch region, of the panel (LAYER 0xFFFF) or of a layer, new or in place of an earlier one, into its transaction; REGION_CLEAR takes the region out of what the transaction sees. Each completes; the scene in force and sealed stands. One that fails a check is refused with the status of the first check that fails. -/
def Obligations.RegionCommandsStageTheirChange : Prop :=
  (∀ (s : State) (h : Fin 4) (r : Fin 16) (d : Desc) (x : Txn) (c : Ctx) (o : Nat), s.ready h r 0x0C d → swf (fun _ => none) s.scenes.txns = true →
    s.txn h d.txn = some x → s.joins h d = true → d.rec_ 12 2 ≠ 0 → d.rec_ 14 2 ≠ 0 → d.rec_ 6 1 ≤ 1 → d.rec_ 7 1 = 0 →
    d.rec_ 0 2 ≤ 4095 → d.rec_ 2 2 ≤ 40959 →
    (d.rec_ 4 2 = 0xFFFF ∧ o = (h : Nat)) ∨ (d.rec_ 4 2 ≤ 49151 ∧ s.regionLayer h d.txn (d.rec_ 4 2) = some o) →
    d.rec_ 8 2 < s.base.get Reg.cmpSize_WIDTH → d.rec_ 10 2 < s.base.get Reg.cmpSize_HEIGHT →
    d.rec_ 6 1 = 0 ∨ s.boundZero h d.txn (objKey h (d.rec_ 2 2)) = false →
    (s.view h d.txn).ctx (objKey h (d.rec_ 2 2)) = some c →
    s.held h d .region (objKey h (d.rec_ 0 2)) = false → s.held h d .ctx (objKey h (d.rec_ 2 2)) = false →
    ((s.view h d.txn).region (objKey h (d.rec_ 0 2))).isSome = true ∨ s.hasRoom 2 h 1 = true →
    ∃ t, exec (.regionSet h r) s = .next t ∧ t.completed h r d ∧
      (t.view h d.txn).region (objKey h (d.rec_ 0 2)) =
        some ⟨(((s.view h d.txn).region (objKey h (d.rec_ 0 2))).map (·.oid)).getD s.scenes.oids, objKey h (d.rec_ 2 2), d.rec_ 4 2, o, d.rec_ 6 1 == 1,
          d.rec_ 8 2, d.rec_ 10 2, d.rec_ 12 2, d.rec_ 14 2⟩ ∧
      t = { s with scenes := t.scenes, rings := t.rings, base := t.base } ∧ t.sealedScene = s.sealedScene) ∧
  (∀ (s : State) (h : Fin 4) (r : Fin 16) (d : Desc) (x : Txn) (g : Region), s.ready h r 0x0D d → swf (fun _ => none) s.scenes.txns = true →
    s.txn h d.txn = some x → s.joins h d = true → d.rec_ 0 2 ≤ 4095 →
    (s.view h d.txn).region (objKey h (d.rec_ 0 2)) = some g → s.held h d .region (objKey h (d.rec_ 0 2)) = false →
    ∃ t, exec (.regionClear h r) s = .next t ∧ t.completed h r d ∧
      (t.view h d.txn).region (objKey h (d.rec_ 0 2)) = none ∧
      t = { s with scenes := t.scenes, rings := t.rings, base := t.base } ∧ t.sealedScene = s.sealedScene) ∧
  (∀ (s : State) (h : Fin 4) (r : Fin 16) (d : Desc) (st : Nat), s.ready h r 0x0C d → swf (fun _ => none) s.scenes.txns = true →
    firstStatus [(d.rec_ 12 2 == 0 || d.rec_ 14 2 == 0, stNOOP),
      (!s.joins h d || s.held h d .region (objKey h (d.rec_ 0 2)) || s.held h d .ctx (objKey h (d.rec_ 2 2)), stTXN),
      (decide (1 < d.rec_ 6 1) || d.rec_ 7 1 != 0, stFORMAT),
      (decide (4095 < d.rec_ 0 2) || decide (40959 < d.rec_ 2 2) || (decide (49151 < d.rec_ 4 2) && d.rec_ 4 2 != 0xFFFF) ||
        decide (s.base.get Reg.cmpSize_WIDTH ≤ d.rec_ 8 2) || decide (s.base.get Reg.cmpSize_HEIGHT ≤ d.rec_ 10 2) ||
        ((d.rec_ 6 1).testBit 0 && s.boundZero h d.txn (objKey h (d.rec_ 2 2))), stRANGE),
      (((s.view h d.txn).ctx (objKey h (d.rec_ 2 2))).isNone || (if d.rec_ 4 2 = 0xFFFF then false else (s.regionLayer h d.txn (d.rec_ 4 2)).isNone), stSTATE),
      (((s.view h d.txn).region (objKey h (d.rec_ 0 2))).isNone && !s.hasRoom 2 h 1, stQUOTA)] = some st →
    ∃ t, exec (.regionSet h r) s = .next t ∧ s.refuses t h r d st (if st = stQUOTA then 3 else 0)) ∧
  (∀ (s : State) (h : Fin 4) (r : Fin 16) (d : Desc) (st : Nat), s.ready h r 0x0D d → swf (fun _ => none) s.scenes.txns = true →
    firstStatus [(!s.joins h d || s.held h d .region (objKey h (d.rec_ 0 2)), stTXN), (decide (4095 < d.rec_ 0 2), stRANGE),
      (((s.view h d.txn).region (objKey h (d.rec_ 0 2))).isNone, stSTATE)] = some st →
    ∃ t, exec (.regionClear h r) s = .next t ∧ s.refuses t h r d st 0)

/-- TX_ABORT of an OPEN or CLOSING transaction completes, frees the handle, counts the rollback in TXN_ROLLBACK, and leaves the scene in force and sealed as it was. One that names no such transaction is refused with REJ_TXN. -/
def Obligations.TxAbortRollsTheTransactionBack : Prop :=
  (∀ (s : State) (h : Fin 4) (r : Fin 16) (d : Desc) (x : Txn), s.ready h r 0x03 d → swf (fun _ => none) s.scenes.txns = true →
    d.txn < 256 → s.txn h d.txn = some x →
    ∃ t, exec (.txAbort h r) s = .next t ∧ t.txn h d.txn = none ∧ t.completed h r d ∧ t.sealedScene = s.sealedScene ∧
      t.base.get (Reg.txnRollback_COUNT h) = min (2 ^ 32 - 1) (s.base.get (Reg.txnRollback_COUNT h) + 1)) ∧
  (∀ (s : State) (h : Fin 4) (r : Fin 16) (d : Desc), s.ready h r 0x03 d → swf (fun _ => none) s.scenes.txns = true →
    (255 < d.txn ∨ s.txn h d.txn = none) → ∃ t, exec (.txAbort h r) s = .next t ∧ s.refuses t h r d stTXN 0)

/-- An UPLOAD that passes its checks makes a new upload of whole granules (or uses the one that exists) and sends the read request of its bytes. When the read ends with its bytes, they are stored in the upload and the command completes; when it fails, the upload's content is undefined (free bytes) and the command completes. A DECODE that passes its checks joins the codec with its jobs; with SUPERSEDE it first takes out the DECODEs that R265 cancels, which complete. An UPLOAD or DECODE for whose granules others can still come free waits for them, admitted, and one for which none can ends with ERR_MEMORY and MEM_SHORT. An ALLOCATION_RESUME of a waiting one runs it as UPLOAD or DECODE does. One that fails a check is refused with the status of the first check that fails. -/
def Obligations.UploadAndDecodeStartTheirWork : Prop :=
  (∀ (s : State) (h : Fin 4) (r : Fin 16) (d : Desc) (x : Txn) (u : Upload), s.ready h r 0x09 d → s.txn h d.txn = some x →
    s.joins h d = true → d.rec_ 12 4 ≠ 0 → d.rec_ 24 8 = 0 → d.rec_ 0 4 < 65536 → s.upl h (d.rec_ 0 4) = some u → u.txn = d.txn →
    d.rec_ 8 4 + d.rec_ 12 4 ≤ u.size →
    ∃ t, exec (.upload h r) s = .next t ∧ Output.hostRead h (d.rec_ 16 8) (d.rec_ 12 4) ∈ t.base.out ∧ t.dome = s.dome ∧
      t.sealedScene = s.sealedScene) ∧
  (∀ (s : State) (h : Fin 4) (r : Fin 16) (d : Desc) (x : Txn), s.ready h r 0x09 d → s.txn h d.txn = some x →
    s.joins h d = true → d.rec_ 12 4 ≠ 0 → d.rec_ 4 4 ≠ 0 → d.rec_ 24 8 = 0 → d.rec_ 0 4 < 65536 → s.upl h (d.rec_ 0 4) = none →
    d.rec_ 4 4 ≤ 0x40000000 → d.rec_ 8 4 + d.rec_ 12 4 ≤ d.rec_ 4 4 →
    d.admitted = true ∨ s.hasRoom 5 h (ceilDiv (d.rec_ 4 4) 65536) = true →
    (s.allocState (ceilDiv (d.rec_ 4 4) 65536) = 0 →
      ∃ t gs, exec (.upload h r) s = .next t ∧ Output.hostRead h (d.rec_ 16 8) (d.rec_ 12 4) ∈ t.base.out ∧
        t.upl h (d.rec_ 0 4) = some ⟨d.txn, d.rec_ 4 4, gs⟩ ∧ gs.length = ceilDiv (d.rec_ 4 4) 65536 ∧
        (d.admitted = true → exec (.allocationResume h (some r)) s = .next t)) ∧
    (s.allocState (ceilDiv (d.rec_ 4 4) 65536) = 1 →
      ∃ t, exec (.upload h r) s = .next t ∧ (∀ e ∈ (t.ring h r).flight, e.id = d.id → e.admitted = true) ∧
        t = { s with scenes := t.scenes, rings := t.rings, base := t.base } ∧ t.sealedScene = s.sealedScene) ∧
    (s.allocState (ceilDiv (d.rec_ 4 4) 65536) = 2 → swf (fun _ => none) s.scenes.txns = true →
      ∃ t, exec (.upload h r) s = .next t ∧ s.refuses t h r d stMEMORY 0 ∧ t.hasEvent pgDOM 17 = true)) ∧
  (∀ (s : State) (h : Fin 4) (r : Fin 16) (d : Desc) (n : BitVec 32) (bs : List Byte),
    (s.ring h r).flight.find? (fun e => e.n == n.toNat && e.op == 9 && e.st == .accepted) = some d →
    (s.uplGrans h (d.rec_ 0 4)).any isSpillId = false → bs.length = d.rec_ 12 4 →
    ∃ t, exec (.uploadDone h r n (.data bs)) s = .next t ∧ t.completed h r d ∧
      t.dome = (s.dome.objWrite (s.uplGrans h (d.rec_ 0 4)) (d.rec_ 8 4) bs).touch (s.uplGrans h (d.rec_ 0 4)) ∧
      t.sealedScene = s.sealedScene) ∧
  (∀ (s : State) (h : Fin 4) (r : Fin 16) (d : Desc) (n : BitVec 32) (c : Fin 4) (u : Upload),
    (s.ring h r).flight.find? (fun e => e.n == n.toNat && e.op == 9 && e.st == .accepted) = some d →
    s.upl h (d.rec_ 0 4) = some u → u.grans.any isSpillId = false →
    ∃ t, exec (.uploadDone h r n (.fail c)) s = .next t ∧ t.completed h r d ∧
      t.dome = s.dome.objWrite u.grans 0 (freeBytes s.base.fresh u.size) ∧ t.sealedScene = s.sealedScene) ∧
  (∀ (s : State) (h : Fin 4) (r : Fin 16) (d : Desc) (x : Txn) (l : Layer) (u : Upload) (need : List Nat), s.ready h r 0x0A d → s.txn h d.txn = some x →
    s.joins h d = true → d.rec_ 12 4 ≠ 0 → d.rec_ 20 2 ≠ 0 → d.rec_ 22 2 ≠ 0 →
    s.held h d .layer (objKey h (d.rec_ 0 2)) = false → d.rec_ 2 1 = 0 ∨ (d.rec_ 2 1 = 1 ∧ l.kind = 1) → d.rec_ 3 1 ≤ 1 → d.rec_ 0 2 ≤ 49151 →
    d.rec_ 4 4 < 65536 → (s.view h d.txn).layer (objKey h (d.rec_ 0 2)) = some l → s.upl h (d.rec_ 4 4) = some u →
    d.rec_ 16 2 + d.rec_ 20 2 ≤ l.gridW (d.rec_ 2 1) → d.rec_ 18 2 + d.rec_ 22 2 ≤ l.gridH (d.rec_ 2 1) → d.rec_ 8 4 + d.rec_ 12 4 ≤ u.size →
    need = x.missing l (d.rec_ 2 1) (rectGrans l (d.rec_ 2 1) (d.rec_ 16 2) (d.rec_ 18 2) (d.rec_ 20 2) (d.rec_ 22 2)) →
    need = [] ∨ d.admitted = true ∨ s.hasRoom 5 h need.length = true →
    (s.copyState need.length (need.map (fun i => (l.grans (d.rec_ 2 1)).getD i 0)) = 0 →
      ∃ t n, exec (.decode h r) s = .next t ∧
        n = (⟨d.id, h, r, d.txn, d.rec_ 0 2, d.rec_ 2 1, (d.rec_ 3 1).testBit 0, d.rec_ 4 4, d.rec_ 8 4, d.rec_ 12 4, d.rec_ 16 2, d.rec_ 18 2,
          d.rec_ 20 2, d.rec_ 22 2, false, none, 0, false, 0⟩ : Decode) ∧
        t.codec.decodes = (if d.flags.testBit 1 then s.codec.decodes.filter (fun e => !n.cancels e) else s.codec.decodes) ++ [n] ∧
        t.codec.waiting = (if d.flags.testBit 1
          then s.codec.waiting.filter (fun j => !((s.codec.decodes.filter n.cancels).map (·.id)).contains j.dec) else s.codec.waiting) ++ n.jobs ∧
        (d.flags.testBit 1 = true → ∀ c ∈ s.codec.decodes, n.cancels c = true → ∀ q : Fin 16, ∀ e ∈ (t.ring h q).flight, e.id = c.id → e.pendingB = false) ∧
        (need = [] → t.dome = s.dome) ∧ t.sealedScene = s.sealedScene ∧
        (d.admitted = true → exec (.allocationResume h (some r)) s = .next t)) ∧
    (s.copyState need.length (need.map (fun i => (l.grans (d.rec_ 2 1)).getD i 0)) = 1 →
      ∃ t, exec (.decode h r) s = .next t ∧ (∀ e ∈ (t.ring h r).flight, e.id = d.id → e.admitted = true) ∧
        t.codec = s.codec ∧ t.dome.mem = s.dome.mem ∧ t.sealedScene = s.sealedScene) ∧
    (s.copyState need.length (need.map (fun i => (l.grans (d.rec_ 2 1)).getD i 0)) = 2 → swf (fun _ => none) s.scenes.txns = true →
      ∃ t, exec (.decode h r) s = .next t ∧ s.refuses t h r d stMEMORY 0 ∧ t.hasEvent pgDOM 17 = true)) ∧
  (∀ (s : State) (h : Fin 4) (r : Fin 16) (d : Desc) (cur : Option Upload) (st : Nat), s.ready h r 0x09 d → swf (fun _ => none) s.scenes.txns = true →
    cur = (if d.rec_ 0 4 < 65536 then s.upl h (d.rec_ 0 4) else none) →
    firstStatus [(d.rec_ 12 4 == 0 || (cur.isNone && d.rec_ 4 4 == 0), stNOOP), (!s.joins h d || (cur.map (fun x => x.txn != d.txn)).getD false, stTXN),
      (d.rec_ 24 8 != 0, stFORMAT),
      (decide (65535 < d.rec_ 0 4) || (cur.isNone && decide (0x40000000 < d.rec_ 4 4)) ||
        decide ((cur.map (·.size)).getD (d.rec_ 4 4) < d.rec_ 8 4 + d.rec_ 12 4), stRANGE),
      (!d.admitted && cur.isNone && !s.hasRoom 5 h (ceilDiv (d.rec_ 4 4) 65536), stQUOTA)] = some st →
    ∃ t, exec (.upload h r) s = .next t ∧ s.refuses t h r d st (if st = stQUOTA then 5 else 0)) ∧
  (∀ (s : State) (h : Fin 4) (r : Fin 16) (d : Desc) (cur : Option Layer) (up : Option Upload) (need : List Nat) (st : Nat),
    s.ready h r 0x0A d → swf (fun _ => none) s.scenes.txns = true → cur = (s.view h d.txn).layer (objKey h (d.rec_ 0 2)) →
    up = (if d.rec_ 4 4 < 65536 then s.upl h (d.rec_ 4 4) else none) →
    need = ((s.txn h d.txn).bind (fun x => cur.map (fun l =>
      x.missing l (d.rec_ 2 1) (rectGrans l (d.rec_ 2 1) (d.rec_ 16 2) (d.rec_ 18 2) (d.rec_ 20 2) (d.rec_ 22 2))))).getD [] →
    firstStatus [(d.rec_ 12 4 == 0 || d.rec_ 20 2 == 0 || d.rec_ 22 2 == 0, stNOOP),
      (!s.joins h d || s.held h d .layer (objKey h (d.rec_ 0 2)), stTXN),
      (decide (1 < d.rec_ 2 1) || decide (1 < d.rec_ 3 1) || (d.rec_ 2 1 == 1 && (cur.map (fun l => l.kind != 1)).getD false), stFORMAT),
      (decide (d.rec_ 0 2 ≤ 49151) && !s.hasLayer h d.txn (objKey h (d.rec_ 0 2)), stOWNER),
      (decide (49151 < d.rec_ 0 2) || decide (65535 < d.rec_ 4 4) ||
        (cur.map (fun l => decide (l.gridW (d.rec_ 2 1) < d.rec_ 16 2 + d.rec_ 20 2 ∨ l.gridH (d.rec_ 2 1) < d.rec_ 18 2 + d.rec_ 22 2))).getD false ||
        (up.map (fun x => decide (x.size < d.rec_ 8 4 + d.rec_ 12 4))).getD false, stRANGE),
      (cur.isNone || up.isNone, stSTATE), (!d.admitted && !need.isEmpty && !s.hasRoom 5 h need.length, stQUOTA)] = some st →
    ∃ t, exec (.decode h r) s = .next t ∧ s.refuses t h r d st (if st = stQUOTA then 5 else 0))

/-- NOP and FENCE (once its waits are over) complete with OK and touch rings, schedules and the common core only; alone in its ring, with completions not held and the link able to send, NOP's or FENCE's 16 completion bytes are written to slot n mod 2^LOG2 of the completion array. READBACK of any object kind writes its 64-byte block to the host address, and completes; one that fails a check is refused with REJ_TXN, REJ_FORMAT or REJ_RANGE, in this order. -/
def Obligations.NopFenceAndReadbackComplete : Prop :=
  (∀ (s : State) (h : Fin 4) (r : Fin 16) (d : Desc), s.ready h r 0x12 d →
    ∃ t, exec (.nop h r) s = .next t ∧ t.completed h r d ∧ t.sealedScene = s.sealedScene ∧
      t = { s with scenes := t.scenes, rings := t.rings, base := t.base } ∧
      ((s.ring h r).flight = [d] → d.drop = false → s.base.canSend h = true →
        Output.hostWrite h (s.base.addr64 (Reg.cplBaseLo h r) (Reg.cplBaseHi h r) + d.n % 2 ^ s.base.get (Reg.ringCtrl_LOG2 h r) * 16)
          (completionBytes r (s.base.get (Reg.ringCtrl_LOG2 h r)) s.base.now d stOK 0 none) ∈ t.base.out)) ∧
  (∀ (s : State) (h : Fin 4) (r : Fin 16) (d : Desc), s.ready h r 0x0E d →
    ∃ t, exec (.fence h r) s = .next t ∧ t.completed h r d ∧ t.sealedScene = s.sealedScene ∧
      t = { s with scenes := t.scenes, rings := t.rings, base := t.base } ∧
      ((s.ring h r).flight = [d] → d.drop = false → s.base.canSend h = true →
        Output.hostWrite h (s.base.addr64 (Reg.cplBaseLo h r) (Reg.cplBaseHi h r) + d.n % 2 ^ s.base.get (Reg.ringCtrl_LOG2 h r) * 16)
          (completionBytes r (s.base.get (Reg.ringCtrl_LOG2 h r)) s.base.now d stOK 0 none) ∈ t.base.out)) ∧
  (∀ (s : State) (h : Fin 4) (r : Fin 16) (d : Desc) (top : Nat), s.ready h r 0x11 d → (d.txn = 0xFFFF ∨ s.joins h d = true) →
    (d.rec_ 0 1, top) ∈ [(0, 40959), (1, 49151), (2, 4095), (3, 65535), (4, 255)] → d.rec_ 2 2 ≤ top →
    d.rec_ 1 1 = 0 → d.rec_ 4 4 = 0 → d.rec_ 8 8 % 64 = 0 →
    ∃ t, exec (.readback h r) s = .next t ∧ t.completed h r d ∧
      Output.hostWrite h (d.rec_ 8 8) (s.readbackBlock h d) ∈ t.base.out ∧ t.sealedScene = s.sealedScene ∧
      t = { s with scenes := t.scenes, rings := t.rings, base := t.base }) ∧
  (∀ (s : State) (h : Fin 4) (r : Fin 16) (d : Desc) (top st : Nat), s.ready h r 0x11 d → swf (fun _ => none) s.scenes.txns = true →
    (d.rec_ 0 1, top) ∈ [(0, 40959), (1, 49151), (2, 4095), (3, 65535), (4, 255)] ∨ 4 < d.rec_ 0 1 →
    firstStatus [(d.txn != 0xFFFF && !s.joins h d, stTXN), (decide (4 < d.rec_ 0 1) || d.rec_ 1 1 != 0 || d.rec_ 4 4 != 0 || d.rec_ 8 8 % 64 != 0, stFORMAT),
      (decide (top < d.rec_ 2 2), stRANGE)] = some st →
    ∃ t, exec (.readback h r) s = .next t ∧ s.refuses t h r d st 0)

/-- A transaction that TX_COMMIT closed and whose work is over seals with the present Sextant time; a scheduled one seals at its target once time has reached it. Its changes join the sealed transactions in sequencer order, TXN_LAST_SEAL shows the stamp, the handle is free again, and the scene in force stands. -/
def Obligations.SealsTakeTheirSequencerPosition : Prop :=
  (∀ (s : State) (h : Fin 4) (k : Fin 256) (x : Txn), s.txn h k = some x → s.sealReady h k x = true → s.waiting h < 256 → x.sched = none →
    ∃ t, exec (.seal h k) s = .next t ∧ t.txn h k = none ∧ t.scenes.live = s.scenes.live ∧
      t.scenes.sealed = insertSealed ⟨h, k, x.ops, x.ages, x.grans, s.base.E % 2 ^ 32, s.base.E, 1, s.scenes.orders, false, none,
        x.commit.getD 0⟩ s.scenes.sealed ∧
      t.base.get (Reg.txnLastSeal_STAMP h) = s.base.E % 2 ^ 32 ∧
      t = { s with scenes := t.scenes, dome := t.dome, base := t.base }) ∧
  (∀ (s : State) (h : Fin 4) (k : Fin 256) (x : Txn) (due : Nat), s.txn h k = some x → x.due = some due → due ≤ s.base.E →
    s.sealReady h k x = true → s.waiting h < 256 →
    ∃ t, exec (.schedSeal h k) s = .next t ∧ t.txn h k = none ∧ t.scenes.live = s.scenes.live ∧
      t.scenes.sealed = insertSealed ⟨h, k, x.ops, x.ages, x.grans, due % 2 ^ 32, due, 0, x.pord, false, none, x.commit.getD 0⟩ s.scenes.sealed ∧
      t.base.get (Reg.txnLastSeal_STAMP h) = due % 2 ^ 32 ∧
      t = { s with scenes := t.scenes, dome := t.dome, base := t.base })

/-! ## Command rings -/

/-- A taken write of RING_TAIL that moves the tail within the ring's room stores the tail and stamps the doorbell, and changes no other register. A taken write of RING_CTRL with RUN 1 clears HALTED and the hold; one with DISCARD 1 sets HEAD and TAIL to 0 and leaves only commands in progress, whose completions will be dropped. -/
def Obligations.RingRegistersMoveTheRing : Prop :=
  (∀ (s : State) (h : Fin 4) (r : Fin 16) (a : RegWr), s.accepts (Reg.ringTail h r) a = true →
    (s.applied (Reg.ringTail h r) a).word ≠ s.base.get (Reg.ringTail_TAIL h r) →
    sub32 (s.applied (Reg.ringTail h r) a).word (s.base.get (Reg.ringTail_TAIL h r)) ≤
      2 ^ s.base.get (Reg.ringCtrl_LOG2 h r) - s.backlogOf h r →
    ∃ t, exec (.ringTail h r a) s = .next t ∧
      t.base.get (Reg.ringTail_TAIL h r) = (s.applied (Reg.ringTail h r) a).word % 2 ^ 32 ∧
      (t.ring h r).stamps = addStamp (s.ring h r).stamps (s.applied (Reg.ringTail h r) a).word s.freshTicks ∧
      (t.ring h r).flight = (s.ring h r).flight ∧
      (∀ k, k ≠ Reg.ringTail h r → t.base.word k = s.base.word k) ∧ t = { s with rings := t.rings, base := t.base }) ∧
  (∀ (s : State) (h : Fin 4) (r : Fin 16) (a : RegWr), s.accepts (Reg.ringCtrl h r) a = true → a.be.toNat.testBit 0 = true →
    a.val.toNat.testBit 0 = true →
    ∃ t, exec (.ringRun h r a) s = .next t ∧ (t.ring h r).held = false ∧ t.base.flag (Reg.ringCtrl_RUN h r) = true ∧
      t.base.flag (Reg.ringCtrl_HALTED h r) = false ∧ t = { s with rings := t.rings, base := t.base }) ∧
  (∀ (s : State) (h : Fin 4) (r : Fin 16) (a : RegWr), s.accepts (Reg.ringCtrl h r) a = true →
    (s.applied (Reg.ringCtrl h r) a).act.testBit 2 = true →
    ∃ t, exec (.ringDiscard h r a) s = .next t ∧ t.base.get (Reg.ringHead_HEAD h r) = 0 ∧ t.base.get (Reg.ringTail_TAIL h r) = 0 ∧
      (∀ e ∈ (t.ring h r).flight, e.st = .accepted ∧ e.drop = true) ∧ t = { s with rings := t.rings, base := t.base })

/-- When host h has credit and ring r has its turn, a fetch read of k descriptors sends the read request, moves HEAD on by k and gives the descriptors the next k identities; a failed read sets HALTED. When 100 freshness ticks have passed, the window is judged: it is reduced by 100 and each host's backlog is sampled. -/
def Obligations.FetchAndOverloadWindowAdvance : Prop :=
  (∀ (s : State) (h : Fin 4) (r : Fin 16) (bs : List Byte) (k : Nat), s.creditRounds.fetchable h = true → 0 < s.creditRounds.credit h →
    s.creditRounds.turn h = some r.val → bs.length = 64 * k → 0 < k → k ≤ s.creditRounds.fetchMost h r → s.creditRounds.hasRoom 4 h k = true →
    ∃ t, exec (.descriptorFetch h r (.data bs)) s = .next t ∧
      t.base.get (Reg.ringHead_HEAD h r) = (s.base.get (Reg.ringHead_HEAD h r) + k) % 2 ^ 32 ∧
      t.rings.nextId = s.rings.nextId + k ∧
      Output.hostRead h (s.base.addr64 (Reg.ringBaseLo h r) (Reg.ringBaseHi h r) +
        s.base.get (Reg.ringHead_HEAD h r) % 2 ^ s.base.get (Reg.ringCtrl_LOG2 h r) * 64) (64 * k) ∈ t.base.out ∧
      t = { s with rings := t.rings, base := t.base }) ∧
  (∀ (s : State) (h : Fin 4) (r : Fin 16) (c : Fin 4), s.creditRounds.fetchable h = true → 0 < s.creditRounds.credit h →
    s.creditRounds.turn h = some r.val →
    ∃ t, exec (.descriptorFetch h r (.fail c)) s = .next t ∧ t.base.flag (Reg.ringCtrl_HALTED h r) = true ∧
      t = { s with rings := t.rings, base := t.base }) ∧
  (∀ s : State, 100 ≤ s.rings.window →
    ∃ t, exec .cmdOverload s = .next t ∧ t.rings.window = s.rings.window - 100 ∧
      (∀ h, h < s.base.nhosts → h < 4 → sget (fun _ => 0) t.rings.prev h = s.backlog h) ∧ t = { s with rings := t.rings, base := t.base })

/-! ## The codec and the 2D engines -/

/-- A free engine takes the next startable job of a host with credit out of the queue and asks for leave. An engine that has finished its tiles is idle from now; one whose tile buffer fails, or that is reset, gives its job back to the front of the queue (FAULT after an error); an engine in service without a job becomes FAULT all the same, and one out of service is not touched. A unit reset takes an engine without a job out of FAULT. An engine idle for 10 µs holds no leave. ENABLE 0 makes an idle engine OFF, ENABLE 1 returns it, and the codec group's ENABLE stands as written. -/
def Obligations.CodecJobsAreDispatchedAndEnd : Prop :=
  (∀ (s : State) (e : Fin 16) (h : Nat) (j : Job), s.engineFree e = true →
    (List.range 4).find? (fun h => (s.jobRound.nextJob h).isSome && decide (0 < s.jobRound.jobCredit h)) = some h →
    s.jobRound.nextJob h = some j →
    ∃ t, exec (.jobDispatch e) s = .next t ∧ (t.engine e).job = some j ∧ t.codec.waiting = s.codec.waiting.erase j ∧
      (t.holds e 0 || t.asks e 0) = true ∧ (t.holds ridGroup 0 || t.asks ridGroup 0) = true ∧
      t = { s with codec := t.codec, adm := t.adm, base := t.base }) ∧
  (∀ (s : State) (e : Fin 16) (ecc : Ecc) (j : Job) (d : Decode) (l : Layer), (s.engine e).job = some j → s.decodeOf j.dec = some d →
    (s.view d.host d.txn).layer (objKey d.host d.layer) = some l → s.engineWaits e = false →
    (s.readGrans d).any isSpillId = false → (l.grans d.plane).any isSpillId = false →
    ∃ t, exec (.jobDone e ecc) s = .next t ∧ t.engine e = ⟨none, some s.base.ticks⟩) ∧
  (∀ (s : State) (e : Fin 16) (j : Job), (s.engine e).job = some j → s.base.ownState (pgENG e) ≠ uNOCLOCK →
    ∃ t, exec (.selfCheck e) s = .next t ∧ (t.engine e).job = none ∧ t.codec.waiting = j :: s.codec.waiting ∧
      t.base.ownState (pgENG e) = uFAULT ∧ t.holds e 0 = false ∧ t = { s with codec := t.codec, adm := t.adm, base := t.base }) ∧
  (∀ (s : State) (e : Fin 16), (s.engine e).job = none →
    (s.base.ownState (pgENG e) = uREADY → ∃ t, exec (.selfCheck e) s = .next t ∧ (t.engine e).job = none ∧ t.codec.waiting = s.codec.waiting ∧
      t.base.ownState (pgENG e) = uFAULT ∧ t.holds e 0 = false ∧ t = { s with codec := t.codec, adm := t.adm, base := t.base }) ∧
    (s.base.ownState (pgENG e) ≠ uREADY → exec (.selfCheck e) s = .next s)) ∧
  (∀ (s : State) (e : Fin 16) (a : RegWr), s.asksReset (pgENG e) a = true → (s.engine e).job = none → s.base.ownState (pgENG e) = uFAULT →
    ∃ t, exec (.engineUnitReset e a) s = .next t ∧ t.base.ownState (pgENG e) = (if s.base.enabled (pgENG e) then uREADY else uOFF) ∧
      t.codec = s.codec ∧ t = { s with base := t.base }) ∧
  (∀ (s : State) (e : Fin 16) (since : Nat), (s.engine e).idle = some since → since + 6250 ≤ s.base.ticks →
    ∃ t, exec (.engineLeaveRelease e) s = .next t ∧ (t.engine e).idle = none ∧ t.holds e 0 = false ∧
      t = { s with codec := t.codec, adm := t.adm }) ∧
  (∀ (s : State) (e : Fin 16) (a : RegWr) (j : Job), s.asksReset (pgENG e) a = true → (s.engine e).job = some j →
    ∃ t, exec (.engineUnitReset e a) s = .next t ∧ (t.engine e).job = none ∧ t.codec.waiting = j :: s.codec.waiting ∧
      t = { s with codec := t.codec, adm := t.adm, base := t.base }) ∧
  (∀ (s : State) (e : Fin 16) (a : RegWr), s.asksEnable (pgENG e) a false = true → (s.engine e).job = none →
    s.base.ownState (pgENG e) = uREADY →
    ∃ t, exec (.engineEnable e a) s = .next t ∧ t.base.ownState (pgENG e) = uOFF ∧ t.base.enabled (pgENG e) = false ∧
      t = { s with base := t.base }) ∧
  (∀ (s : State) (e : Fin 16) (a : RegWr), s.asksEnable (pgENG e) a true = true → s.base.ownState (pgENG e) = uOFF →
    5 ≤ s.base.get Reg.rstStep_STEP →
    ∃ t, exec (.engineEnable e a) s = .next t ∧ t.base.ownState (pgENG e) = uREADY ∧ t.base.enabled (pgENG e) = true ∧
      t = { s with base := t.base }) ∧
  (∀ (s : State) (a : RegWr) (on : Bool), s.asksEnable pgCDC a on = true →
    ∃ t, exec (.codecEnable a) s = .next t ∧ t.base.enabled pgCDC = on ∧ t = { s with base := t.base })

/-- A taken write of TWD_OP with GO whose checks pass, on a free engine for whose staged copies there are granules, starts the operation written in OP (FILL, COPY, EXPAND) with the captured parameters; one that fails a check ends at once with the status of the first check that fails, and a write while the engine has an operation is refused. It begins writing once its waits are over; when it is done the engine is free, its leave is given back, and TWD_DONE holds its status and tag. A self-check error or a unit reset stops it at once; after a self-check error the engine is FAULT, and after a unit reset TWD_DONE shows ABORT_RESET. -/
def Obligations.TwoDOperationsRunAndEnd : Prop :=
  (∀ (s : State) (h : Fin 4) (a : RegWr) (s0 : State) (o : TwdOp) (n : Nat), s.accepts (Reg.twdOp h) a = true →
    (s.applied (Reg.twdOp h) a).act.testBit 31 = true → s.twdOp h = none →
    s0 = (s.stored (Reg.twdOp h) a).onBase (·.put (Reg.twdStatus_ROWS h) 0) → o = (s.stored (Reg.twdOp h) a).base.twdCapture h →
    s0.twdCheck h o = none → (s0.twdMissing h o).length ≤ s.dome.freeZero →
    (∀ l, s0.twdDst h o = some l → ∀ i ∈ s0.twdMissing h o, isSpillId ((l.grans o.dKind).getD i 0) = false) → o.op = n → n = 1 ∨ n = 2 ∨ n = 3 →
    ∃ t p, exec (.twdFill h a) s = .next t ∧ exec (.twdCopy h a) s = .next t ∧ exec (.twdExpand h a) s = .next t ∧
      t.twdOp h = some p ∧ p.op = n ∧ p.tag = o.tag ∧ p.txn = o.txn ∧ p.w = o.w ∧ p.h = o.h ∧ p.staged = true ∧ p.writing = false ∧
      (s0.twdMissing h o = [] → t.dome = s.dome)) ∧
  (∀ (s : State) (h : Fin 4) (a : RegWr) (s0 : State) (o : TwdOp) (st : Nat), s.accepts (Reg.twdOp h) a = true →
    (s.applied (Reg.twdOp h) a).act.testBit 31 = true → s.twdOp h = none →
    s0 = (s.stored (Reg.twdOp h) a).onBase (·.put (Reg.twdStatus_ROWS h) 0) → o = (s.stored (Reg.twdOp h) a).base.twdCapture h →
    s0.twdCheck h o = some st →
    ∃ t, exec (.twdFill h a) s = .next t ∧ exec (.twdCopy h a) s = .next t ∧ exec (.twdExpand h a) s = .next t ∧ t.twdOp h = none ∧
      t.base.get (Reg.twdDone_OP h) = o.op % 4 ∧ t.base.get (Reg.twdDone_STATUS h) = st ∧ t.base.word (Reg.twdDoneTag h) = BitVec.ofNat 32 o.tag ∧
      t = { s with twd := t.twd, adm := t.adm, base := t.base }) ∧
  (∀ (s : State) (h : Fin 4) (a : RegWr) (o : TwdOp), s.twdOp h = some o → s.base.visible a.host.toNat (pgTWD h) = true →
    s.base.mayWrite a.host.toNat (Reg.twdOp h) = true → s.base.nhosts ≤ 4 →
    ∃ t, exec (.twdFill h a) s = .next t ∧ exec (.twdCopy h a) s = .next t ∧ exec (.twdExpand h a) s = .next t ∧
      s.keepsBut t [] ∧ t = { s with base := t.base }) ∧
  (∀ (s : State) (h : Fin 4) (o : TwdOp), s.twdOp h = some o → o.writing = false → o.staged = true → s.twdWaitOrder h o = false →
    s.twdWaitLeave h o = false → o.sGrans.any isSpillId = false → (s.twdDstGrans h o).any isSpillId = false →
    exec (.twdWriteStart h) s = .next (s.setTwd h (some { o with writing := true }))) ∧
  (∀ (s : State) (h : Fin 4) (ecc : Ecc) (o : TwdOp), s.twdOp h = some o → o.writing = true →
    ∃ t, exec (.twdDone h ecc) s = .next t ∧ t.twdOp h = none ∧ t.holds (ridTwd h) 0 = false ∧
      t.base.word (Reg.twdDoneTag h) = BitVec.ofNat 32 o.tag ∧
      (t.base.get (Reg.twdDone_STATUS h) = stOK ∨ t.base.get (Reg.twdDone_STATUS h) = stMEMORY)) ∧
  (∀ (s : State) (h : Fin 4) (o : TwdOp), s.twdOp h = some o → s.base.ownState (pgTWD h) ≠ uNOCLOCK →
    ∃ t, exec (.twdSelfCheck h) s = .next t ∧ t.twdOp h = none ∧ t.base.ownState (pgTWD h) = uFAULT ∧
      t.base.get (Reg.twdDone_STATUS h) = stDEVICE) ∧
  (∀ (s : State) (h : Fin 4) (a : RegWr) (o : TwdOp), s.asksReset (pgTWD h) a = true → s.twdOp h = some o →
    ∃ t, exec (.twdUnitReset h a) s = .next t ∧ t.twdOp h = none ∧ t.base.get (Reg.twdDone_STATUS h) = stRESET)

/-! ## Subframes, rendering and scan-out -/

/-- With the timeline armed and the next subframe's start reached, SUBFRAME_START of a running device on its timeline makes J one more, the next index and start the ones in force, line 0 the next line, and, where no frame retirement moves granules, leaves the scenes that the freshness ticks then due leave (R223) with nothing RETIRING; the first subframe after the cold release is dark. COMMIT_CUT of a slot 7 that has begun applies every sealed transaction that precedes it to the scene in force, in sequencer order, keeps the others sealed, and takes the configuration transaction if it is due. -/
def Obligations.SubframesAdvanceTheTimelineAndCutsApply : Prop :=
  (∀ (s : State), s.sco.armed = true → s.nextStart ≤ (s.base.E : Int) → s.sco.running = true → s.sco.mode = .wall → s.sco.leave = false →
    s.sco.cutDue = false → s.base.flag Reg.sxtCtrl_SET = false → (s.j + 1) % 2 ^ 32 % 8 ≠ 0 →
    ∃ t, exec .subframeStart s = .next t ∧ t.j = (s.j + 1) % 2 ^ 32 ∧ t.sco.idx = s.sco.idx + 1 ∧ t.sco.startAt = s.nextStart ∧
      t.sco.mode = .wall ∧ t.sco.running = true ∧ t.sco.line = 0 ∧
      (s.dome.retire.any (·.copied) = false → t.scenes = { s.dueTicks.scenes with retiring := [] })) ∧
  (∀ (s : State), s.sco.armed = true → s.nextStart ≤ (s.base.E : Int) → s.sco.running = false → s.sco.cutDue = false →
    s.base.flag Reg.sxtCtrl_SET = false →
    ∃ t, exec .subframeStart s = .next t ∧ t.sco.running = true ∧ t.sco.startAt = s.nextStart ∧ t.sco.dark = some 1 ∧ t.sco.line = 0) ∧
  (∀ (s : State), s.sco.cutDue = true →
    ∃ t, exec .commitCut s = .next t ∧ t.sco.cutDue = false ∧
      t.scenes.sealed = s.scenes.sealed.filter (fun x => !x.dueAt (s.sco.startAt.toNat % 2 ^ 32)) ∧
      t.scenes.live = ((s.scenes.sealed.filter (fun x => x.dueAt (s.sco.startAt.toNat % 2 ^ 32))).flatMap (·.ops)).foldl Scene.apply s.scenes.live ∧
      (s.cfgDue s.sco.startAt.toNat = true → t.cfg.staged = []) ∧ t.scenes.txns = s.scenes.txns)

/-- In a lit subframe with no LINK_DARK, LINE_SCANOUT of the next line at or after its start makes the following line the next; a device that is not standby with a port in service sends the line, of WIDTH words. OD_DATA writes one node of the bank not in force and advances TI. TEMP_LOST with no valid report forgets the reports and sets its event. SCO_UNIT_RESET begins a reset that sends dark subframes. -/
def Obligations.ALineLeavesTheScanoutStore : Prop :=
  (∀ (s : State) (y : BitVec 16) (u : LineUpset), s.sco.running = true → s.sco.dark = none → s.pnl.linkDark = none → y.toNat = s.sco.line →
    y.toNat < s.sco.height → s.sco.lineAt y.toNat ≤ (s.base.E : Int) →
    ∃ t, exec (.lineScanout y u) s = .next t ∧ t.sco.line = s.sco.line + 1 ∧ t.scenes = s.scenes ∧ t.dome = s.dome ∧
      (s.sco.standby = false → s.serves 0 = true ∨ s.serves 1 = true →
        ∃ ws, Output.line y.toNat ws ∈ t.base.out ∧ ws.length = s.sco.width)) ∧
  (∀ (s : State) (a : RegWr), s.accepts Reg.scoOdData a = true → a.be = 15 → s.base.get Reg.scoOdAddr_BANK ≠ s.base.get Reg.scoCtrl_OD_BANK →
    s.base.get Reg.scoOdAddr_TI < 32 →
    ∃ t, exec (.odData a) s = .next t ∧ t.base.get Reg.scoOdAddr_TI = s.base.get Reg.scoOdAddr_TI + 1 ∧
      t.sco.odt = sput odDefault s.sco.odt (odKey (s.base.get Reg.scoOdAddr_BANK) (s.base.get Reg.scoOdAddr_BAND) (s.base.get Reg.scoOdAddr_CH)
        (s.base.get Reg.scoOdAddr_PI) (s.base.get Reg.scoOdAddr_TI)) (a.val.toNat % 2048) ∧
      t = { s with sco := t.sco, base := t.base }) ∧
  (∀ (s : State), (s.port 0).temp.isSome ∨ (s.port 1).temp.isSome → s.panelTemp = none →
    ∃ t, exec .tempLost s = .next t ∧ (t.port 0).temp = none ∧ (t.port 1).temp = none ∧ t.hasEvent pgSCO 20 = true ∧
      t = { s with pnl := t.pnl, base := t.base }) ∧
  (∀ (s : State) (a : RegWr), s.asksReset pgSCO a = true →
    ∃ t, exec (.scoUnitReset a) s = .next t ∧ t.sco = { s.sco with reset := true, refCut := true } ∧ t.inReset pgSCO = true ∧
      t = { s with sco := t.sco, base := t.base })

/-- SPAN_DONE of a working cluster counts one span. STALL 64 µs after hand-out and DATAPATH take the span back: one more reissue, one more fault of the cluster in this frame, and for DATAPATH one more error of the cell. AUTOCAP written 1 is to end at the next cut and still reads 1. A unit reset of the array or a quadrant waits for the cut; that of a cluster in dispatch takes it out at once; each reads 1 in RESET. ENABLE of a cluster stands as written. -/
def Obligations.SpansFinishFailAndAreReissued : Prop :=
  (∀ (s : State) (c : Fin 68) (ecc : Ecc) (cp qp : Nat) (p : Span), s.spanOf c = some p → s.base.nhosts ≤ 4 →
    ∃ t, exec (.spanDone c ⟨ecc, cp, qp⟩) s = .next t ∧ s.counted t (Reg.spcSpans_COUNT c) 1 ∧ t.scenes = s.scenes ∧ t.sco = s.sco) ∧
  (∀ (s : State) (c : Fin 68) (p : Span), s.spanOf c = some p → p.at_ + 40000 ≤ s.base.ticks → s.base.nhosts ≤ 4 →
    ∃ t, exec (.spanStall c) s = .next t ∧ s.counted t (Reg.spcReissue_COUNT c) 1 ∧
      sget (fun _ => 0) t.spr.faults c = sget (fun _ => 0) s.spr.faults c + 1 ∧ t = { s with spr := t.spr, base := t.base }) ∧
  (∀ (s : State) (c : Fin 68) (k : Fin 4) (perm : Bool) (p : Span), s.spanOf c = some p → s.base.nhosts ≤ 4 →
    ∃ t, exec (.spanDatapath c k perm) s = .next t ∧ s.counted t (Reg.speErrors_COUNT (4 * c + k)) 1 ∧ s.counted t (Reg.spcReissue_COUNT c) 1 ∧
      sget (fun _ => 0) t.spr.faults c = sget (fun _ => 0) s.spr.faults c + 1 ∧ t = { s with spr := t.spr, base := t.base }) ∧
  (∀ (s : State) (a : RegWr), s.accepts Reg.sprLimits a = true → (s.base.word Reg.sprLimits).toNat.testBit 15 = true →
    (s.applied Reg.sprLimits a).word.testBit 15 = false →
    ∃ t, exec (.sprAutocap a) s = .next t ∧ t.spr = { s.spr with autoEnd := true } ∧ t.base.flag Reg.sprLimits_AUTOCAP = true ∧
      t = { s with spr := t.spr, base := t.base }) ∧
  (∀ (s : State) (page : BitVec 10) (a : RegWr), pgSPR ≤ page.toNat → page.toNat < 0x105 → s.asksReset page.toNat a = true →
    ∃ t, exec (.spireUnitReset page a) s = .next t ∧ t.spr = { s.spr with waitCut := setInsert s.spr.waitCut page.toNat } ∧
      t.inReset page.toNat = true ∧ t = { s with spr := t.spr, base := t.base }) ∧
  (∀ (s : State) (page : BitVec 10) (c : Fin 68) (a : RegWr), page.toNat = pgSPC c → s.asksReset page.toNat a = true →
    s.base.ownState page.toNat = uREADY →
    ∃ t, exec (.spireUnitReset page a) s = .next t ∧ t.spr.off = setInsert s.spr.off c ∧ t.spr.resets = setInsert s.spr.resets c ∧
      t.renders c = false ∧ t.inReset page.toNat = true ∧ t = { s with spr := t.spr, base := t.base }) ∧
  (∀ (s : State) (c : Fin 68) (a : RegWr) (on : Bool), s.asksEnable (pgSPC c) a on = true →
    ∃ t, exec (.clusterEnable c a) s = .next t ∧ t.base.enabled (pgSPC c) = on ∧ t = { s with base := t.base })

/-- A COMPASS_COPY_CHECK that has not run in this frame and finds nothing only records that it ran, and one more in the frame does nothing; one that finds a word bad in one copy logs it, with COPY_REPAIR, and changes no word; one that finds a word bad in both copies makes the word read its cold value and the Compass FAULT. A unit reset begins, to end at the next cut. ENABLE stands as written. -/
def Obligations.TheCompassChecksResetsAndSwitches : Prop :=
  (∀ (s : State), s.cmp.checked = false →
    exec (.compassCopyCheck []) s = .next { s with cmp := { s.cmp with checked := true } }) ∧
  (∀ (s : State) (l : List (BitVec 12 × BitVec 2)), s.cmp.checked = true → s.cmp.reset = false → exec (.compassCopyCheck l) s = .next s) ∧
  (∀ (s : State) (off : BitVec 12) (m : BitVec 2), s.cmp.checked = false → cmpWords.contains (hdr pgCMP (off.toNat / 4 * 4)) = true →
    m = 1 ∨ m = 2 → sget (fun _ => 0) s.cmp.bad (off.toNat / 4 * 4) = 0 → s.base.nhosts ≤ 4 →
    ∃ t, exec (.compassCopyCheck [(off, m)]) s = .next t ∧ t.cmp.checked = true ∧ sget (fun _ => 0) t.cmp.bad (off.toNat / 4 * 4) = m.toNat ∧
      t.hasEvent pgCMP 19 = true ∧ t.base.ownState pgCMP = s.base.ownState pgCMP ∧ s.keepsBut t [] ∧ t = { s with cmp := t.cmp, base := t.base }) ∧
  (∀ (s : State) (off : BitVec 12), s.cmp.checked = false → cmpWords.contains (hdr pgCMP (off.toNat / 4 * 4)) = true →
    sget (fun _ => 0) s.cmp.bad (off.toNat / 4 * 4) = 0 → s.base.ownState pgCMP ≠ uNOCLOCK → s.base.nhosts ≤ 4 →
    ∃ t, exec (.compassCopyCheck [(off, 3)]) s = .next t ∧ t.cmp.checked = true ∧ sget (fun _ => 0) t.cmp.bad (off.toNat / 4 * 4) = 3 ∧
      t.base.ownState pgCMP = uFAULT ∧ t.base.word (hdr pgCMP (off.toNat / 4 * 4)) = coldWord (hdr pgCMP (off.toNat / 4 * 4)) ∧
      t.cmpFlat = true ∧ t = { s with cmp := t.cmp, base := t.base }) ∧
  (∀ (s : State) (a : RegWr), s.asksReset pgCMP a = true →
    ∃ t, exec (.compassUnitReset a) s = .next t ∧ t.cmp = { s.cmp with reset := true } ∧ t.inReset pgCMP = true ∧
      t = { s with cmp := t.cmp, base := t.base }) ∧
  (∀ (s : State) (a : RegWr) (on : Bool), s.asksEnable pgCMP a on = true →
    ∃ t, exec (.compassEnable a) s = .next t ∧ t.base.enabled pgCMP = on ∧ t = { s with base := t.base })

/-! ## The freshness guard -/

/-- A freshness tick with a millisecond accumulated takes it from the accumulator and raises every AGE by 1, stopping at the greatest, and counts FRS_MS. With no tick for 1.05 ms the guard ticks locally and ages all the same; a local tick comes 156,250 always-on ticks after the last. A table check that finds nothing records that it ran; an entry bad in one copy is counted, with its event; a context bad in both copies becomes bad, and a region bad in both copies is bad and hatches the panel, or is discarded while a unit reset runs. A unit reset discards regions bad in both copies and begins its test. -/
def Obligations.TheGuardTicksChecksAndResets : Prop :=
  (∀ (s : State), msAcc ≤ s.guard.accum → s.base.flag Reg.frsStatus_TICK_LOCAL = false →
    ∃ t, exec .freshnessTick s = .next t ∧ t.guard.accum = s.guard.accum - msAcc ∧
      t.base.get Reg.frsMs_TICKS = (s.base.get Reg.frsMs_TICKS + 1) % 2 ^ 32 ∧ t.rings.window = s.rings.window + 1 ∧
      (∀ k c, sget (fun _ => none) s.guard.ctxs k = some c → sget (fun _ => none) t.guard.ctxs k = some { c with age := min 0xFFFFFF (c.age + 1) }) ∧
      t = { s with guard := t.guard, scenes := t.scenes, rings := t.rings, base := t.base }) ∧
  (∀ (s : State), s.base.flag Reg.frsStatus_TICK_LOCAL = false → s.base.ownState pgFRS ≠ uOFF → s.guard.lastAt + tickLate ≤ s.base.ticks →
    s.base.nhosts ≤ 4 →
    ∃ t, exec .tickLost s = .next t ∧ t.base.flag Reg.frsStatus_TICK_LOCAL = true ∧ t.hasEvent pgFRS 19 = true ∧ s.counted t Reg.frsTickLost_COUNT 1 ∧
      (∀ k c, sget (fun _ => none) s.guard.ctxs k = some c → sget (fun _ => none) t.guard.ctxs k = some { c with age := min 0xFFFFFF (c.age + 1) })) ∧
  (∀ (s : State), s.base.flag Reg.frsStatus_TICK_LOCAL = true → s.guard.lastAt + tickLocal ≤ s.base.ticks →
    ∃ t, exec .localTick s = .next t ∧ t.guard.lastAt = s.guard.lastAt + tickLocal ∧ s.counted t Reg.frsTickLost_COUNT 1 ∧
      (∀ k c, sget (fun _ => none) s.guard.ctxs k = some c → sget (fun _ => none) t.guard.ctxs k = some { c with age := min 0xFFFFFF (c.age + 1) })) ∧
  (∀ (s : State), exec (.guardCopyCheck []) s = .next { s with guard := { s.guard with checked := true } }) ∧
  (∀ (s : State) (g : GuardBad), g.both = false → s.base.nhosts ≤ 4 →
    ∃ t, exec (.guardCopyCheck [g]) s = .next t ∧ s.counted t Reg.frsCopyErr_COUNT 1 ∧ t.hasEvent pgFRS 20 = true ∧
      t = { s with guard := { s.guard with checked := true }, base := t.base }) ∧
  (∀ (s : State) (g : GuardBad), g.both = true → g.region = true →
    ∃ t, exec (.guardCopyCheck [g]) s = .next t ∧
      (s.guard.reset = none → t.guard.veil.global = true ∧ objKey g.host.toNat g.handle.toNat ∈ t.guard.badRegs ∧
        t.guard.regs = s.guard.regs ∧ (s.guard.badRegs = [] → t.hasEvent pgFRS 21 = true)) ∧
      (s.guard.reset ≠ none → objKey g.host.toNat g.handle.toNat ∈ t.guard.gone ∧
        t.guard.regs = s.guard.regs.filter (fun e => e.1 != objKey g.host.toNat g.handle.toNat) ∧ t.guard.badRegs = s.guard.badRegs) ∧
      t = { s with guard := t.guard, base := t.base }) ∧
  (∀ (s : State) (g : GuardBad) (c : GCtx), g.both = true → g.region = false →
    sget (fun _ => none) s.guard.ctxs (objKey g.host.toNat g.handle.toNat) = some c →
    ∃ t, exec (.guardCopyCheck [g]) s = .next t ∧ t.guard.checked = true ∧
      sget (fun _ => none) t.guard.ctxs (objKey g.host.toNat g.handle.toNat) = some { c with bad := true, age := 0xFFFFFF } ∧
      t = { s with guard := t.guard, base := t.base }) ∧
  (∀ (s : State) (a : RegWr) (ok : Bool), s.asksReset pgFRS a = true →
    ∃ t, exec (.guardUnitReset a ok) s = .next t ∧ t.guard.reset = some ok ∧ t.guard.badRegs = [] ∧
      (∀ k ∈ s.guard.badRegs, sget (fun _ => none) t.guard.regs k = none) ∧ t.inReset pgFRS = true ∧
      t = { s with guard := t.guard, base := t.base })

/-! ## The panel link -/

/-- Enabling an idle port asks for leave; disabling or resetting one in service lets its service end at the next subframe start, after a reset with bring-up to follow. Enabling or resetting a lane whose port or pair unit is in service begins a retraining; disabling one ends it. A retraining that has seen 64 good reports makes the lane work again; one that has not within its time leaves it failed and counts FAILS. LINK_DARK begins at once and ends at the next slot 0; LNK_CTRL sets a loop only where R363 allows it, and a loop or pattern written elsewhere is refused. -/
def Obligations.PortsAndLanesAreSwitchedAndRetrained : Prop :=
  (∀ (s : State) (p : Fin 2) (a : RegWr), s.asksEnable (pgPRT p) a true = true → (s.port p).phase = .idle →
    ∃ t, exec (.portEnable p a) s = .next t ∧ (t.port p).phase = .asks ∧ (t.holds (ridPort p) 0 || t.asks (ridPort p) 0) = true ∧
      t.base.enabled (pgPRT p) = true ∧ t = { s with pnl := t.pnl, adm := t.adm, base := t.base }) ∧
  (∀ (s : State) (p : Fin 2) (a : RegWr), s.asksEnable (pgPRT p) a false = true → (s.port p).phase = .service →
    ∃ t, exec (.portEnable p a) s = .next t ∧ (t.port p).phase = .ending ∧ (t.port p).restart = false ∧ t.base.enabled (pgPRT p) = false ∧
      t = { s with pnl := t.pnl, base := t.base }) ∧
  (∀ (s : State) (p : Fin 2) (a : RegWr), s.asksReset (pgPRT p) a = true → s.base.enabled (pgPRT p) = true → (s.port p).phase = .service →
    ∃ t, exec (.portUnitReset p a) s = .next t ∧ (t.port p).phase = .ending ∧ (t.port p).restart = true ∧ t.inReset (pgPRT p) = true ∧
      t = { s with pnl := t.pnl, base := t.base }) ∧
  (∀ (s : State) (l : Fin 44) (a : RegWr), s.asksReset (pgLNK l) a = true → s.base.enabled (pgLNK l) = true → s.laneRetired l = false →
    s.laneHome l = true → (s.lane l).retrain = none → s.base.nhosts ≤ 4 →
    ∃ t, exec (.laneUnitReset l a) s = .next t ∧ (t.lane l).retrain = some none ∧ t.inReset (pgLNK l) = true ∧
      (t.holds ridLane l || t.asks ridLane l) = true) ∧
  (∀ (s : State) (l : Fin 44) (a : RegWr), s.asksEnable (pgLNK l) a true = true → s.laneRetired l = false → s.laneHome l = true →
    (s.lane l).retrain = none →
    ∃ t, exec (.laneEnable l a) s = .next t ∧ (t.lane l).retrain = some none ∧ t.base.enabled (pgLNK l) = true ∧
      (t.holds ridLane l || t.asks ridLane l) = true ∧ t = { s with pnl := t.pnl, adm := t.adm, base := t.base }) ∧
  (∀ (s : State) (l : Fin 44) (a : RegWr), s.asksEnable (pgLNK l) a false = true → s.base.nhosts ≤ 4 →
    ∃ t, exec (.laneEnable l a) s = .next t ∧ (t.lane l).retrain = none ∧ t.base.enabled (pgLNK l) = false) ∧
  (∀ (s : State) (l : Fin 44) (g : Nat), (s.lane l).retrain = some (some g) → 64 ≤ (s.lane l).run →
    ∃ t, exec (.retrainPass l) s = .next t ∧ (t.lane l).retrain = none ∧ (t.lane l).dead = false ∧ t.holds ridLane l = false) ∧
  (∀ (s : State) (l : Fin 44) (g : Nat), (s.lane l).retrain = some (some g) → g ≤ s.base.ticks → (s.lane l).run < 64 → s.base.nhosts ≤ 4 →
    ∃ t, exec (.retrainFail l) s = .next t ∧ (t.lane l).retrain = none ∧ (t.lane l).dead = true ∧ t.holds ridLane l = false ∧
      s.counted t (Reg.lnkStatus_FAILS l) 1 ∧ t = { s with pnl := t.pnl, adm := t.adm, wch := t.wch, base := t.base }) ∧
  (∀ (s : State) (a : RegWr), s.accepts Reg.pnlCtrl a = true → (s.base.word Reg.pnlCtrl).toNat % 2 = 0 → (s.applied Reg.pnlCtrl a).word % 2 = 1 →
    ∃ t, exec (.linkDark a) s = .next t ∧ t.pnl = { s.pnl with linkDark := some 2, resume := false } ∧ t = { s with pnl := t.pnl, base := t.base }) ∧
  (∀ (s : State) (a : RegWr), s.accepts Reg.pnlCtrl a = true → (s.base.word Reg.pnlCtrl).toNat % 2 = 1 → (s.applied Reg.pnlCtrl a).word % 2 = 0 →
    exec (.linkDark a) s = .next { s.stored Reg.pnlCtrl a with pnl := { s.pnl with resume := true } }) ∧
  (∀ (s : State) (l : Fin 44) (a : RegWr), s.accepts (Reg.lnkCtrl l) a = true → s.loopAllowed l = true →
    ∃ t, exec (.lnkLoop l a) s = .next t ∧ t.base.word (Reg.lnkCtrl l) = BitVec.ofNat 32 (s.applied (Reg.lnkCtrl l) a).word ∧
      (t.lane l).loop = (if bits (s.applied (Reg.lnkCtrl l) a).word 5 4 = 0 ∨ bits (s.applied (Reg.lnkCtrl l) a).word 11 8 = 0 then none
        else some (bits (s.applied (Reg.lnkCtrl l) a).word 5 4, bits (s.applied (Reg.lnkCtrl l) a).word 11 8)) ∧
      t = { s with pnl := t.pnl, base := t.base }) ∧
  (∀ (s : State) (l : Fin 44) (a : RegWr) (w : Nat), w = mergeBytes (s.base.word (Reg.lnkCtrl l)).toNat a.val.toNat a.be →
    s.loopAllowed l = false → bits w 5 4 ≠ 0 ∨ bits w 11 8 ≠ 0 → s.base.visible a.host.toNat (pgLNK l) = true →
    s.base.mayWrite a.host.toNat (Reg.lnkCtrl l) = true → s.base.nhosts ≤ 4 →
    ∃ t, exec (.lnkLoop l a) s = .next t ∧ s.keepsBut t [] ∧ t = { s with base := t.base })

/-- A well-formed message of the selected back-channel lane, of a port that sends, is taken: STATUS sets the port's lock bits and, when valid, its temperature; HEALTH counts each lane's errors; CRC_REPORT sets the report registers and counts lines, and a report that does not match counts TSIG_BAD; LANE_LOSS takes the lane out; LOOP_RESULT counts errors and bits. A receive lane that reaches LOCKED shows it, and one that loses lock counts it. -/
def Obligations.BackChannelMessagesAreTaken : Prop :=
  (∀ (s : State) (p b : Fin 2) (m : List Byte), (s.port p).sends = true → backFormOk m = true → leAt m 0 1 = 0x10 → (s.port p).now.bc = b →
    s.recentJ (leAt m 4 4) = true →
    ∃ t, exec (.bcStatus p b (.control m)) s = .next t ∧ (t.port p).lock = leAt m 2 2 ∧
      ((leAt m 1 1).testBit 2 = true → (t.port p).temp = some (toSigned 16 (leAt m 8 2), s.base.ticks)) ∧
      t.scenes = s.scenes ∧ t.rings = s.rings) ∧
  (∀ (s : State) (p b : Fin 2) (m : List Byte), (s.port p).sends = true → backFormOk m = true → leAt m 0 1 = 0x11 → (s.port p).now.bc = b →
    s.base.nhosts ≤ 4 →
    ∃ t, exec (.bcHealth p b (.control m)) s = .next t ∧ t.scenes = s.scenes ∧ t.rings = s.rings ∧
      (∀ n : Fin 16, s.counted t (Reg.lnkUe_COUNT (txLane p n)) (if (leAt m 1 2).testBit n then 1 else 0) ∧
        s.counted t (Reg.lnkCe_COUNT (txLane p n)) (bits (leAt m 3 24) (12 * n + 11) (12 * n)))) ∧
  (∀ (s : State) (p b : Fin 2) (m : List Byte), (s.port p).sends = true → backFormOk m = true → leAt m 0 1 = 0x12 → (s.port p).now.bc = b →
    s.recentJ (leAt m 4 4) = true → s.base.nhosts ≤ 4 →
    ∃ t, exec (.crcReport p b (.control m)) s = .next t ∧ t.base.get (Reg.prtReportJ_J p) = leAt m 4 4 ∧
      t.base.get (Reg.prtReportTsig_TSIG p) = leAt m 8 4 ∧ s.counted t (Reg.prtLinesDamaged_COUNT p) (leAt m 12 2) ∧
      s.counted t (Reg.prtLinesRebuilt_COUNT p) (leAt m 14 2) ∧
      (leAt m 1 1 ≠ 1 ∨ (s.sco.sigs.find? (fun g => g.j == leAt m 4 4)).map (·.tsig) ≠ some (leAt m 8 4) →
        s.counted t (Reg.prtTsigBad_COUNT p) 1 ∧ t.hasEvent (pgPRT p) 18 = true) ∧
      t = { s with pnl := t.pnl, base := t.base }) ∧
  (∀ (s : State) (p b : Fin 2) (m : List Byte), (s.port p).phase = .service → backFormOk m = true → leAt m 0 1 = 0x13 → (s.port p).now.bc = b →
    (s.port p).target.has (leAt m 1 1) = true → (s.port p).seen.contains (leAt m 1 1) = true →
    ∃ t, exec (.laneLoss p b (.control m)) s = .next t ∧ (t.lane (txLane p (leAt m 1 1))).dead = true ∧ t.hasEvent (pgPRT p) 1 = true ∧
      t.scenes = s.scenes ∧ t.rings = s.rings) ∧
  (∀ (s : State) (p b : Fin 2) (m : List Byte), (s.port p).sends = true → backFormOk m = true → leAt m 0 1 = 0x14 → (s.port p).now.bc = b →
    ∃ t, exec (.loopResult p b (.control m)) s = .next t ∧ s.counted t (Reg.lnkPrbsErr_COUNT (txLane p (leAt m 1 1))) (leAt m 4 4) ∧
      s.counted t (Reg.lnkPrbsMbits_COUNT (txLane p (leAt m 1 1))) (leAt m 8 4) ∧ t = { s with base := t.base }) ∧
  (∀ (s : State) (l : Fin 44), 32 ≤ l.val → l.val < 36 ∨ 40 ≤ l.val → s.base.get (Reg.lnkStatus_ALIGN l) ≠ 2 →
    ∃ t, exec (.rxLaneLocked l) s = .next t ∧ t.base.get (Reg.lnkStatus_ALIGN l) = 2 ∧ t.hasEvent (pgLNK l) 16 = true ∧
      t.scenes = s.scenes ∧ t.rings = s.rings) ∧
  (∀ (s : State) (l : Fin 44), 32 ≤ l.val → l.val < 36 ∨ 40 ≤ l.val → s.base.get (Reg.lnkStatus_ALIGN l) = 2 → s.base.nhosts ≤ 4 →
    ∃ t, exec (.lockLoss l) s = .next t ∧ t.base.get (Reg.lnkStatus_ALIGN l) = 0 ∧ s.counted t (Reg.lnkLockLoss_COUNT l) 1 ∧
      t.hasEvent (pgLNK l) 17 = true ∧ (t.lane l).run = 0 ∧ t.scenes = s.scenes ∧ t.rings = s.rings)

/-! ## Backlight and annunciator -/

/-- Disabling the Beacon stops every zone and its page reads OFF; enabling it brings it up. A disabled zone is off with no pulse left; an enabled or reset one waits for its turn, and a reset marks its faulted strings for a retest. A string disabled without a fault is OFF; one enabled in a zone past its grant is PENDING with a soft start. A zone past frame 8 is started and gives its leave back. REARM of a faulted string adds its ball pairs to the tests. -/
def Obligations.ZonesAndStringsStartAndStop : Prop :=
  (∀ (s : State) (a : RegWr), s.asksEnable pgBCN a false = true →
    ∃ t, exec (.beaconEnable a) s = .next t ∧ t.base.ownState pgBCN = uOFF ∧ (∀ z : Fin 12, (t.zone z).phase = .off) ∧
      t = { s with bcn := t.bcn, adm := t.adm, base := t.base }) ∧
  (∀ (s : State) (a : RegWr), s.asksEnable pgBCN a true = true →
    ∃ t, exec (.beaconEnable a) s = .next t ∧ t.base.ownState pgBCN = uBUSY ∧ t.base.enabled pgBCN = true ∧
      t = { s with bcn := t.bcn, adm := t.adm, base := t.base }) ∧
  (∀ (s : State) (z : Fin 12) (a : RegWr), s.asksEnable (pgZON z) a false = true →
    ∃ t, exec (.zoneEnable z a) s = .next t ∧ (t.zone z).phase = .off ∧ (∀ i : Fin 8, (t.str z i).plan = []) ∧ t.base.enabled (pgZON z) = false ∧
      t = { s with bcn := t.bcn, adm := t.adm, base := t.base }) ∧
  (∀ (s : State) (z : Fin 12) (a : RegWr), s.asksEnable (pgZON z) a true = true → s.base.enabled pgBCN = true → s.base.ownState pgBCN ≠ uNOCLOCK →
    ∃ t, exec (.zoneEnable z a) s = .next t ∧ ((t.zone z).phase = .waits ∨ (t.zone z).phase = .pinTest) ∧ t.base.enabled (pgZON z) = true ∧
      t = { s with bcn := t.bcn, adm := t.adm, base := t.base }) ∧
  (∀ (s : State) (z : Fin 12) (a : RegWr), s.asksReset (pgZON z) a = true → s.base.enabled pgBCN = true → s.base.enabled (pgZON z) = true →
    s.base.ownState pgBCN ≠ uNOCLOCK →
    ∃ t, exec (.zoneUnitReset z a) s = .next t ∧ ((t.zone z).phase = .waits ∨ (t.zone z).phase = .pinTest) ∧ t.inReset (pgZON z) = true ∧
      (∀ i : Fin 8, (t.str z i).plan = [] ∧ (t.str z i).retest = decide (4 ≤ s.strState z i)) ∧
      t = { s with bcn := t.bcn, adm := t.adm, base := t.base }) ∧
  (∀ (s : State) (z : Fin 12) (i : Fin 8) (a : RegWr), s.accepts (Reg.strCtrl z i) a = true → (s.base.word (Reg.strCtrl z i)).toNat.testBit 31 = true →
    (s.applied (Reg.strCtrl z i) a).word.testBit 31 = false → s.strState z i < 4 → s.base.nhosts ≤ 4 →
    ∃ t, exec (.stringEnable z i a) s = .next t ∧ t.strState z i = strOFF ∧ (t.str z i).plan = [] ∧ t = { s with bcn := t.bcn, cfg := t.cfg, base := t.base }) ∧
  (∀ (s : State) (z : Fin 12) (i : Fin 8) (a : RegWr), s.accepts (Reg.strCtrl z i) a = true → (s.base.word (Reg.strCtrl z i)).toNat.testBit 31 = false →
    (s.applied (Reg.strCtrl z i) a).word.testBit 31 = true → s.strState z i < 4 → (s.zone z).on = true → s.base.nhosts ≤ 4 →
    ∃ t, exec (.stringEnable z i a) s = .next t ∧ t.strState z i = strPENDING ∧ (t.str z i).ramp = some 0 ∧
      t = { s with bcn := t.bcn, cfg := t.cfg, base := t.base }) ∧
  (∀ (s : State) (z : Fin 12), (s.zone z).phase = .ramp 9 →
    ∃ t, exec (.zoneStarted z) s = .next t ∧ (t.zone z).phase = .started ∧ t.holds ridZone z = false ∧ t.hasEvent (pgZON z) 21 = true ∧
      t = { s with bcn := t.bcn, adm := t.adm, base := t.base }) ∧
  (∀ (s : State) (z : Fin 12) (i : Fin 8) (a : RegWr), s.accepts (Reg.strState z i) a = true → (s.applied (Reg.strState z i) a).act.testBit 31 = true →
    4 ≤ s.strState z i →
    ∃ t, exec (.strRearm z i a) s = .next t ∧ (t.str z i).retest = true ∧ t.bcn.tests = (s.bcn.tests ++ strPairs z i).dedup ∧
      t.strState z i = s.strState z i ∧ t = { s with bcn := t.bcn, base := t.base })

/-- While the subframe is lit and no LINK_DARK is sent (R219), at a zone's window the string of the slot's direction group fires its planned pulses; at its closed interval the diagnostic pulse, when due and every planned pulse is too short. The first long pulse that ends sets STR_MEAS; a sound one makes the string OK. A trip is counted, the fourth over-current of a frame makes OVERCURRENT. 64 frames without a verdict make UNVERIFIED. A found short between two strings makes both NEIGHBOUR_SHORT; a sound pair leaves the tests. -/
def Obligations.StringsFireAndAreJudged : Prop :=
  (∀ (s : State) (z : Fin 12), s.sco.running = true → s.sco.beaconDark = false → s.pnl.linkDark = none → s.sco.standby = false → (s.zone z).opened = false →
    s.base.get Reg.scoLw_LW_LEN ≠ 0 → s.sco.partAt (s.base.get Reg.scoLw_LW_START + z * s.base.get Reg.scoLwStep_LW_STEP) ≤ (s.base.E : Int) →
    ∃ t, exec (.lightWindowOpen z) s = .next t ∧ (t.zone z).opened = true ∧
      (s.mayFire z (s.j % 8) = true → shortPlan (s.planned z (s.j % 8)) = false →
        (t.str z (s.j % 8)).plan = (s.str z (s.j % 8)).plan ++ (s.planned z (s.j % 8)).map (·.2)) ∧
      t = { s with bcn := t.bcn, base := t.base }) ∧
  (∀ (s : State) (z : Fin 12), s.sco.running = true → s.sco.beaconDark = false → s.pnl.linkDark = none → (s.zone z).closed = false → s.closedUsable z = true →
    (s.closedAt z).1 ≤ (s.base.E : Int) →
    ∃ t, exec (.closedInterval z) s = .next t ∧ (t.zone z).closed = true ∧
      (s.mayFire z (s.j % 8) = true → shortPlan (s.planned z (s.j % 8)) = true → (s.str z (s.j % 8)).diag = none →
        (t.str z (s.j % 8)).diag = some s.bcn.frame ∧
        (t.str z (s.j % 8)).plan = (s.str z (s.j % 8)).plan ++ [s.base.get Reg.bcnDiag_DIAG_LEN]) ∧
      t = { s with bcn := t.bcn, base := t.base }) ∧
  (∀ (s : State) (z : Fin 12) (i : Fin 8) (len : Nat) (rise : Option (BitVec 12)) (vsns : BitVec 10) (isns : List (Nat × BitVec 10)), (s.str z i).judged = false → 800 ≤ len →
    (s.str z i).plan.contains len = true → fires (s.strState z i) = true → s.base.nhosts ≤ 4 →
    ∃ t, exec (.pulseEnd z i len rise ⟨vsns, isns⟩) s = .next t ∧ (t.str z i).judged = true ∧
      t.base.get (Reg.strMeas_RISE z i) = (rise.map (·.toNat)).getD 0xFFF ∧ t.base.get (Reg.strMeas_VSNS z i) = vsns.toNat ∧
      (rise.isSome = true → (s.str z i).oc = false → (s.str z i).vov = false → s.base.get (Reg.strVlim_VMIN z i) ≤ vsns.toNat →
        t.strState z i = strOK ∧ t.base.get (Reg.strState_NOVERDICT z i) = 0) ∧
      t = { s with bcn := t.bcn, base := t.base }) ∧
  (∀ (s : State) (z : Fin 12) (i : Fin 8) (ov : Bool) (k step : Nat), (s.str z i).plan ≠ [] → fires (s.strState z i) = true → s.base.nhosts ≤ 4 →
    ∃ t, exec (.strTrip z i ⟨ov, k, step⟩) s = .next t ∧ (t.str z i).trips = (if ov then (s.str z i).trips else (s.str z i).trips + 1) ∧
      (ov = false → 3 ≤ (s.str z i).trips → t.strState z i = 6) ∧ t = { s with bcn := t.bcn, base := t.base }) ∧
  (∀ (s : State) (z : Fin 12) (i : Fin 8), 64 ≤ s.base.get (Reg.strState_NOVERDICT z i) → s.strState z i = strOK ∨ s.strState z i = strPENDING →
    ∃ t, exec (.strUnverified z i) s = .next t ∧ t.strState z i = strUNVERIFIED ∧ t.hasEvent (pgZON z) 20 = true ∧ t = { s with base := t.base }) ∧
  (∀ (s : State) (a b : Ball), s.bcn.tests.contains (min (ballNum a) (ballNum b), max (ballNum a) (ballNum b)) = true →
    ballNum a / 4 ≠ ballNum b / 4 → s.base.nhosts ≤ 4 →
    ∃ t, exec (.neighbourPinTest a b true) s = .next t ∧ t.strState a.z a.s = strNEIGHBOUR ∧ t.strState b.z b.s = strNEIGHBOUR) ∧
  (∀ (s : State) (a b : Ball), s.bcn.tests.contains (min (ballNum a) (ballNum b), max (ballNum a) (ballNum b)) = true →
    (∀ z : Fin 12, (s.zone z).phase ≠ .waits) →
    ∃ t, exec (.neighbourPinTest a b false) s = .next t ∧
      t.bcn.tests = s.bcn.tests.filter (· != (min (ballNum a) (ballNum b), max (ballNum a) (ballNum b))) ∧
      t = { s with bcn := t.bcn, adm := t.adm, base := t.base })

/-- Enabling the Belfry from off begins its ramp; disabling or resetting it in a cycle lets the cycle end first. A cycle that is due begins the next one, showing the other bank when a swap is asked for and that bank matches its CRC. Joined electrodes are off after 100 µs. BLF_BANK asks for a swap, BLF_TEMP is a report from now, and a reading of VLCD at or below V_OP + 0.2 V (R10, R403) sets VLCD_LOW. A subframe start due no later than the cycle start comes first (R406). -/
def Obligations.TheBelfryCyclesSwapsAndDischarges : Prop :=
  (∀ (s : State) (a : RegWr), s.asksEnable pgBLF a true = true → s.blf.phase = .off →
    ∃ t, exec (.belfryEnable a) s = .next t ∧ t.blf.phase = .ramp ∧ t.blf.at_ = s.base.ticks ∧ t = { s with blf := t.blf, base := t.base }) ∧
  (∀ (s : State) (a : RegWr), s.asksEnable pgBLF a false = true → s.blf.phase = .run →
    ∃ t, exec (.belfryEnable a) s = .next t ∧ t.blf = { s.blf with stop := true, restart := false } ∧ t = { s with blf := t.blf, base := t.base }) ∧
  (∀ (s : State) (a : RegWr), s.asksReset pgBLF a = true → s.blf.phase = .run →
    ∃ t, exec (.belfryUnitReset a) s = .next t ∧ t.blf = { s.blf with stop := true, restart := s.base.enabled pgBLF } ∧ t.inReset pgBLF = true ∧
      t = { s with blf := t.blf, base := t.base }) ∧
  (∀ (s : State), s.blf.phase = .run → s.blf.stop = false → s.blf.due ≤ s.base.ticks → s.base.nhosts ≤ 4 →
    (s.sco.armed = false ∨ (s.base.E : Int) < s.nextStart) →
    ∃ t, exec .cycleStart s = .next t ∧ t.blf.phase = .run ∧ t.blf.at_ = s.blf.due ∧ t.blf.seen = 0 ∧
      t.base.get Reg.blfBank_SHOWN = (if s.base.flag Reg.blfBank_SWAP && s.base.bankOk (1 - s.base.get Reg.blfBank_SHOWN)
        then 1 - s.base.get Reg.blfBank_SHOWN else s.base.get Reg.blfBank_SHOWN) ∧
      t.base.flag Reg.blfBank_SWAP = false ∧ t = { s with blf := t.blf, base := t.base }) ∧
  (∀ (s u : State), s.cycleDue = true → s.sco.armed = true →
    s.nextStart + (((s.base.ticks - s.blf.due) * 8 / 5 : Nat) : Int) ≤ (s.base.E : Int) → exec .subframeStart s = .next u →
    exec .cycleStart s = .next u.cycleStartRow) ∧
  (∀ (s : State), s.blf.phase = .joined → s.blf.at_ + 62500 ≤ s.base.ticks → s.blf.restart = false →
    ∃ t, exec .dischargeEnd s = .next t ∧ t.blf = { s.blf with phase := .off } ∧ t.inReset pgBLF = false ∧ t = { s with blf := t.blf, base := t.base }) ∧
  (∀ (s : State) (a : RegWr), s.accepts Reg.blfBank a = true → (s.applied Reg.blfBank a).act.testBit 31 = true →
    ∃ t, exec (.blfBankSwap a) s = .next t ∧ t.base.flag Reg.blfBank_SWAP = true ∧ t = { s with base := t.base }) ∧
  (∀ (s : State) (a : RegWr), s.accepts Reg.blfTemp a = true →
    exec (.blfTemp a) s = .next { s.stored Reg.blfTemp a with blf := { s.blf with tempAt := some s.base.ticks } }) ∧
  (∀ (s : State) (mv : BitVec 16), s.blf.phase = .run → s.base.get Reg.blfStatus_VOP ≠ 0 → mv.toNat ≤ s.base.get Reg.blfStatus_VOP * 20 + 200 →
    s.base.nhosts ≤ 4 →
    ∃ t, exec (.vlcdLow mv) s = .next t ∧ t.base.get Reg.blfStatus_VLCD = mv.toNat ∧ t.blf.low = true ∧ t.hasEvent pgBLF 21 = true ∧
      t = { s with blf := t.blf, base := t.base })

/-! ## Wall time, timers and the time port -/

/-- WRAP and SLEW_END are ticks of the Sextant that raise WRAP or end a slew. A legal SXT_INC_HI makes both halves the increment; SXT_ADJ within 1 ms starts a slew. SET asks for a load, SNAP copies the time of one tick, HOLD forces HOLDOVER once lock has been reached, FREE before. A load due at a subframe start sets E and begins the gap. Sixteen offsets within the window lock the Sextant; a cause of R418 that holds forces HOLDOVER. -/
def Obligations.SextantTimeIsSteeredAndLoaded : Prop :=
  (∀ (s : State), s.sxtRuns = true → wraps s.base.acc s.nextAcc = true →
    ∃ t, exec .sxtWrap s = .next t ∧ t.base.acc = s.nextAcc ∧ t.hasEvent pgSXT 16 = true ∧ t.base.ticks = s.base.ticks + 1) ∧
  (∀ (s : State), s.sxtRuns = true → s.sxt.slew ≠ 0 → s.sxt.slew - slewStep s.sxt.slew = 0 →
    ∃ t, exec .slewEnd s = .next t ∧ t.base.acc = s.nextAcc ∧ t.sxt.slew = 0 ∧ t.base.flag Reg.sxtStatus_SLEWING = false) ∧
  (∀ (s : State) (a : RegWr), s.accepts Reg.sxtIncHi a = true → a.be = 15 →
    incLegal (a.val.toNat % 256 * 2 ^ 32 + (s.base.word Reg.sxtIncLo).toNat) = true →
    exec (.sxtIncHi a) s =
      .next { s.stored Reg.sxtIncHi a with sxt := { s.sxt with inc := a.val.toNat % 256 * 2 ^ 32 + (s.base.word Reg.sxtIncLo).toNat } }) ∧
  (∀ (s : State) (a : RegWr), s.accepts Reg.sxtAdj a = true → a.be = 15 → (toSigned 32 a.val.toNat).natAbs ≤ 1000000 →
    ∃ t, exec (.sxtAdj a) s = .next t ∧ t.sxt = { s.sxt with slew := toSigned 32 a.val.toNat * (2 ^ 32 : Nat) } ∧
      t.base.flag Reg.sxtStatus_SLEWING = (a.val.toNat != 0) ∧ t = { s with sxt := t.sxt, base := t.base }) ∧
  (∀ (s : State) (a : RegWr), s.accepts Reg.sxtCtrl a = true → (s.applied Reg.sxtCtrl a).act.testBit 1 = true →
    ∃ t, exec (.sxtSet a) s = .next t ∧ t.base.flag Reg.sxtCtrl_SET = true ∧ t = { s with base := t.base }) ∧
  (∀ (s : State) (a : RegWr), s.accepts Reg.sxtCtrl a = true → (s.applied Reg.sxtCtrl a).act.testBit 2 = true →
    ∃ t, exec (.sxtSnap a) s = .next t ∧ t.base.get Reg.sxtSnapNs_NS = s.base.now ∧ t.base.get Reg.sxtSnapFrac_FRAC = s.base.frac ∧
      t.base.get Reg.sxtSnapWraps_WRAPS = s.base.E / 2 ^ 32 % 2 ^ 32 ∧ t = { s with base := t.base }) ∧
  (∀ (s : State) (a : RegWr), s.accepts Reg.sxtCtrl a = true → (s.applied Reg.sxtCtrl a).word.testBit 0 = true →
    ∃ t, exec (.sxtHold a) s = .next t ∧
      t.base.get Reg.sxtStatus_STATE = (if s.base.flag Reg.sxtStatus_LOCKED_ONCE then 3 else 0) ∧ t = { s with base := t.base }) ∧
  (∀ (s : State), s.base.flag Reg.sxtCtrl_SET = true → s.sco.armed = true → s.nextStart ≤ (s.base.E : Int) → s.base.nhosts ≤ 4 →
    ∃ t, exec .setApplied s = .next t ∧ t.base.acc = s.base.addr64 Reg.sxtSetLo Reg.sxtSetHi * 2 ^ 32 ∧ t.base.flag Reg.sxtCtrl_SET = false ∧
      t.sco.mode = .gap ∧ t.hasEvent pgSXT 19 = true) ∧
  (∀ (s : State) (offsets : List Int) (o : Int), s.mayLock = true → 16 ≤ offsets.length → offsets.getLast? = some o →
    (∀ x ∈ offsets, -(s.base.get Reg.sxtServo_LOCK_NS : Int) ≤ x ∧ x ≤ (s.base.get Reg.sxtServo_LOCK_NS : Int)) →
    ∃ t, exec (.sxtLocked offsets) s = .next t ∧ t.base.get Reg.sxtStatus_STATE = 2 ∧ t.base.get Reg.sxtOffset_NS = ofSigned 32 o ∧
      t.sxt = { s.sxt with validAt := s.base.ticks } ∧ t = { s with sxt := t.sxt, base := t.base }) ∧
  (∀ (s : State) (why : HoldCause), s.base.flag Reg.sxtStatus_LOCKED_ONCE = true →
    (why = .noOffset → s.sxt.validAt + 4 * secTicks ≤ s.base.ticks) → (why = .helmReset → s.base.flag Reg.ethStatus_HELM = false) →
    (why = .linkDown → s.base.flag Reg.ethStatus_LINK = false) → (why = .hold → s.base.flag Reg.sxtCtrl_HOLD = true) →
    ∃ t, exec (.sxtHoldover why) s = .next t ∧ t.base.get Reg.sxtStatus_STATE = 3 ∧ t = { s with base := t.base })

/-- R419. After the first lock, with STEP_EN 0, an offset outside the lock window never loads time: it starts a slew towards 0 of its own size, at most 1 ms. Before the first lock an offset over 1 ms asks for a load at the next subframe start that removes it; later, with STEP_EN 1, so does one that every one of the last 16 measurements finds at least STEP_MS milliseconds large. That a smaller offset is slewed and not steered by increment writes is the model's choice (log 53). -/
def Obligations.OffsetsAreSlewedOrLoaded : Prop :=
  (∀ (s : State) (offsets : List Int) (o : Int), s.mayLock = true → offsets.getLast? = some o → s.base.get Reg.sxtServo_LOCK_NS < o.natAbs →
    s.base.flag Reg.sxtStatus_LOCKED_ONCE = true → s.base.flag Reg.sxtServo_STEP_EN = false →
    ∃ t, exec (.sxtLocked offsets) s = .next t ∧ t.base.flag Reg.sxtCtrl_SET = s.base.flag Reg.sxtCtrl_SET ∧
      t.sxt.slew = max (-1000000) (min 1000000 (-o)) * (2 ^ 32 : Nat) ∧ t.base.flag Reg.sxtStatus_SLEWING = true ∧
      t.base.get Reg.sxtStatus_STATE = 1 ∧ t = { s with sxt := t.sxt, base := t.base }) ∧
  (∀ (s : State) (offsets : List Int) (o : Int), s.mayLock = true → offsets.getLast? = some o → s.base.get Reg.sxtServo_LOCK_NS < o.natAbs →
    (s.base.flag Reg.sxtStatus_LOCKED_ONCE = false ∧ 1000000 < o.natAbs) ∨
    (s.base.flag Reg.sxtStatus_LOCKED_ONCE = true ∧ s.base.flag Reg.sxtServo_STEP_EN = true ∧ 16 ≤ offsets.length ∧
      ∀ x ∈ offsets.drop (offsets.length - 16), s.base.get Reg.sxtServo_STEP_MS * 1000000 ≤ x.natAbs) →
    ∃ t, exec (.sxtLocked offsets) s = .next t ∧ t.base.flag Reg.sxtCtrl_SET = true ∧ t.sxt.slew = s.sxt.slew ∧
      (s.sco.armed = true → t.base.addr64 Reg.sxtSetLo Reg.sxtSetHi = ((s.nextStart - o) % (2 ^ 64 : Nat)).toNat) ∧
      t = { s with sxt := t.sxt, base := t.base })

/-- Arming a timer with a future target makes it wait for that instant; a past target without STRICT fires at once, is marked late by its lateness and sets both events; under STRICT it is refused and ARM clears; writing ARM 0 disarms. -/
def Obligations.TimersArmOrAreRefused : Prop :=
  (∀ (s : State) (n : Fin 4) (a : RegWr), s.accepts (Reg.actCtrl n) a = true → (s.base.word (Reg.actCtrl n)).toNat.testBit 31 = false →
    (s.applied (Reg.actCtrl n) a).word.testBit 31 = true → future32 (s.base.get (Reg.actTarget_NS n)) s.base.now = true →
    ∃ t, exec (.actArm n a) s = .next t ∧
      t.timer n = some ⟨extend32 (s.base.get (Reg.actTarget_NS n)) s.base.E, s.base.get (Reg.actTarget_NS n)⟩ ∧
      t.base.flag (Reg.actCtrl_ARM n) = true ∧ t.base.out = s.base.out ∧ t = { s with sxt := t.sxt, base := t.base }) ∧
  (∀ (s : State) (n : Fin 4) (a : RegWr), s.accepts (Reg.actCtrl n) a = true → (s.base.word (Reg.actCtrl n)).toNat.testBit 31 = false →
    (s.applied (Reg.actCtrl n) a).word.testBit 31 = true → future32 (s.base.get (Reg.actTarget_NS n)) s.base.now = false →
    (s.applied (Reg.actCtrl n) a).word.testBit 30 = false →
    ∃ t, exec (.actArm n a) s = .next t ∧ t.hasEvent pgSXT 20 = true ∧ t.hasEvent pgSXT 23 = true ∧ t.base.flag (Reg.actCtrl_LATE n) = true ∧
      t.base.get (Reg.actLate_NS n) = sub32 s.base.now (s.base.get (Reg.actTarget_NS n)) ∧ t = { s with sxt := t.sxt, base := t.base }) ∧
  (∀ (s : State) (n : Fin 4) (a : RegWr), s.accepts (Reg.actCtrl n) a = true → (s.base.word (Reg.actCtrl n)).toNat.testBit 31 = false →
    (s.applied (Reg.actCtrl n) a).word.testBit 31 = true → future32 (s.base.get (Reg.actTarget_NS n)) s.base.now = false →
    (s.applied (Reg.actCtrl n) a).word.testBit 30 = true →
    ∃ t, exec (.actArm n a) s = .next t ∧ t.timer n = none ∧ t.base.flag (Reg.actCtrl_ARM n) = false ∧ t.base.out = s.base.out ∧
      t = { s with sxt := t.sxt, base := t.base }) ∧
  (∀ (s : State) (n : Fin 4) (a : RegWr), s.accepts (Reg.actCtrl n) a = true → (s.applied (Reg.actCtrl n) a).word.testBit 31 = false →
    exec (.actArm n a) s = .next ((s.stored (Reg.actCtrl n) a).setTimer n none))

/-- A timer that reaches its target sets ACT_DONE, after the lower-numbered timers that fire on its ball at the same instant, and is disarmed or armed again one PERIOD later. Its ACTION drives a ball whose function is TIMER high or low; ACTION 0, a ball of another function and a pulse of WIDTH 0 drive nothing. A pulse drives the ball high and, when its WIDTH is over, gives it the level back that it had before. -/
def Obligations.TimersFireWithTheirAction : Prop :=
  (∀ (s : State) (n : Fin 4) (x : ActTimer), s.timer n = some x → x.due ≤ s.base.E →
    ∃ t, exec (.actDone n) s = .next t ∧ t.hasEvent pgSXT 20 = true ∧
      t.timer n = (if s.base.get (Reg.actPeriod_NS n) = 0 then none else some ⟨s.base.E + nextTarget 0 (s.base.get (Reg.actPeriod_NS n)), x.first⟩) ∧
      (s.base.get (Reg.actPeriod_NS n) = 0 → t.base.flag (Reg.actCtrl_ARM n) = false) ∧
      (s.timerDrives n = false → ∀ k, t.ballLevel k = (s.lowerFired n x).ballLevel k) ∧
      (s.timerDrives n = true → t.ballLevel (s.base.get (Reg.actCtrl_GPIO n)) = (s.base.get (Reg.actCtrl_ACTION n) != 2)) ∧
      (s.timerDrives n = true → s.base.get (Reg.actCtrl_ACTION n) = 3 → sget (fun _ => none) t.sxt.pulses n =
        some ⟨s.base.get (Reg.actCtrl_GPIO n), s.base.ticks + ceilDiv (s.base.get (Reg.actCtrl_WIDTH n) * 125) 2, (s.lowerFired n x).beforePulse (s.base.get (Reg.actCtrl_GPIO n))⟩) ∧
      t = { s with sxt := t.sxt, base := t.base }) ∧
  (∀ (s : State) (n : Fin 4) (p : ActPulse), sget (fun _ => none) s.sxt.pulses n = some p → p.till ≤ s.base.ticks → p.gpio < 16 →
    ∃ t, exec (.actPulseEnd n) s = .next t ∧ sget (fun _ => none) t.sxt.pulses n = none ∧ t.ballLevel p.gpio = p.back ∧
      t = { s with sxt := t.sxt, base := t.base })

/-- An enabled capture records SXT_NOW of a selected edge on its ball, sets its event, and marks OVERRUN when that event was still pending; an edge that is not selected only changes the ball's level. GPIO_CFG gives a ball its function: OUTPUT drives LEVEL, TIMER and ALIVE_OUT drive LEVEL when the function is chosen, INPUT drives nothing. -/
def Obligations.CapturesAndBallsAct : Prop :=
  (∀ (s : State) (m : Fin 2) (rising : Bool), s.base.flag (Reg.capCtrl_EN m) = true →
    (s.base.get (Reg.capCtrl_EDGE m)).testBit (if rising then 0 else 1) = true →
    ∃ t, exec (.gpioCapture m rising) s = .next t ∧ t.base.get (Reg.capTime_NS m) = s.base.now ∧ t.hasEvent pgSXT (21 + m) = true ∧
      t.ballLevel (s.base.get (Reg.capCtrl_GPIO m)) = rising ∧
      (s.hasEvent pgSXT (21 + m) = true → t.base.flag (Reg.capCtrl_OVERRUN m) = true) ∧ t = { s with base := t.base }) ∧
  (∀ (s : State) (m : Fin 2) (rising : Bool), s.base.flag (Reg.capCtrl_EN m) = false ∨
      (s.base.get (Reg.capCtrl_EDGE m)).testBit (if rising then 0 else 1) = false →
    exec (.gpioCapture m rising) s = .next (s.setBall (s.base.get (Reg.capCtrl_GPIO m)) rising)) ∧
  (∀ (s : State) (n : Fin 16) (a : RegWr), s.accepts (Reg.gpioCfg n) a = true → (s.applied (Reg.gpioCfg n) a).word % 4 = 1 →
    ∃ t, exec (.gpioCfg n a) s = .next t ∧ t.ballLevel n = (s.applied (Reg.gpioCfg n) a).word.testBit 8 ∧ t = { s with sxt := t.sxt, base := t.base }) ∧
  (∀ (s : State) (n : Fin 16) (a : RegWr), s.accepts (Reg.gpioCfg n) a = true → 2 ≤ (s.applied (Reg.gpioCfg n) a).word % 4 →
    (s.base.word (Reg.gpioCfg n)).toNat % 4 ≠ (s.applied (Reg.gpioCfg n) a).word % 4 →
    ∃ t, exec (.gpioCfg n a) s = .next t ∧ t.ballLevel n = (s.applied (Reg.gpioCfg n) a).word.testBit 8 ∧ t = { s with sxt := t.sxt, base := t.base }) ∧
  (∀ (s : State) (n : Fin 16) (a : RegWr), s.accepts (Reg.gpioCfg n) a = true → (s.applied (Reg.gpioCfg n) a).word % 4 = 0 →
    ∃ t, exec (.gpioCfg n a) s = .next t ∧ t.base.out = s.base.out ∧ t = { s with sxt := t.sxt, base := t.base })

/-- Enabling the time port asks for leave; disabling it or resetting the Sextant page takes the link down. An enabled port with its leave links up and shows a port state of 1 to 9, whichever the firmware's is. A sound PTP event frame goes to Helm with its receive timestamp; a malformed one is dropped and counted; frames with a bad FCS, during a Helm reset, or of no known kind are counted. A sound wall-status message is counted. A PTP frame that needs no insertion is sent and counted; one whose insertion fails is not sent and is counted. -/
def Obligations.TheTimePortLinksAndCarriesFrames : Prop :=
  (∀ (s : State) (a : RegWr), s.asksEnable pgETH a true = true →
    ∃ t, exec (.timePortEnable a) s = .next t ∧ (t.holds ridTime 0 || t.asks ridTime 0) = true ∧ t.base.enabled pgETH = true ∧
      t = { s with adm := t.adm, base := t.base }) ∧
  (∀ (s : State) (a : RegWr), s.asksEnable pgETH a false = true →
    ∃ t, exec (.timePortEnable a) s = .next t ∧ t.holds ridTime 0 = false ∧ t.base.enabled pgETH = false ∧
      t.base.flag Reg.ethStatus_LINK = false ∧ t = { s with adm := t.adm, base := t.base }) ∧
  (∀ (s : State) (a : RegWr), s.asksReset pgSXT a = true → s.base.enabled pgETH = true →
    ∃ t, exec (.sxtUnitReset a) s = .next t ∧ (t.holds ridTime 0 || t.asks ridTime 0) = true ∧ t.base.flag Reg.ethStatus_LINK = false ∧
      t.base.acc = s.base.acc ∧ t.sxt = s.sxt ∧ t = { s with adm := t.adm, base := t.base }) ∧
  (∀ (s : State), s.base.enabled pgETH = true → s.base.flag Reg.ethStatus_LINK = false → s.asks ridTime 0 = false →
    ∃ t, exec .timeLinkUp s = .next t ∧ t.base.flag Reg.ethStatus_LINK = true ∧ t.hasEvent pgETH 16 = true ∧ t.holds ridTime 0 = false ∧
      1 ≤ t.base.get Reg.ethStatus_PORT_STATE ∧ t.base.get Reg.ethStatus_PORT_STATE ≤ 9 ∧ t = { s with adm := t.adm, base := t.base }) ∧
  (∀ (s : State), s.base.flag Reg.ethStatus_LINK = true →
    ∃ t, exec .timeLinkDown s = .next t ∧ t.base.flag Reg.ethStatus_LINK = false ∧ t.hasEvent pgETH 17 = true ∧ t = { s with base := t.base }) ∧
  (∀ (s : State) (f : List Byte) (mac : Timestamp) (p : Nat) (udp : Bool), s.base.flag Reg.ethStatus_LINK = true →
    s.base.flag Reg.ethStatus_HELM = true → s.base.ptpPlace f = some (p, udp) → leAt f (p + 4) 1 = s.base.get Reg.ethPtp_DOMAIN →
    ∃ t, exec (.ptpRx f mac) s = .next t ∧
      (if ptpMalformed f p udp then s.counted t Reg.ethPtpBad_COUNT 1
       else s.counted t Reg.ethRxPtp_COUNT 1 ∧
        (if eventMsg f p then Output.toHelm (f ++ tsBytes (tsOf (tsRaw mac + 2 ^ 48 - s.base.rxLatency))) ∈ t.base.out else Output.toHelm f ∈ t.base.out)) ∧
      t = { s with sxt := t.sxt, base := t.base }) ∧
  (∀ (s : State) (f : List Byte) (ok : Bool), s.base.flag Reg.ethStatus_LINK = true →
    (ok = false → exec (.ethOther f ok) s = .next (s.onBase (·.count Reg.ethFcs_COUNT 1))) ∧
    (ok = true → s.base.flag Reg.ethStatus_HELM = false → exec (.ethOther f ok) s = .next (s.onBase (·.count Reg.ethHelmDrop_COUNT 1))) ∧
    (ok = true → s.base.flag Reg.ethStatus_HELM = true → s.base.ptpPlace f = none → s.base.wallPlace f = none →
      exec (.ethOther f ok) s = .next (s.onBase (·.count Reg.ethOther_COUNT 1)))) ∧
  (∀ (s : State) (f : List Byte) (p : Nat), s.base.flag Reg.ethStatus_LINK = true → s.base.flag Reg.ethStatus_HELM = true →
    s.base.ptpPlace f = none → s.base.wallPlace f = some p → 46 ≤ (f.drop p).length → beAt (f.drop p) 0 4 = 0x4F535753 →
    leAt (f.drop p) 4 1 = 1 → leAt (f.drop p) 40 6 = 0 →
    ∃ t, exec (.wallStatusRx f) s = .next t ∧ s.counted t Reg.ethWsRx_COUNT 1 ∧ t = { s with base := t.base }) ∧
  (∀ (s : State) (f : List Byte) (base mac : Timestamp) (p : Nat) (udp : Bool), s.base.flag Reg.ethStatus_LINK = true →
    s.base.flag Reg.ethStatus_HELM = true → s.base.ptpPlace f = some (p, udp) → s.base.nhosts ≤ 4 →
    ∃ t, exec (.ptpTx f base mac) s = .next t ∧
      (if (leAt f p 1 % 16 == 0 || leAt f p 1 % 16 == 3) && !(leAt f (p + 6) 1).testBit 1 then
        (if (insertCorrection base (tsOf (tsRaw mac + s.base.txLatency)) (beAt f (p + 8) 8)).isSome then s.counted t Reg.ethTxPtp_COUNT 1
         else s.counted t Reg.ethInsertErr_COUNT 1 ∧ t.hasEvent pgETH 19 = true)
       else s.counted t Reg.ethTxPtp_COUNT 1 ∧ Output.frame (f ++ leBytes 4 (crc32 f)) ∈ t.base.out) ∧
      t = { s with base := t.base })

/-! ## The redundant pair -/

/-- A message that is next in order on a link that is up advances the SEQ expected and is acknowledged. HEARTBEAT records the partner's J, role and conditions, the skew and whether lock holds, and gives a device without a role one; SIGNATURE of a subframe whose own signature is known, neither aborted and under lock, is compared, and one that differs counts as a mismatch; HELLO records the partner and begins JOINING. -/
def Obligations.PairMessagesInOrderAreTaken : Prop :=
  (∀ (s : State) (k : Fin 4) (m : List Byte), s.inOrder m 0x10 = true →
    ∃ t, exec (.parHeartbeat ⟨k, (.dataBlock m)⟩) s = .next t ∧ t.par.rxSeq = (s.par.rxSeq + 1) % 65536 ∧ t.par.hbJ = some (leAt m 4 4) ∧
      t.par.missing = 0 ∧ t.par.peerRole = leAt m 12 1 ∧ t.par.peerOk = leAt m 13 1 % 8 ∧
      t.base.get Reg.parSkew_NS = ofSigned 32 (s.heartbeatSkew m) ∧ t.base.flag Reg.parStatus_LOCK = s.heartbeatLocks m ∧
      t.role ≠ 0 ∧ (s.role ≠ 0 → t.role = s.role) ∧
      Output.pairBlock (withCrc ([0x01, 0] ++ leBytes 2 (((s.par.rxSeq + 1) % 65536 + 65535) % 65536))) ∈ t.base.out ∧
      t = { s with par := t.par, base := t.base }) ∧
  (∀ (s : State) (k : Fin 4) (m : List Byte) (o : Nat × Nat × Bool), s.inOrder m 0x11 = true →
    s.par.own.find? (fun e => e.1 == leAt m 4 4) = some o → o.2.2 = false → (leAt m 12 1).testBit 0 = false →
    s.base.flag Reg.parStatus_LOCK = true → s.base.nhosts ≤ 4 →
    ∃ t, exec (.parSignature ⟨k, (.dataBlock m)⟩) s = .next t ∧ t.par.rxSeq = (s.par.rxSeq + 1) % 65536 ∧ s.counted t Reg.parCompared_COUNT 1 ∧
      t.base.get Reg.parRsigJ_J = leAt m 4 4 ∧ t.base.get Reg.parRsigPeer_RSIG = leAt m 8 4 ∧
      (o.2.1 ≠ leAt m 8 4 → s.counted t Reg.parMismatch_COUNT 1) ∧ t.role = s.role ∧ t = { s with par := t.par, base := t.base }) ∧
  (∀ (s : State) (k : Fin 4) (m : List Byte), s.inOrder m 0x13 = true →
    ∃ t, exec (.parHello ⟨k, (.dataBlock m)⟩) s = .next t ∧ t.par.rxSeq = (s.par.rxSeq + 1) % 65536 ∧ t.parState = parJOINING ∧
      t.base.get Reg.parPeerSnLo_SN = leAt m 4 4 ∧ t.base.get Reg.parPeerSnHi_SN = leAt m 8 4 ∧ t.par.peerPrefer = (leAt m 12 1).testBit 0 ∧
      t = { s with par := t.par, base := t.base })

/-- The ROLE and DOWN messages, next in order: YIELD to a standby device and the answer to a SWAP_REQ of the own agree an exchange of roles at the J they name; a SWAP_REQ is answered with SWAP_ACK when the pair is SYNC and locked, and agrees the exchange; DOWN makes a standby that can show the wall active, with fault, event and count. -/
def Obligations.RoleMessagesAreTaken : Prop :=
  (∀ (s : State) (k : Fin 4) (m : List Byte), s.inOrder m 0x12 = true → leAt m 4 1 = 0 → s.role = 2 →
    ∃ t, exec (.parYield ⟨k, (.dataBlock m)⟩) s = .next t ∧ t.par.rxSeq = (s.par.rxSeq + 1) % 65536 ∧ t.par.swap = some ⟨leAt m 8 4, true⟩ ∧
      t.role = 2 ∧ t = { s with par := t.par, base := t.base }) ∧
  (∀ (s : State) (k : Fin 4) (m : List Byte), s.inOrder m 0x12 = true → leAt m 4 1 = 1 → s.parState = parSYNC →
    s.base.flag Reg.parStatus_LOCK = true → s.par.replay.length < 256 →
    ∃ t, exec (.swapReq ⟨k, (.dataBlock m)⟩) s = .next t ∧ t.par.rxSeq = (s.par.rxSeq + 1) % 65536 ∧ t.par.swap = some ⟨leAt m 8 4, true⟩ ∧
      Output.pairBlock (withCrc ([0x12, 0] ++ leBytes 2 s.par.txSeq ++ ([2, 0, 0, 0] ++ leBytes 4 (leAt m 8 4)))) ∈ t.base.out ∧
      t.role = s.role ∧ t = { s with par := t.par, base := t.base }) ∧
  (∀ (s : State) (k : Fin 4) (m : List Byte) (w : RoleSwap), s.inOrder m 0x12 = true → leAt m 4 1 = 2 → s.par.swap = some w → w.j = leAt m 8 4 →
    ∃ t, exec (.swapAck ⟨k, (.dataBlock m)⟩) s = .next t ∧ t.par.rxSeq = (s.par.rxSeq + 1) % 65536 ∧ t.par.swap = some ⟨leAt m 8 4, true⟩ ∧
      t.role = s.role ∧ t = { s with par := t.par, base := t.base }) ∧
  (∀ (s : State) (k : Fin 4) (m : List Byte), s.inOrder m 0x14 = true → s.role = 2 → s.okBits = 7 → s.base.nhosts ≤ 4 →
    ∃ t, exec (.parDown ⟨k, (.dataBlock m)⟩) s = .next t ∧ t.par.rxSeq = (s.par.rxSeq + 1) % 65536 ∧ t.role = 1 ∧ t.parState = parLOST ∧
      t.par.swap = none ∧ s.counted t Reg.parFailover_COUNT 1 ∧ t.hasEvent pgPAR 17 = true ∧ t = { s with par := t.par, base := t.base })

/-- Link-control blocks on a link that is up: ACK frees the messages up to its SEQ and, when it covers a HELLO, measures the latency; NAK sends every message from its SEQ on again, in order, and counts them; MAP makes the lanes it names, those in service, carry rows. A block in violation is answered with a NAK of the next SEQ needed and counted, and does nothing else. -/
def Obligations.LinkControlBlocksAreTaken : Prop :=
  (∀ (s : State) (k : Fin 4) (m : List Byte), s.pairCtlOk m 0x01 = true →
    ∃ t, exec (.parAck ⟨k, (.control m)⟩) s = .next t ∧ t.par.replay = s.par.replay.drop (s.par.replay.findIdx (fun r => r.seq == leAt m 2 2) + 1) ∧
      (∀ q e, s.par.hello = some (q, e) →
        (s.par.replay.take (s.par.replay.findIdx (fun r => r.seq == leAt m 2 2) + 1)).any (fun r => r.seq == q) = true →
        t.par.hello = none ∧ t.base.get Reg.parLat_NS = (s.base.E - e) / 2 % 2 ^ 32) ∧
      t = { s with par := t.par, base := t.base }) ∧
  (∀ (s : State) (k : Fin 4) (m : List Byte), s.pairCtlOk m 0x02 = true →
    ∃ t, exec (.parNak ⟨k, (.control m)⟩) s = .next t ∧ t.par.replay.map (·.block) = s.par.replay.map (·.block) ∧
      t.base.out = ((s.par.replay.drop (s.par.replay.findIdx (fun r => r.seq == leAt m 2 2))).map (fun r => Output.pairBlock r.block)).reverse ++ s.base.out ∧
      s.counted t Reg.parRetry_COUNT (s.par.replay.drop (s.par.replay.findIdx (fun r => r.seq == leAt m 2 2))).length ∧
      t = { s with par := t.par, base := t.base }) ∧
  (∀ (s : State) (k : Fin 4) (m : List Byte), s.pairCtlOk m 0x03 = true → s.parState ≠ 0 →
    ∃ t, exec (.parMap ⟨k, (.control m)⟩) s = .next t ∧
      t.base.get Reg.parStatus_TX_LANES = laneBits (fun i => (leAt m 4 1 % 16).testBit i && !s.laneOut (36 + i)) ∧
      t.scenes = s.scenes ∧ t.rings = s.rings) ∧
  (∀ (s : State) (k : Fin 4) (m : List Byte) (msg : Bool), s.par.up = true → s.pairBad msg m = true →
    ∃ t, exec (.parViol ⟨k, if msg then .dataBlock m else .control m⟩) s = .next t ∧ s.counted t Reg.parViol_COUNT 1 ∧
      t.base.out = .pairBlock (withCrc ([0x02, 0] ++ leBytes 2 s.par.rxSeq)) :: s.base.out ∧ t.par.rxSeq = s.par.rxSeq ∧
      t.par.replay = s.par.replay ∧ t = { s with par := t.par, base := t.base })

/-- Enabling the pair begins training and asks for leave; disabling it leaves the device alone with the link off. A link reset whose cause holds clears both sequences and the replay buffer and trains anew. Without ALIVE a standby takes over at the eighth subframe in a row without a heartbeat, and before that only counts. An ALIVE edge is noted while ALIVE_EN is 1. SWAP proposes an exchange of roles three subframes ahead. -/
def Obligations.ThePairIsSwitchedResetAndWatched : Prop :=
  (∀ (s : State) (a : RegWr), s.asksEnable pgPAR a true = true →
    ∃ t, exec (.pairEnable a) s = .next t ∧ t.parState = parTRAINING ∧ (t.holds ridPair 0 || t.asks ridPair 0) = true ∧
      t.base.ownState pgPAR = uBUSY ∧ t = { s with adm := t.adm, base := t.base }) ∧
  (∀ (s : State) (a : RegWr), s.asksEnable pgPAR a false = true →
    ∃ t, exec (.pairEnable a) s = .next t ∧ t.par = Pair.off ∧ t.base.word Reg.parStatus = 0 ∧ t.holds ridPair 0 = false ∧
      t.base.ownState pgPAR = uOFF ∧ t = { s with par := t.par, adm := t.adm, base := t.base }) ∧
  (∀ (s : State) (cause : Fin 3), s.par.up = true → s.base.nhosts ≤ 4 →
    (cause = 0 → 16 ≤ (s.par.viols.filter (fun t => decide (s.base.ticks < t + 625000))).length) →
    (cause = 1 → s.par.replay.any (fun r => decide (8 ≤ r.again)) = true) →
    (cause = 2 → ∃ n, s.par.noLane = some n ∧ n + 62500 ≤ s.base.ticks) →
    ∃ t, exec (.pairLinkReset cause) s = .next t ∧ t.par.up = false ∧ t.par.txSeq = 0 ∧ t.par.rxSeq = 0 ∧ t.par.replay = [] ∧ t.par.swap = none ∧
      t.parState = parTRAINING ∧ t.hasEvent pgPAR 22 = true ∧ t = { s with par := t.par, base := t.base }) ∧
  (∀ (s : State), s.parState ≠ 0 → s.role = 2 → s.sco.running = true → s.par.judged = false → s.par.hbJ ≠ some s.j →
    s.sco.startAt + ((s.base.get Reg.parHb_HB_WAIT * 1000 : Nat) : Int) ≤ (s.base.E : Int) → s.base.flag Reg.parCtrl_ALIVE_EN = false →
    s.base.nhosts ≤ 4 →
    ∃ t, exec .partnerLost s = .next t ∧ t.par.judged = true ∧ t.par.missing = s.par.missing + 1 ∧
      (s.par.missing < 7 → t = { s with par := { s.par with judged := true, missing := s.par.missing + 1 } }) ∧
      (7 ≤ s.par.missing → s.okBits = 7 → t.role = 1 ∧ t.parState = parLOST ∧ s.counted t Reg.parFailover_COUNT 1) ∧
      t = { s with par := t.par, base := t.base }) ∧
  (∀ (s : State) (level : Bool), s.base.flag Reg.parCtrl_ALIVE_EN = true →
    ∃ t, exec (.aliveIn level) s = .next t ∧ t.par = { s.par with aliveE := some s.base.E } ∧ t.base.flag Reg.parStatus_ALIVE = true ∧
      t = { s with par := t.par, base := t.base }) ∧
  (∀ (s : State) (a : RegWr), s.accepts Reg.parCmd a = true → (s.applied Reg.parCmd a).act.testBit 0 = true → s.par.up = true →
    ∃ t, exec (.parCmdSwap a) s = .next t ∧ t.par.swap = some ⟨(s.j + 3) % 2 ^ 32, false⟩ ∧
      (s.par.replay.length < 256 → t.par.replay.length = s.par.replay.length + 1 ∧ t.par.txSeq = (s.par.txSeq + 1) % 65536) ∧
      t = { s with par := t.par, base := t.base })

/-! ## Host links -/

/-- Link down, a Hot Reset and a Function Level Reset on a link that is up set CAUSE 1, 2 or 3, begin the reset, clear Bus Master Enable and end the host's queries; the first two take the link down. A unit reset of the HST page does so with CAUSE 4. LINK_RESET_DONE ends a reset in progress. A link comes up once its PHY is released at step 7, with SPEED, WIDTH and FLIT, event LINK_UP and state BUSY. A unit reset of the CMD or TXN page holds every ring and rolls back every open transaction; a write of CMD_CTRL.ENABLE changes it. -/
def Obligations.LinksComeUpAndAreReset : Prop :=
  (∀ (s : State) (h : Fin 4), (h : Nat) < s.base.nhosts → (s.base.link h).up = true →
    (∃ t, exec (.dlDown h) s = .next t ∧ t.base.get (Reg.hstReset_CAUSE h) = 1 ∧ (t.base.link h).resetAt.isSome = true ∧ (t.base.link h).bme = false ∧
      (t.base.link h).up = false ∧ ∀ q ∈ t.queries, q / 4 ≠ h) ∧
    (∃ t, exec (.hotReset h) s = .next t ∧ t.base.get (Reg.hstReset_CAUSE h) = 2 ∧ (t.base.link h).resetAt.isSome = true ∧ (t.base.link h).bme = false ∧
      (t.base.link h).up = false ∧ ∀ q ∈ t.queries, q / 4 ≠ h) ∧
    (∃ t, exec (.flr h) s = .next t ∧ t.base.get (Reg.hstReset_CAUSE h) = 3 ∧ (t.base.link h).resetAt.isSome = true ∧ (t.base.link h).bme = false ∧
      ∀ q ∈ t.queries, q / 4 ≠ h)) ∧
  (∀ (s : State) (h : Fin 4) (a : RegWr), s.asksReset (pgHST h) a = true →
    ∃ t, exec (.hstUnitReset h a) s = .next t ∧ t.base.get (Reg.hstReset_CAUSE h) = 4 ∧ (t.base.link h).resetAt.isSome = true ∧
      ∀ q ∈ t.queries, q / 4 ≠ h) ∧
  (∀ (s : State) (h : Fin 4), (s.base.link h).resetAt.isSome = true →
    ∃ t, exec (.linkResetDone h) s = .next t ∧ t.base.link h = { s.base.link h with resetAt := none } ∧ t.inReset (pgHST h) = false ∧
      t = { s with base := t.base }) ∧
  (∀ (s : State) (h : Fin 4) (speed : Fin 8) (width : Fin 17) (flit : Bool), (s.base.link h).up = false → (h : Nat) < s.base.nhosts →
    7 ≤ s.base.get Reg.rstStep_STEP → s.base.ownState (pgHST h) ≠ uNOCLOCK →
    ∃ t, exec (.linkUp h speed width flit) s = .next t ∧ (t.base.link h).up = true ∧ (t.base.link h).everUp = true ∧
      t.base.flag (Reg.hstLink_DL_UP h) = true ∧ t.base.get (Reg.hstLink_SPEED h) = speed ∧ t.base.get (Reg.hstLink_WIDTH h) = width ∧
      t.base.flag (Reg.hstLink_FLIT h) = flit ∧ t.hasEvent (pgHST h) 16 = true ∧ t.base.ownState (pgHST h) = uBUSY ∧
      t = { s with base := t.base }) ∧
  (∀ (s : State) (h : Fin 4) (txnPage : Bool) (a : RegWr), s.asksReset (if txnPage then pgTXN h else pgCMD h) a = true →
    ∃ t, exec (.cmdUnitReset h txnPage a) s = .next t ∧ (∀ r, r < 16 → (t.ring h r).held = true) ∧ (∀ k, k < 256 → t.txn h k = none)) ∧
  (∀ (s : State) (h : Fin 4) (a : RegWr) (on : Bool), s.asksEnable (pgCMD h) a on = true →
    ∃ t, exec (.cmdEnable h a) s = .next t ∧ t.base.enabled (pgCMD h) = on ∧ t = { s with base := t.base })

/-- A BAR2 read through a window that shows nothing is a miss: counted, and answered with all ones; one that lies in the object and meets no spilled granule returns the object's bytes, poisoned when a word is uncorrectable. A BAR2 write into an upload of an open transaction stores the bytes, or, when it arrives poisoned, poisons the words and enters the violation log as LINK; any other write is counted as a miss and ignored. A bad request is answered as Table 16.5 says and enters the violation log as LINK. A timed-out request ends as the same request does with a failed reply; READBACK and log writes count it and log it. -/
def Obligations.Bar2AndLinkErrorsAreAnswered : Prop :=
  (∀ (s : State) (h : Fin 4) (off : BitVec 28) (len : Nat) (ecc : Ecc), s.windowObject h (off.toNat / 2 ^ 25 % 8) = none →
    ∃ t, exec (.bar2Read h off len ecc) s = .next t ∧ s.counted t Reg.domBar2Miss_COUNT 1 ∧
      t.base.out = .bar2Data h (List.replicate len 0xFF) false :: s.base.out ∧ t = { s with base := t.base }) ∧
  (∀ (s : State) (h : Fin 4) (off : BitVec 28) (len : Nat) (ecc : Ecc) (gs : List Nat) (size : Nat) (wr : Bool),
    s.windowObject h (off.toNat / 2 ^ 25 % 8) = some (gs, size, wr) → s.windowOff h off.toNat + len ≤ size →
    (granRange gs (s.windowOff h off.toNat) len).filter isSpillId = [] →
    ∃ t, exec (.bar2Read h off len ecc) s = .next t ∧
      t.base.out.head? = some (.bar2Data h (s.dome.objBytes gs (s.windowOff h off.toNat) len)
        (s.dome.rangeBad ecc (objRanges gs (s.windowOff h off.toNat) len))) ∧ t.dome.mem = s.dome.mem ∧ t.scenes = s.scenes) ∧
  (∀ (s : State) (h : Fin 4) (off : BitVec 28) (data : List Byte) (gs : List Nat) (size : Nat),
    s.windowObject h (off.toNat / 2 ^ 25 % 8) = some (gs, size, true) → s.windowOff h off.toNat + data.length ≤ size →
    (granRange gs (s.windowOff h off.toNat) data.length).filter isSpillId = [] →
    exec (.bar2Write h off data false) s = .next { s with dome :=
      (s.dome.objWrite gs (s.windowOff h off.toNat) data).touch (granRange gs (s.windowOff h off.toNat) data.length) } ∧
    ∃ t, exec (.bar2Write h off data true) s = .next t ∧ t.dome.mem = s.dome.mem ∧
      (∀ w ∈ wordsOf (objRanges gs (s.windowOff h off.toNat) data.length), t.dome.poisoned w = true) ∧
      ((h : Nat) < s.base.nhosts → ∃ x, t.lastViolation h = some x ∧ x.code = vLINK)) ∧
  (∀ (s : State) (h : Fin 4) (off : BitVec 28) (data : List Byte) (poisoned : Bool),
    (s.windowObject h (off.toNat / 2 ^ 25 % 8)).all (fun o => !o.2.2 || decide (o.2.1 < s.windowOff h off.toNat + data.length)) = true →
    ∃ t, exec (.bar2Write h off data poisoned) s = .next t ∧ s.counted t Reg.domBar2Miss_COUNT 1 ∧ t = { s with base := t.base }) ∧
  (∀ (s : State) (h : Fin 4) (e : LinkError) (aer : Byte) (header : List Byte), (h : Nat) < s.base.nhosts →
    ∃ t x, exec (.tlpError h e aer header) s = .next t ∧ t.lastViolation h = some x ∧ x.code = vLINK ∧ x.page = pgHST h ∧
      x.time = s.base.now ∧ x.detail = detail16 ([aer, 0, 0, 0] ++ header.take 12) ∧
      (∀ c, errorAnswer e = some c → .linkError h c ∈ t.base.out) ∧ t = { s with base := t.base }) ∧
  (∀ (s : State) (h : Fin 4), (s.base.link h).up = true →
    (∀ (r : Fin 16), exec (.completionTimeout h (.fetch r)) s = exec (.descriptorFetch h r (.fail 3)) s) ∧
    (∀ (r : Fin 16) (n : BitVec 32), exec (.completionTimeout h (.upload r n)) s = exec (.uploadDone h r n (.fail 3)) s) ∧
    (∀ g, g / 2 ^ 21 = (h : Nat) + 1 → exec (.completionTimeout h (.spill g)) s = exec (.pageIn g (.fail 3)) s)) ∧
  (∀ (s : State) (h : Fin 4) (who : Requester), (s.base.link h).up = true → (h : Nat) < s.base.nhosts → who = .readback ∨ who = .log →
    ∃ t x, exec (.completionTimeout h who) s = .next t ∧ s.counted t (Reg.hstDmaErr_COUNT h) 1 ∧
      t.lastViolation h = some x ∧ x.code = vLINK ∧ t.hasEvent (pgHST h) 1 = true ∧ t = { s with base := t.base })

/-- Clearing Bus Master Enable or entering D3hot stops requests and changes nothing else; once both allow requests, no pending message of an unmasked vector is left. Unmasking a vector sends its pending message. A waiting entry of an enabled log with room goes to the ring slot of WR with the next sequence number, and WR advances; enabling a log restarts its numbering at 0. DOM_WIN_OBJ takes an object that Table 10.3 lets the host name, and keeps its value otherwise. -/
def Obligations.MasteringInterruptsAndLogsWork : Prop :=
  (∀ (s : State) (h : Fin 4), (s.base.link h).up = true →
    exec (.busMasterEnable h false) s = .next (s.onBase (fun b => b.setLink h { b.link h with bme := false })) ∧
    exec (.d3hot h true) s = .next (s.onBase (fun b => b.setLink h { b.link h with d3hot := true }))) ∧
  (∀ (s : State) (h : Fin 4), (s.base.link h).up = true →
    (∃ t, exec (.busMasterEnable h true) s = .next t ∧ (t.base.link h).bme = true ∧
      ((s.base.link h).d3hot = false → ∀ v ∈ (t.base.link h).pba, v ∉ (t.base.link h).unmasked) ∧ t = { s with rings := t.rings, base := t.base }) ∧
    (∃ t, exec (.d3hot h false) s = .next t ∧ (t.base.link h).d3hot = false ∧
      ((s.base.link h).bme = true → ∀ v ∈ (t.base.link h).pba, v ∉ (t.base.link h).unmasked) ∧ t = { s with rings := t.rings, base := t.base })) ∧
  (∀ (s : State) (h : Fin 4) (vec : BitVec 8), (s.base.link h).up = true →
    ∃ t, exec (.msixUnmask h vec) s = .next t ∧ vec.toNat ∈ (t.base.link h).unmasked ∧
      (s.base.canSend h = true → vec.toNat ∉ (t.base.link h).pba ∧ (vec.toNat ∈ (s.base.link h).pba → .msix h vec.toNat ∈ t.base.out)) ∧
      t = { s with base := t.base }) ∧
  (∀ (s : State) (h : Fin 4) (viol : Bool) (e : LogEntry) (r : List LogEntry) (i : Nat), i = 2 * (h : Nat) + (if viol then 1 else 0) →
    (s.base.logq i).waiting = e :: r → s.base.logEn i = true → s.base.canSend h = true →
    sub32 (s.base.get (logWr i)) (s.base.get (logRd i)) < 2 ^ s.base.get (logLog2 i) →
    ∃ t, exec (.logWrite h viol) s = .next t ∧ t.base.get (logWr i) = (s.base.get (logWr i) + 1) % 2 ^ 32 ∧
      t.base.logq i = ⟨r, ((s.base.logq i).seq + 1) % 2 ^ 32⟩ ∧
      .hostWrite h (s.base.logBase i + s.base.get (logWr i) % 2 ^ s.base.get (logLog2 i) * 32) (e.bytes (((s.base.logq i).seq + 1) % 2 ^ 32)) ∈ t.base.out ∧
      t = { s with base := t.base }) ∧
  (∀ (s : State) (h : Fin 4) (viol : Bool) (a : RegWr) (i key : Nat), i = 2 * (h : Nat) + (if viol then 1 else 0) →
    key = (if viol then Reg.hstVlogCtrl h else Reg.hstFlogCtrl h) → s.accepts key a = true → (s.base.word key).toNat.testBit 31 = false →
    (s.applied key a).word.testBit 31 = true →
    exec (.logEnable h viol a) s = .next ((s.stored key a).onBase (fun b => b.setLogq i { s.base.logq i with seq := 0 }))) ∧
  (∀ (s : State) (h : Fin 4) (w : Fin 8) (a : RegWr), s.accepts (Reg.domWinObj h w) a = true →
    (s.mayName h (mergeBytes (s.base.word (Reg.domWinObj h w)).toNat a.val.toNat a.be) = true →
      exec (.domWinObj h w a) s = .next (s.stored (Reg.domWinObj h w) a)) ∧
    (s.mayName h (mergeBytes (s.base.word (Reg.domWinObj h w)).toNat a.val.toNat a.be) = false →
      ∃ t, exec (.domWinObj h w a) s = .next t ∧ t.base.word (Reg.domWinObj h w) = s.base.word (Reg.domWinObj h w) ∧ t = { s with base := t.base }))

/-! ## Power, resets, clocks, temperature and calibration -/

/-- Two samples at or below the warning level put a rail in warning: WARN and the rail's bit set, PWR_WARN_LAST recorded, the warning counted, events raised. Two samples above it end the warning; the last rail's end starts the 1 ms of HOLDOFF, which HOLDOFF_END ends. A sample at over-voltage sets OV and makes the page FAULT; the last rail's end clears OV. A VHOLD at or below its threshold (R10) sets VHOLD_LOW and raises its event and fault once. MIN_RESET loads each minimum with the latest sample. -/
def Obligations.RailsWarnRecoverAndFault : Prop :=
  (∀ (s : State) (r : Fin 8) (m1 m2 : BitVec 16), m1.toNat ≤ railWarnLevel r → m2.toNat ≤ railWarnLevel r → s.inWarning r = false →
    ∃ t, exec (.railWarn r m1 m2) s = .next t ∧ t.inWarning r = true ∧ t.base.flag Reg.pwrStatus_WARN = true ∧
      t.base.flag Reg.pwrStatus_HOLDOFF = false ∧ t.pwr.holdoff = none ∧ t.base.get Reg.pwrWarnLast_RAIL = r ∧
      t.base.get Reg.pwrWarnLast_MIN = min m1.toNat m2.toNat ∧ s.counted t Reg.pwrWarns_COUNT 1 ∧ t.hasEvent pgPWR 16 = true ∧
      (s.blocked = false → t.hasEvent pgADM 16 = true) ∧ t = { s with pwr := t.pwr, base := t.base }) ∧
  (∀ (s : State) (r : Fin 8) (m1 m2 : BitVec 16), railWarnLevel r < m1.toNat → railWarnLevel r < m2.toNat → s.inWarning r = true →
    ∃ t, exec (.railRecover r m1 m2) s = .next t ∧ t.inWarning r = false ∧ t.hasEvent pgPWR 17 = true ∧
      (s.base.get Reg.pwrStatus_RAILS = 2 ^ (r : Nat) → t.base.flag Reg.pwrStatus_WARN = false ∧ t.base.flag Reg.pwrStatus_HOLDOFF = true ∧
        t.pwr.holdoff = some (s.base.ticks + 625000)) ∧
      (s.base.get Reg.pwrStatus_RAILS ≠ 2 ^ (r : Nat) → t.base.flag Reg.pwrStatus_WARN = s.base.flag Reg.pwrStatus_WARN) ∧
      t = { s with pwr := t.pwr, base := t.base }) ∧
  (∀ (s : State) (n : Nat), s.pwr.holdoff = some n → n ≤ s.base.ticks →
    ∃ t, exec .holdoffEnd s = .next t ∧ t.base.flag Reg.pwrStatus_HOLDOFF = false ∧ t.pwr = { s.pwr with holdoff := none } ∧
      t = { s with pwr := t.pwr, base := t.base }) ∧
  (∀ (s : State) (r : Fin 8) (mv : BitVec 16), railOvLevel r ≤ mv.toNat → s.base.ownState pgPWR ≠ uNOCLOCK →
    ∃ t, exec (.overvolt r mv) s = .next t ∧ t.base.flag Reg.pwrStatus_OV = true ∧ t.base.ownState pgPWR = uFAULT ∧
      (r : Nat) ∈ t.pwr.ovs ∧ (s.pwr.ovs.contains r = false → t.hasEvent pgPWR 18 = true) ∧
      (s.pwr.ovAt = none → t.pwr.ovAt = some s.base.ticks ∧ t.hasEvent pgPWR 1 = true) ∧ t = { s with pwr := t.pwr, base := t.base }) ∧
  (∀ (s : State) (r : Fin 8) (mv : BitVec 16), mv.toNat < railOvLevel r → s.pwr.ovs.contains r = true → s.base.ownState pgPWR ≠ uNOCLOCK →
    ∃ t, exec (.overvoltClear r mv) s = .next t ∧ t.pwr = { s.pwr with ovs := setErase s.pwr.ovs r } ∧
      (setErase s.pwr.ovs r = [] → t.base.flag Reg.pwrStatus_OV = false ∧ t.base.ownState pgPWR = uBUSY) ∧
      t = { s with pwr := t.pwr, base := t.base }) ∧
  (∀ (s : State) (mv : BitVec 16), s.pwr.held = false → s.pwr.dark = none →
    ∃ t, exec (.vholdLow mv) s = .next t ∧ t.base.flag Reg.pwrStatus_VHOLD_LOW = decide (mv.toNat ≤ 11000) ∧
      (mv.toNat ≤ 11000 → s.base.flag Reg.pwrStatus_VHOLD_LOW = false → t.hasEvent pgPWR 19 = true ∧ t.hasEvent pgPWR 1 = true) ∧
      t = { s with base := t.base }) ∧
  (∀ (s : State) (a : RegWr), s.accepts Reg.pwrCtrl a = true → (s.applied Reg.pwrCtrl a).act.testBit 0 = true →
    ∃ t, exec (.minReset a) s = .next t ∧ (∀ r, r < 10 → t.base.get (Reg.pwrRail_MIN r) = s.base.get (Reg.pwrRail_NOW r)) ∧
      t = { s with base := t.base })

/-- While the device runs, a rail at its reset level for 4 samples, VIN at or below 10.8 V for 2 samples, PWRFAIL_N, RESET_N or POR_N low and a lost REFCLK each start the dark sequence with their cause: RESET_OUT_N goes low and the timeline stops. The pins going high start nothing. While cold reset is held a lost REFCLK is only recorded. At 250 µs the device is held in cold reset with step 0 and empty rings, scenes and queries, and counts a cold reset or latches the thermal shutdown's zone. Losing VAON clears the latch and keeps the provisioning record. -/
def Obligations.TheDarkSequenceStartsAndEnds : Prop :=
  (∀ (s : State), s.pwr.dark = none → s.pwr.held = false →
    (∀ (r : Fin 8) (m1 m2 m3 m4 : BitVec 16), (∀ m ∈ [m1, m2, m3, m4], m.toNat ≤ railResetAt r) →
      ∃ t, exec (.railResetLevel r m1 m2 m3 m4) s = .next t ∧ t.pwr.dark = some ⟨s.base.ticks, some 3, 0⟩ ∧ t.pwr.resetOut = false ∧ t.sco.running = false) ∧
    (∀ (m1 m2 : BitVec 16), m1.toNat ≤ 10800 → m2.toNat ≤ 10800 →
      ∃ t, exec (.vinTrigger m1 m2) s = .next t ∧ t.pwr.dark = some ⟨s.base.ticks, some 5, 0⟩ ∧ t.pwr.resetOut = false ∧ t.sco.running = false) ∧
    (∃ t, exec (.pwrfailN false) s = .next t ∧ t.pwr.dark = some ⟨s.base.ticks, some 4, 0⟩ ∧ t.pwr.resetOut = false ∧ t.sco.running = false ∧ t.pwr.pwrfail = false) ∧
    (∃ t, exec (.resetN false) s = .next t ∧ t.pwr.dark = some ⟨s.base.ticks, some 2, 0⟩ ∧ t.pwr.resetOut = false ∧ t.sco.running = false ∧ t.pwr.resetN = false) ∧
    (∃ t, exec (.porN false) s = .next t ∧ t.pwr.dark = some ⟨s.base.ticks, some 1, 0⟩ ∧ t.pwr.resetOut = false ∧ t.sco.running = false ∧ t.pwr.por = false) ∧
    (s.base.flag Reg.clkStatus_REF_OK = true →
      ∃ t, exec .refLost s = .next t ∧ t.pwr.dark = some ⟨s.base.ticks, some 6, 0⟩ ∧ t.pwr.resetOut = false ∧ t.sco.running = false)) ∧
  (∀ (s : State),
    exec (.pwrfailN true) s = .next { s with pwr := { s.pwr with pwrfail := true, goodAt := s.base.ticks } } ∧
    exec (.resetN true) s = .next { s with pwr := { s.pwr with resetN := true, goodAt := s.base.ticks } } ∧
    exec (.porN true) s = .next { s with pwr := { s.pwr with por := true, goodAt := s.base.ticks } }) ∧
  (∀ (s : State), s.base.flag Reg.clkStatus_REF_OK = true → s.pwr.held = true →
    ∃ t, exec .refLost s = .next t ∧ t.base.flag Reg.clkStatus_REF_OK = false ∧ t.base.flag Reg.clkStatus_OSC = true ∧
      s.counted t Reg.clkLoss_COUNT 1 ∧ t.hasEvent pgCLK 16 = true ∧ t.pwr = { s.pwr with goodAt := s.base.ticks } ∧
      t = { s with pwr := t.pwr, base := t.base }) ∧
  (∀ (s : State) (d : Dark), s.pwr.dark = some d → d.at_ + 156250 ≤ s.base.ticks →
    ∃ t, exec .darkSequenceEnd s = .next t ∧ t.pwr.held = true ∧ t.pwr.dark = none ∧ t.base.get Reg.rstStep_STEP = 0 ∧
      t.rings = State.reset.rings ∧ t.scenes = State.reset.scenes ∧ t.dome = State.reset.dome ∧ t.queries = [] ∧ t.pending = s.pending ∧
      (d.cause.isSome = true → s.counted t Reg.rstCount_COLD 1) ∧
      (d.cause = none → t.base.flag Reg.thmLatch_LATCH = true ∧ t.base.get Reg.thmLatch_ZONE = d.zone % 32)) ∧
  (∀ (s : State), ∃ t, exec .vaonRemoved s = .next t ∧ t.base.flag Reg.thmLatch_LATCH = false ∧ t.pwr.held = State.reset.pwr.held ∧
    t.rings = State.reset.rings ∧ t.scenes = State.reset.scenes ∧ t.dome = State.reset.dome ∧ t.hlm.record = s.hlm.record ∧
    t.hlm.images = s.hlm.images ∧ t.pending = s.pending)

/-- After 10 ms of good conditions the cold release begins: REFCLK in use, the address strap sampled, 1, 2 or 4 hosts and an owner among them, a pending provisioning change in force. A release step whose gap has passed and whose clocks are there or given up becomes STEP. A clock missing at its timeout is given up; its unit becomes NO_CLOCK and STEP_HALT of step 2 halts the release. RESET_OUT_N goes high at its time. A clock-good that falls clears its bit, is counted and makes the CLK page and the unit FAULT; one that is not good falls without effect. A frequency count starts invalid and ends valid. -/
def Obligations.TheReleaseStepsAndClocksAreFollowed : Prop :=
  (∀ (s : State) (bifurStrap sbAddr : BitVec 2), s.pwr.held = true → s.pwr.dark = none → s.base.flag Reg.thmLatch_LATCH = false → s.pwr.por = true →
    s.pwr.resetN = true → s.pwr.pwrfail = true → s.pwr.goodAt + 6250000 ≤ s.base.ticks →
    ∃ t, exec (.coldRelease bifurStrap sbAddr) s = .next t ∧ t.pwr.held = false ∧ t.pwr.sbAddr = sbAddr.toNat ∧ t.base.flag Reg.clkStatus_REF_OK = true ∧
      t.base.nhosts ∈ [1, 2, 4] ∧ t.base.owner < t.base.nhosts ∧ t.hlm.change = none ∧
      (s.hlm.record = none → s.hlm.change = none → t.base.owner = 0 ∧
        t.base.nhosts = (if bifurStrap = 1 then 2 else if bifurStrap = 2 then 4 else 1))) ∧
  (∀ (s : State) (good : BitVec 214) (k : Nat), k = s.base.get Reg.rstStep_STEP + 1 → k ≤ 8 → s.pwr.held = false → s.pwr.dark = none →
    s.base.flag Reg.rstStep_HALTED = false → s.pwr.stepAt + 4 * stepGap k ≤ s.base.ticks →
    (∀ u ∈ s.stepUnits k, ∀ d ∈ u.2, good.toNat.testBit d = true ∨ s.pwr.noclk.contains d = true) →
    ∃ t, exec (.releaseStep good) s = .next t ∧ t.pwr.stepAt = s.base.ticks ∧ t.base.get Reg.rstStep_STEP = k) ∧
  (∀ (s : State) (page : BitVec 10) (dom : BitVec 8) (k : Nat), k = s.base.get Reg.rstStep_STEP + 1 → 2 ≤ k → k ≤ 8 → s.pwr.held = false →
    s.pwr.dark = none → s.base.flag Reg.rstStep_HALTED = false → s.pwr.stepAt + 4 * (stepGap k + stepTimeout k) ≤ s.base.ticks →
    s.pwr.noclk.contains dom.toNat = false → ((s.stepUnits k).any (fun u => u.1 == page.toNat && u.2.contains dom.toNat)) = true →
    ∃ t, exec (.noClock page dom) s = .next t ∧ dom.toNat ∈ t.pwr.noclk ∧
      (page.toNat ≠ pgHLM → t.base.ownState page.toNat = uNOCLOCK) ∧
      (s.base.ownState page.toNat ≠ uNOCLOCK → t.hasEvent pgRST 17 = true) ∧ (k = 2 → t.base.flag Reg.rstStep_HALTED = true)) ∧
  (∀ (s : State) (n : Nat), s.pwr.outAt = some n → n ≤ s.base.ticks → s.pwr.held = false → s.pwr.dark = none →
    ∃ t, exec .resetOutRelease s = .next t ∧ t.pwr = { s.pwr with outAt := none, resetOut := true } ∧
      (s.pwr.resetOut = false → t.base.out = .pin "RESET_OUT_N" true :: s.base.out) ∧ t = { s with pwr := t.pwr, base := t.base }) ∧
  (∀ (s : State) (dom : BitVec 8),
    (s.base.flag (clkGoodBit dom.toNat) = false → exec (.cgLost dom) s = .next s) ∧
    (∀ p, s.base.flag (clkGoodBit dom.toNat) = true → s.domainPage dom.toNat = some p →
      p ∈ [pgSCO, pgCMP, pgFRS, pgKEP, pgCDC, pgSPR, pgPRT 0, pgPRT 1, pgPAR, pgETH, pgBCN, pgBLF, pgCAL, pgWCH] →
      s.base.ownState p ≠ uOFF → s.base.ownState p ≠ uNOCLOCK → s.base.ownState pgCLK ≠ uNOCLOCK →
      ∃ t, exec (.cgLost dom) s = .next t ∧ t.base.flag (clkGoodBit dom.toNat) = false ∧ s.counted t Reg.clkLoss_COUNT 1 ∧
        t.hasEvent pgCLK 17 = true ∧ t.base.ownState pgCLK = uFAULT ∧ t.base.ownState p = uFAULT ∧ t = { s with base := t.base })) ∧
  (∀ (s : State) (a : RegWr), s.accepts Reg.clkMeasSel a = true →
    ∃ t, exec (.clkMeasSel a) s = .next t ∧ t.pwr = { s.pwr with meas := some s.base.ticks } ∧ t.base.flag Reg.clkMeas_VALID = false ∧
      (t.base.word Reg.clkMeasSel).toNat = (s.applied Reg.clkMeasSel a).word ∧ t = { s with pwr := t.pwr, base := t.base }) ∧
  (∀ (s : State) (khz : BitVec 24) (n : Nat), s.pwr.meas = some n → n + 625000 ≤ s.base.ticks →
    ∃ t, exec (.clkMeasDone khz) s = .next t ∧ t.base.get Reg.clkMeas_KHZ = khz.toNat ∧ t.base.flag Reg.clkMeas_VALID = true ∧
      t.pwr = { s.pwr with meas := none } ∧ t = { s with pwr := t.pwr, base := t.base })

/-- With the cold release over and no reset in progress, a falling edge of WARM_N after at least 1 µs high, RST_CTRL.WARM from the owner host and an expired watchdog each begin a warm reset: it is entered in the 10 s history and every codec engine drops its job. WARM_N rising or falling sooner begins none; WARM from another host begins none. The watchdog's third warm reset within 10 s is the dark sequence instead. Helm's key restarts the watchdog; a host's write does not. At WARM_DONE the reset ends, the next boot follows a warm reset, and WARM_DONE is raised. -/
def Obligations.WarmResetsAndTheWatchdog : Prop :=
  (∀ (s : State), s.pwr.held = false → s.pwr.dark = none → s.pwr.warm = none → 8 ≤ s.base.get Reg.rstStep_STEP →
    (s.pwr.warmN = true → s.pwr.warmUp + 625 ≤ s.base.ticks → ∃ t, exec (.warmN false) s = .next t ∧ t.pwr.warm = some s.base.ticks ∧ t.pwr.warms = s.base.ticks :: s.warms10 ∧
      t.pwr.warmN = false ∧ t.codec.engines = []) ∧
    (∀ (a : RegWr), s.accepts Reg.rstCtrl a = true → (s.applied Reg.rstCtrl a).act.testBit 0 = true → a.host.toNat = s.base.owner →
      ∃ t, exec (.rstWarm a) s = .next t ∧ t.pwr.warm = some s.base.ticks ∧ t.pwr.warms = s.base.ticks :: s.warms10 ∧ t.codec.engines = []) ∧
    (s.base.flag Reg.rstWdog_EN = true → s.helmRuns = true → s.pwr.wdogAt + s.base.get Reg.rstWdog_TIMEOUT * msTicks ≤ s.base.ticks →
      (s.warms10.length < 2 → ∃ t, exec .wdogExpiry s = .next t ∧ t.pwr.warm = some s.base.ticks ∧ t.pwr.warms = s.base.ticks :: s.warms10 ∧
        t.codec.engines = []) ∧
      (2 ≤ s.warms10.length → ∃ t, exec .wdogExpiry s = .next t ∧ t.pwr.dark = some ⟨s.base.ticks, some 7, 0⟩ ∧ t.pwr.resetOut = false ∧ t.sco.running = false))) ∧
  (∀ (s : State), exec (.warmN true) s = .next { s with pwr := { s.pwr with warmN := true, warmUp := if s.pwr.warmN then s.pwr.warmUp else s.base.ticks } }) ∧
  (∀ (s : State), s.base.ticks < s.pwr.warmUp + 625 → exec (.warmN false) s = .next { s with pwr := { s.pwr with warmN := false } }) ∧
  (∀ (s : State) (a : RegWr), s.accepts Reg.rstCtrl a = true → (s.applied Reg.rstCtrl a).act.testBit 0 = true → a.host.toNat ≠ s.base.owner →
    ∃ t, exec (.rstWarm a) s = .next t ∧ t = { s with base := t.base }) ∧
  (∀ (s : State) (v : BitVec 32), v.toNat % 65536 = 0x6B6B → s.helmRuns = true →
    exec (.rstWdogKick none v) s = .next { s with pwr := { s.pwr with wdogAt := s.base.ticks } }) ∧
  (∀ (s : State) (h : Fin 4) (v : BitVec 32), s.base.visible h pgRST = true →
    ∃ t x, exec (.rstWdogKick (some h) v) s = .next t ∧ t.lastViolation h = some x ∧ x.code = vNOTPERM ∧
      t = { s with base := t.base }) ∧
  (∀ (s : State) (n : Nat), s.pwr.warm = some n → n + 1024 ≤ s.base.ticks →
    ∃ t, exec .warmDone s = .next t ∧ t.pwr.warm = none ∧ t.pwr.wdogAt = s.base.ticks ∧ t.hlm = { s.hlm with warm := true } ∧
      t.hasEvent pgRST 16 = true ∧ (s.base.ownState pgHLM ≠ uNOCLOCK → t.base.get Reg.hlmStatus_STATE = 1 ∧ t.base.ownState pgHLM = uREADY) ∧
      t = { s with pwr := t.pwr, spr := { s.spr with sweep := if s.spr.sweep = 4 then 1 else s.spr.sweep }, hlm := t.hlm, base := t.base })

/-- The oldest request that fits the effective budget is granted and counted, a calibration run's grant starts its measurement, and one that does not fit waits. ADM_BUDGET and the throttle thresholds are plain registers; the latter restart the counts. A sample or a re-test in range becomes a sensor's reading; a die zone or stack at its shutdown temperature for the third sample in a row starts the dark sequence. CAL_START begins a run and asks for leave, or completes with NO-OP when it selects nothing; a measured run takes its trims unless it is a dry run or the reference is off; a unit reset abandons it. -/
def Obligations.LeaveHeatAndCalibrationAreManaged : Prop :=
  (∀ (s : State) (l : Leave) (q : List Leave), s.adm.queue = l :: q →
    (s.blocked = false → s.adm.inUse + l.units ≤ s.effective → l.rid ∉ [28, 29, 30, 31, 33, 34, 35] →
      ∃ t, exec .leaveGrant s = .next t ∧ t.adm = ⟨q, l :: s.adm.grants⟩ ∧ s.counted t Reg.admGrants_COUNT 1 ∧ t = { s with adm := t.adm, base := t.base }) ∧
    (∀ r, s.blocked = false → s.adm.inUse + l.units ≤ s.effective → l.rid = ridCal → s.cal.run = some r →
      ∃ t, exec .leaveGrant s = .next t ∧ t.adm = ⟨q, l :: s.adm.grants⟩ ∧ t.cal.run = some { r with granted := some s.base.ticks } ∧
        t.base.flag Reg.calStatus_WAIT_LEAVE = false ∧ t = { s with adm := t.adm, cal := t.cal, base := t.base }) ∧
    (s.blocked = true ∨ s.effective < s.adm.inUse + l.units → exec .leaveGrant s = .next s)) ∧
  (∀ (s : State) (a : RegWr), s.accepts Reg.admBudget a = true → exec (.admBudget a) s = .next (s.stored Reg.admBudget a)) ∧
  (∀ (s : State) (stack : Bool) (a : RegWr), s.accepts (if stack then Reg.thmThrStk else Reg.thmThrDie) a = true →
    exec (.thmThrWrite stack a) s = .next { s.stored (if stack then Reg.thmThrStk else Reg.thmThrDie) a with thm := { s.thm with rise := [], fall := [], dis := [], shut := [] } }) ∧
  (∀ (s : State) (samples : List Sample), samples.length = 64 → s.pwr.held = false → s.pwr.dark = none →
    (∀ n, n < 64 → s.sensorFailed n = false ∧ ∃ v : BitVec 16, samples[n]? = some (.reading v) ∧ -640 ≤ toSigned 16 v.toNat ∧ toSigned 16 v.toNat < 1680) →
    ∃ t, exec (.thermalSample samples) s = .next t ∧ (∀ n v, n < 64 → samples[n]? = some (.reading v) → t.base.get (Reg.thmSensor_READING n) = v.toNat) ∧
      t = { s with thm := t.thm, base := t.base }) ∧
  (∀ (s : State) (samples : List Sample) (z : Nat) (v : BitVec 16), samples.length = 64 → s.pwr.held = false → s.pwr.dark = none → z < 32 →
    s.sensorFailed (2 * z) = false → samples[2 * z]? = some (.reading v) → shutdownAt z ≤ toSigned 16 v.toNat → toSigned 16 v.toNat ≤ 2400 →
    2 ≤ sget (fun _ => 0) s.thm.shut z →
    ∃ t, exec (.thermalSample samples) s = .next t ∧ t.pwr.dark.isSome = true ∧ t.pwr.resetOut = false ∧ t.sco.running = false) ∧
  (∀ (s : State) (a : RegWr) (retest : List Sample), s.asksReset pgTHM a = true → retest.length = 64 →
    ∃ t, exec (.thmUnitReset a retest) s = .next t ∧
      (∀ n v, n < 64 → (retest[n]?).map sampleOf = some (.ok v) → t.sensorFailed n = false ∧ t.base.get (Reg.thmSensor_READING n) = v) ∧
      t = { s with base := t.base }) ∧
  (∀ (s : State) (a : RegWr), s.accepts Reg.calCtrl a = true → (s.applied Reg.calCtrl a).act.testBit 31 = true → a.host.toNat = s.base.owner → s.cal.run = none →
    ((s.stored Reg.calCtrl a).base.get Reg.calCtrl_TARGETS ≠ 0 →
      ∃ t, exec (.calStart a) s = .next t ∧
        t.cal.run = some ⟨(s.stored Reg.calCtrl a).base.get Reg.calCtrl_TARGETS, (s.stored Reg.calCtrl a).base.flag Reg.calCtrl_DRY_RUN, none⟩ ∧
        (t.asks ridCal 0 || t.holds ridCal 0) = true ∧ t.base.flag Reg.calStatus_BUSY = true ∧ t = { s with cal := t.cal, adm := t.adm, base := t.base }) ∧
    ((s.stored Reg.calCtrl a).base.get Reg.calCtrl_TARGETS = 0 →
      ∃ t, exec (.calStart a) s = .next t ∧ t.cal.run = none ∧ t.base.get Reg.calStatus_RESULT = stNOOP ∧ t.hasEvent pgCAL 16 = true ∧
        t = { s with cal := t.cal, adm := t.adm, base := t.base })) ∧
  (∀ (s : State) (m : CalResult) (r : CalRun) (n : Nat), s.cal.run = some r → r.granted = some n → n + calTicks r.targets s.sco.rate ≤ s.base.ticks →
    (2000 < (toSigned 16 m.devPpm.toNat).natAbs →
      ∃ t, exec (.calDone m) s = .next t ∧ t.cal = { s.cal with run := none } ∧ t.base.get Reg.calStatus_RESULT = stDEVICE ∧ t.hasEvent pgCAL 1 = true ∧
        t = { s with cal := t.cal, adm := t.adm, base := t.base }) ∧
    ((toSigned 16 m.devPpm.toNat).natAbs ≤ 2000 → (∀ x ∈ m.trims, -128 ≤ x.2.2 ∧ x.2.2 ≤ 127) →
      ∃ t, exec (.calDone m) s = .next t ∧ t.cal.run = none ∧ t.cal.live = (if r.dry then s.cal.live else calNew s.cal r.targets m.trims) ∧
        t.base.get Reg.calStatus_RESULT = stOK ∧ t.base.get Reg.calRef_DEV_PPM = m.devPpm.toNat ∧
        t = { s with cal := t.cal, adm := t.adm, base := t.base })) ∧
  (∀ (s : State) (a : RegWr), s.asksReset pgCAL a = true → s.cal.run.isSome = true →
    ∃ t, exec (.calUnitReset a) s = .next t ∧ t.cal = { s.cal with run := none } ∧ t.base.get Reg.calStatus_RESULT = stRESET ∧
      t = { s with cal := t.cal, adm := t.adm, base := t.base })

/-! ## Scene memory -/

/-- A FREE_DIRTY granule that is zeroed becomes FREE_ZERO with every byte 0 and no other byte changed. Below the start level spilling begins with its event and asks for leave; with its leave the first granule of R284's order goes to its slot, and the leave is given back. A wanted granule asks for leave; with it and a FREE_ZERO granule it is read back into that granule, no longer wanted, its leave given back. A due scrub burst asks, then advances by one frame. A retirement's copy with a spare frame completes, the words that were uncorrectable poisoned. A stack that stops answering is FAULT. A unit reset of the Dome or a stack changes nothing. -/
def Obligations.SceneMemoryIsCleanedScrubbedAndPaged : Prop :=
  (∀ (s : State) (g : Nat), (s.dome.gran g).st = .freeDirty →
    ∃ t, exec (.zeroFill g) s = .next t ∧ t.dome.gran g = Granule.free0 ∧
      (∀ a, t.dome.byte a = (if g * 65536 ≤ a ∧ a < g * 65536 + 65536 then 0 else s.dome.byte a)) ∧ t = { s with dome := t.dome }) ∧
  (∀ (s : State), s.dome.spilling = false → s.dome.freeCount < s.base.get Reg.domLow_LOW * 64 → s.spillOrder ≠ [] → s.holds ridPaging 0 = false →
    ∃ t, exec .spill s = .next t ∧ t.dome.spilling = true ∧ t.hasEvent pgDOM 16 = true ∧ t.asks ridPaging 0 = true ∧
      t = { s with dome := t.dome, adm := t.adm, base := t.base }) ∧
  (∀ (s : State) (g k : Nat) (gs : List Nat), s.dome.spilling = true → s.holds ridPaging 0 = true → s.spillOrder = g :: gs →
    s.dome.freeCount < s.base.get Reg.domLow_HIGH * 64 → s.freeSlot (s.spillArea g) = some k →
    ∃ t, exec .spill s = .next t ∧ t.holds ridPaging 0 = false ∧
      .hostWrite (s.spillArea g) (s.base.addr64 (Reg.domSpillLo (s.spillArea g)) (Reg.domSpillHi (s.spillArea g)) + k * 65536)
        (s.spillBytes s.found g) ∈ t.base.out) ∧
  (∀ (s : State) (g : Nat) (reply : HostRead), s.wanted g = true → s.dome.gran g ≠ Granule.free0 → s.holds ridPaging 0 = false →
    exec (.pageIn g reply) s = .next (s.request ridPaging 0 4)) ∧
  (∀ (s : State) (g : Nat) (reply : HostRead), s.wanted g = true → s.dome.gran g ≠ Granule.free0 → s.holds ridPaging 0 = true → s.dome.freeZero ≠ 0 →
    (s.dome.gran g).res ≠ .lost →
    ∃ t, exec (.pageIn g reply) s = .next t ∧ g ∉ t.dome.want ∧ t.holds ridPaging 0 = false ∧
      .hostRead (g / 2 ^ 21 - 1) (s.base.addr64 (Reg.domSpillLo (g / 2 ^ 21 - 1)) (Reg.domSpillHi (g / 2 ^ 21 - 1)) + g % 2 ^ 21 * 65536) 65536 ∈ t.base.out ∧
      ∀ bs, reply = .data bs → bs.length = 65536 → (s.dome.gran g).res = .spilled (crc32c bs) →
        ∀ i, i < 65536 → t.dome.byte ((s.dome.take (s.dome.gran g).host (s.dome.gran g).kind (s.dome.gran g).hand (s.dome.gran g).index).1 * 65536 + i) = bs.getD i 0) ∧
  (∀ (s : State) (ecc : Ecc), s.base.get Reg.domScrub_PERIOD ≠ 0 → s.dome.scrubTick + scrubGap (s.base.get Reg.domScrub_PERIOD) ≤ s.base.ticks →
    (s.holds ridScrub 0 = false → exec (.scrubBurst ecc) s = .next (s.request ridScrub 0 2)) ∧
    (s.holds ridScrub 0 = true →
      ∃ t, exec (.scrubBurst ecc) s = .next t ∧ t.dome.scrubAt = (s.dome.scrubAt + 1) % 65536 ∧ t.dome.scrubTick = s.base.ticks ∧
        t.holds ridScrub 0 = false ∧ t.dome.mem = s.dome.mem ∧ t = { s with dome := t.dome, adm := t.adm, base := t.base })) ∧
  (∀ (s : State) (r : Retirement) (p : Nat), s.dome.retire.find? (fun q => !q.copied && s.holds ridRetire q.frame) = some r → r.spare = some p →
    ∃ t, exec .retire s = .next t ∧ (∀ q ∈ t.dome.retire, q.frame = r.frame → q.copied = true) ∧ t.holds ridRetire r.frame = false ∧
      (∀ w ∈ r.ue, t.dome.poisoned w = true) ∧ t.dome.mem = s.dome.mem ∧ t = { s with dome := t.dome, adm := t.adm, base := t.base }) ∧
  (∀ (s : State) (k : Fin 8),
    (s.dome.downStack.contains k = true → exec (.stackDown k) s = .next s) ∧
    (s.dome.downStack.contains k = false → s.base.ownState (pgSTK k) ≠ uNOCLOCK →
      ∃ t, exec (.stackDown k) s = .next t ∧ (k : Nat) ∈ t.dome.downStack ∧ t.base.ownState (pgSTK k) = uFAULT ∧ t.hasEvent (pgSTK k) 1 = true ∧
        t = { s with dome := t.dome, base := t.base })) ∧
  (∀ (s : State) (page : BitVec 10) (a : RegWr), 0x020 ≤ page.toNat → page.toNat ≤ 0x028 → s.asksReset page.toNat a = true →
    exec (.domUnitReset page a) s = .next ((s.stored (hdr page.toNat 0x20) a).onBase Base.draw))

/-! ## Helm, the Keep and the Watch -/

/-- GET_INFO answers SVN, boot slot and slots. FW_STAGE stays BUSY, empties the free slot and reads the image; MBX_DONE then makes the slot STAGED with VERSION and SVN, or INVALID with the reason of the first failed check or of the failed read. FW_ACTIVATE makes the staged slot PENDING, and with NOW begins a warm reset. FW_CONFIRM raises FW_SVN to the trial's and makes it ACTIVE. FW_DISCARD empties the staged slot. MR_EXTEND replaces the register by the hash of its value and the arguments. PROVISION and DEPROVISION leave the change for the next cold reset. -/
def Obligations.MailboxCommandsCompleteWithTheirEffects : Prop :=
  (∀ (s : State) (h : Fin 4) (a : RegWr), s.mailbox h a 1 = true →
    ∃ t, exec (.getInfo h a) s = .next t ∧ (t.base.word (Reg.mbxRsp h 1)).toNat = s.fwSvn + 256 * s.base.get Reg.hlmStatus_BOOT_SLOT ∧
      t.base.word (Reg.mbxRsp h 2) = s.base.word (Reg.hlmSlot 0) ∧ t.base.word (Reg.mbxRsp h 3) = s.base.word (Reg.hlmSlot 1) ∧ t.base.flag (Reg.mbxStatus_BUSY h) = false ∧ t.base.get (Reg.mbxStatus_STATUS h) = stOK ∧ t = { s with hlm := t.hlm, base := t.base }) ∧
  (∀ (s : State) (h : Fin 4) (a : RegWr), s.mailbox h a 2 = true →
    ∃ t, exec (.fwStage h a) s = .next t ∧ t.base.flag (Reg.mbxStatus_BUSY h) = true ∧ sget (fun _ => 0) t.hlm.busy h = 2 ∧ t.slotState s.stageSlot = 0 ∧
      t.base.out = .hostRead h (s.mbxArg h 0 + 2 ^ 32 * s.mbxArg h 1) (s.mbxArg h 2) :: s.base.out ∧ t = { s with hlm := t.hlm, base := t.base }) ∧
  (∀ (s : State) (h : Fin 4) (m : List Byte), sget (fun _ => 0) s.hlm.busy h = 2 → m.length = s.mbxArg h 2 →
    ∃ t, exec (.mbxDone h (.data m)) s = .next t ∧ t.base.flag (Reg.mbxStatus_BUSY h) = false ∧
      t.slotState s.stageSlot = (if (imageCheck s.fwSvn m.length m).isSome then 5 else 1) ∧
      t.base.get (Reg.mbxStatus_STATUS h) = ((imageCheck s.fwSvn m.length m).map (·.2)).getD stOK ∧
      t.base.get (Reg.mbxStatus_INFO h) = ((imageCheck s.fwSvn m.length m).map (·.1)).getD 0 ∧ t = { s with hlm := t.hlm, base := t.base }) ∧
  (∀ (s : State) (h : Fin 4) (c : Fin 4), sget (fun _ => 0) s.hlm.busy h = 2 →
    ∃ t, exec (.mbxDone h (.fail c)) s = .next t ∧ t.slotState s.stageSlot = 5 ∧ t.base.flag (Reg.mbxStatus_BUSY h) = false ∧
      t.base.get (Reg.mbxStatus_STATUS h) = stMEMORY ∧ t.base.get (Reg.mbxStatus_INFO h) = 8 ∧ s.counted t (Reg.hstDmaErr_COUNT h) 1 ∧
      t = { s with hlm := t.hlm, base := t.base }) ∧
  (∀ (s : State) (h : Fin 4) (a : RegWr) (k : Nat), s.mailbox h a 3 = true → s.slotIn 1 = some k →
    (s.mbxArg h 0 % 2 = 0 → ∃ t, exec (.fwActivate h a) s = .next t ∧ t.base.flag (Reg.hlmSlot_PENDING k) = true ∧ t.base.flag (Reg.mbxStatus_BUSY h) = false ∧ t.base.get (Reg.mbxStatus_STATUS h) = stOK ∧ t = { s with hlm := t.hlm, base := t.base }) ∧
    (s.mbxArg h 0 % 2 = 1 → s.pwr.held = false → s.pwr.dark = none → s.pwr.warm = none → 8 ≤ s.base.get Reg.rstStep_STEP →
      ∃ t, exec (.fwActivate h a) s = .next t ∧ t.pwr.warm = some s.base.ticks ∧ t.codec.engines = [])) ∧
  (∀ (s : State) (h : Fin 4) (a : RegWr) (k : Nat), s.mailbox h a 4 = true → s.slotIn 2 = some k →
    ∃ t, exec (.fwConfirm h a) s = .next t ∧ t.fwSvn = max s.fwSvn (s.base.get (Reg.hlmSlot_SVN k)) ∧
      (s.fwSvn ≤ s.base.get (Reg.hlmSlot_SVN k) → t.slotState k = 3) ∧ t.hasEvent pgHLM 21 = true ∧ t.base.flag (Reg.mbxStatus_BUSY h) = false ∧ t.base.get (Reg.mbxStatus_STATUS h) = stOK ∧ t = { s with hlm := t.hlm, base := t.base }) ∧
  (∀ (s : State) (h : Fin 4) (a : RegWr) (k : Nat), s.mailbox h a 5 = true → s.slotIn 1 = some k →
    ∃ t, exec (.fwDiscard h a) s = .next t ∧ t.slotState k = 0 ∧ t.base.flag (Reg.mbxStatus_BUSY h) = false ∧ t.base.get (Reg.mbxStatus_STATUS h) = stOK ∧ t = { s with hlm := t.hlm, base := t.base }) ∧
  (∀ (s : State) (h : Fin 4) (a : RegWr) (m : Nat) (v : List Byte), s.mailbox h a 6 = true → m = (s.stored (Reg.mbxCmd h) a).base.get (Reg.mbxCmd_PARAM h) →
    v = sha3 (s.mr m ++ s.mbxBytes h 16) →
    ∃ t, exec (.mrExtend h a) s = .next t ∧ (∀ w, w < 16 → t.base.word (Reg.kepMr m w) = BitVec.ofNat 32 (leAt v (4 * w) 4)) ∧
      (∀ i, i < 8 → t.base.word (Reg.mbxRsp h i) = BitVec.ofNat 32 (leAt v (4 * i) 4)) ∧ t.base.flag (Reg.mbxStatus_BUSY h) = false ∧ t.base.get (Reg.mbxStatus_STATUS h) = stOK ∧ t = { s with hlm := t.hlm, base := t.base }) ∧
  (∀ (s : State) (h : Fin 4) (a : RegWr), s.mailbox h a 7 = true →
    ∃ t, exec (.provision h a) s = .next t ∧ t.hlm.change = some (some (s.mbxBytes h 4)) ∧ t.hlm.record = s.hlm.record ∧
      t.base.flag Reg.kepState_PENDING = true ∧ t.base.flag Reg.kepState_JTAG_LOCKED = true ∧ t.hasEvent pgKEP 16 = true ∧ t.base.flag (Reg.mbxStatus_BUSY h) = false ∧ t.base.get (Reg.mbxStatus_STATUS h) = stOK ∧ t = { s with hlm := t.hlm, base := t.base }) ∧
  (∀ (s : State) (h : Fin 4) (a : RegWr), s.mailbox h a 8 = true →
    ∃ t, exec (.deprovision h a) s = .next t ∧ t.hlm.change = some none ∧ t.hlm.record = s.hlm.record ∧
      t.base.flag Reg.kepState_PENDING = true ∧ t.hasEvent pgKEP 16 = true ∧ t.base.flag (Reg.mbxStatus_BUSY h) = false ∧ t.base.get (Reg.mbxStatus_STATUS h) = stOK ∧ t = { s with hlm := t.hlm, base := t.base })

/-- In the ROM and not after a warm reset, an ACTIVE slot that passes its checks boots; after one, a staged slot that is PENDING and passes is tried first, as a TRIAL; when no slot passes, Helm has failed. Every 100 ms BLF_FW_VAL takes Table 20.5's bits. GET_ID and GET_MEAS in order receive their message, GET_CHAIN its part of the chain or ERROR 2 beyond its end, a bad request ERROR and the violation MAILBOX. An object that contradicts its length sets DOE Error; DOE Abort clears it. A discovery request names the protocol of its index. -/
def Obligations.HelmBootsAndAnswers : Prop :=
  (∀ (s : State) (k : Nat), s.base.get Reg.hlmStatus_STATE = 1 → s.hlm.warm = false → s.slotIn 3 = some k → s.bootBad k = none →
    s.base.ownState pgHLM ≠ uNOCLOCK →
    ∃ t, exec .firmwareBoot s = .next t ∧ t.helmRuns = true ∧ t.base.get Reg.hlmStatus_BOOT_SLOT = k ∧ t.base.ownState pgHLM = uBUSY ∧
      t.base.flag Reg.ethStatus_HELM = true ∧ s.counted t Reg.hlmBoots_COUNT 1 ∧ t = { s with pwr := t.pwr, hlm := t.hlm, base := t.base }) ∧
  (∀ (s : State) (k : Nat), s.base.get Reg.hlmStatus_STATE = 1 → s.hlm.warm = true →
    (List.range 2).find? (fun k => s.slotState k == 1 && s.base.flag (Reg.hlmSlot_PENDING k)) = some k → s.bootBad k = none →
    ∃ t, exec .firmwareBoot s = .next t ∧ t.helmRuns = true ∧ t.base.get Reg.hlmStatus_BOOT_SLOT = k ∧ t.slotState k = 2 ∧
      t.base.flag (Reg.hlmSlot_PENDING k) = false ∧ t.hasEvent pgHLM 20 = true ∧ t = { s with pwr := t.pwr, hlm := t.hlm, base := t.base }) ∧
  (∀ (s : State), s.base.get Reg.hlmStatus_STATE = 1 → (s.bootBad 0).isSome = true → (s.bootBad 1).isSome = true →
    ¬ (s.slotState 0 = 3 ∧ s.slotState 1 = 3) → s.base.ownState pgHLM ≠ uNOCLOCK →
    ∃ t, exec .firmwareBoot s = .next t ∧ t.base.get Reg.hlmStatus_STATE = 3 ∧ t.base.ownState pgHLM = uFAULT ∧
      t = { s with hlm := t.hlm, base := t.base }) ∧
  (∀ (s : State), s.helmRuns = true → s.hlm.fwAt + 100 * msTicks ≤ s.base.ticks →
    ∃ t, exec .fwValUpdate s = .next t ∧ (∀ i, i < 16 → (t.base.word Reg.blfFwVal).toNat.testBit i = s.fwBits.getD i false) ∧
      t.hlm = { s.hlm with fwAt := s.base.ticks } ∧ t = { s with hlm := t.hlm, base := t.base }) ∧
  (∀ (s : State) (h : Fin 4) (msg : List Byte), s.helmRuns = true → (h : Nat) < s.base.nhosts → (s.doeOf h).error = false →
    (doeWhole msg = false → exec (.getId h msg) s = .next (s.setDoe h ⟨true⟩) ∧ exec (.getChain h msg) s = .next (s.setDoe h ⟨true⟩) ∧
      exec (.getMeas h msg) s = .next (s.setDoe h ⟨true⟩) ∧ exec (.doeDiscovery h msg) s = .next (s.setDoe h ⟨true⟩)) ∧
    (doeWhole msg = true → leAt msg 0 2 = 0xC0D7 → leAt msg 2 1 = 1 →
      (krydoBad (msg.drop 8) = none → leAt msg 9 1 = 1 →
        exec (.getId h msg) s = .next (s.onBase (·.emit (.doe h (doeObject 0xC0D7 1 s.krydoId))))) ∧
      (krydoBad (msg.drop 8) = none → leAt msg 9 1 = 3 →
        exec (.getMeas h msg) s = .next (s.onBase (·.emit (.doe h (doeObject 0xC0D7 1 (s.krydoMeas (msg.drop 8))))))) ∧
      (∀ off n, (msg.drop 8).length = 16 → leAt msg 8 1 = 1 → leAt msg 9 1 = 2 → leAt msg 10 2 = 0 → leAt msg 12 4 = 16 → leAt msg 16 4 = off → leAt msg 20 4 = n →
        n ≠ 0 → n ≤ 65512 →
        ∃ t, exec (.getChain h msg) s = .next t ∧
          .doe h (doeObject 0xC0D7 1 (if Config.chain.length < off + n then krydo 0x7F [2] else krydoChain off n)) ∈ t.base.out ∧ t = { s with base := t.base }) ∧
      (∀ e, krydoBad (msg.drop 8) = some e →
        ∃ t x, exec (.getId h msg) s = .next t ∧ .doe h (doeObject 0xC0D7 1 (krydo 0x7F (leBytes 1 e))) ∈ t.base.out ∧
          t.lastViolation h = some x ∧ x.code = vMAILBOX ∧ t = { s with base := t.base })) ∧
    (doeWhole msg = true → msg.length = 12 → leAt msg 0 2 = 1 → leAt msg 2 1 = 0 →
      exec (.doeDiscovery h msg) s = .next (s.onBase (·.emit (.doe h (doeObject 1 0 (leBytes 4 (discovery (leAt msg 8 1))))))))) ∧
  (∀ (s : State) (h : Fin 4), ∃ t, exec (.doeAbort h) s = .next t ∧ (t.doeOf h).error = false ∧ (∀ k, k ≠ (h : Nat) → t.doeOf k = s.doeOf k) ∧
    t = { s with doe := t.doe })

/-- An idle Watch whose class is due, enabled and not held back takes an eligible unit that is next in its rotation: a lane of class 4 is retrained, the pair of class 5 waits for its slot, any other class waits for its leave. A passing or failing verdict is counted; an engine becomes READY or RETIRED, a cluster's verdict waits for a subframe start, a failed spare frame leaves the pool. A bad reference is a fault and passes the unit. A sweep that finds nothing failed ends the array's FAULT as good; one that does takes the failed clusters out of dispatch as FAULT, for the next subframe start to repair (R178, R179). -/
def Obligations.TheWatchTestsAndSweeps : Prop :=
  (∀ (s : State) (cls : Fin 7) (target : Nat), s.wch.test = none → s.bcn.watch = none → s.base.ownState pgWCH = uREADY → s.base.enabled pgWCH = true →
    s.spr.sweep ≠ 1 → s.spr.sweep ≠ 4 → s.pwr.warm = none → sget (fun _ => 0) s.wch.last cls + s.watchPeriod cls ≤ s.base.ticks → (s.base.get Reg.wchCtrl_EN).testBit cls = true →
    s.watchHeld cls = false → s.watchNext cls target = true →
    ((cls : Nat) = 4 → ∃ t, exec (.watchTestStart cls target) s = .next t ∧ (t.lane (target - 0x050)).retrain.isSome = true ∧ sget (fun _ => 0) t.wch.last 4 = s.base.ticks ∧
      t.wch.test = some ⟨4, target, s.base.ticks, false, 0, none⟩) ∧
    ((cls : Nat) = 5 → ∃ t, exec (.watchTestStart cls target) s = .next t ∧ t.bcn.watch = some (pairOf target) ∧ sget (fun _ => 0) t.wch.last 5 = s.base.ticks ∧
      t.base.ownState pgWCH = uBUSY ∧ t = { s with bcn := t.bcn, wch := t.wch, base := t.base }) ∧
    ((cls : Nat) ≠ 4 → (cls : Nat) ≠ 5 → ∃ t, exec (.watchTestStart cls target) s = .next t ∧
      t.wch.test = some ⟨cls, target, s.base.ticks, false, 0, none⟩ ∧ (t.asks ridWatch 0 || t.holds ridWatch 0) = true ∧ t.base.ownState pgWCH = uBUSY ∧
      t = { s with wch := t.wch, adm := t.adm, base := t.base })) ∧
  (∀ (s : State) (x : WatchTest), s.wch.test = some x → x.runs = true → x.done = none → x.cls ∈ [0, 1, 2, 3, 6] → s.watchHeldOut x = true →
    (∃ t, exec (.watchTestEnd .pass) s = .next t ∧ s.counted t Reg.wchPass_COUNT 1 ∧ t.wch.test = (if x.cls < 2 then some { x with done := some true } else none)) ∧
    (∃ t, exec (.watchTestEnd .fail) s = .next t ∧ s.counted t Reg.wchFail_COUNT 1 ∧ t.hasEvent pgWCH 16 = true ∧
      t.wch.test = (if x.cls < 2 then some { x with done := some false } else none) ∧ (x.cls = 6 → x.target ∈ t.wch.gone)) ∧
    (∃ t, exec (.watchTestEnd .referenceBad) s = .next t ∧ t.hasEvent pgWCH 1 = true ∧ t.wch.test = (if x.cls < 2 then some { x with done := some true } else none)) ∧
    (∀ ecc, x.cls = 6 → ((ecc.ce ++ ecc.ue).map (· / 16)).any x.reads = true →
      ∃ t, exec (.watchTestEnd (.march ecc)) s = .next t ∧ s.counted t Reg.wchFail_COUNT 1 ∧ x.target ∈ t.wch.gone ∧ t.wch.test = none)) ∧
  (∀ (s : State) (x : WatchTest) (e : Fin 16), s.wch.test = some x → x.runs = true → x.done = none → x.cls = 2 → x.target = pgENG e →
    s.base.ownState (pgENG e) = uTEST →
    (∃ t, exec (.watchTestEnd .pass) s = .next t ∧ t.base.ownState (pgENG e) = uREADY) ∧
    (∃ t, exec (.watchTestEnd .fail) s = .next t ∧ t.base.ownState (pgENG e) = uRETIRED)) ∧
  (∀ (s : State) (failed : List (Fin 68)), s.spr.sweep = 1 → s.base.ownState pgWCH ≠ uNOCLOCK → s.base.ownState pgWCH ≠ uOFF →
    ((∀ c ∈ failed, s.renders c = false) → exec (.sweepDone failed) s = .next (({ s with spr := { s.spr with sweep := 2 } } : State).watchState.onBase (·.raise pgWCH 18))) ∧
    (∀ c, failed = [c] → s.renders c = true →
      ∃ t, exec (.sweepDone failed) s = .next t ∧ t.spr.sweep = 3 ∧ t.hasEvent pgWCH 18 = true ∧ t.renders c = false ∧
        (s.base.ownState (pgSPC c) ≠ uNOCLOCK → s.base.ownState (pgSPC c) ≠ uOFF → t.base.ownState (pgSPC c) = uFAULT)))

/-! ## Registers and configuration -/

/-- OPEN with none open or sealed gives the transaction to the writing host with nothing staged; otherwise it is refused as CFG. COMMIT by the holder with nothing staged ends it as NO-OP; one that fails a check ends it with that status; one that passes seals it at E. ABORT by the holder or the owner host ends it with ABORT_ROLLBACK. A write of staged fields by the holder goes to the staged copy and is counted, and leaves the register as it was but for its plain fields; by another host it is refused as CFG. -/
def Obligations.TheConfigurationTransactionOpensSealsAndEnds : Prop :=
  (∀ (s : State) (a : RegWr), s.accepts Reg.cfgCtrl a = true → bits (s.applied Reg.cfgCtrl a).act 1 0 = 1 →
    (s.base.flag Reg.cfgStatus_OPEN = false → s.base.flag Reg.cfgStatus_SEALED = false →
      ∃ t, exec (.cfgOpen a) s = .next t ∧ t.base.flag Reg.cfgStatus_OPEN = true ∧ t.base.get Reg.cfgStatus_HOLDER = a.host.toNat ∧
        t.base.get Reg.cfgStatus_STAGED = 0 ∧ t.cfg.staged = [] ∧ t.cfg.target = none ∧ t = { s with cfg := t.cfg, base := t.base }) ∧
    (s.base.flag Reg.cfgStatus_OPEN = true ∨ s.base.flag Reg.cfgStatus_SEALED = true →
      ∃ t x, exec (.cfgOpen a) s = .next t ∧ t.lastViolation a.host.toNat = some x ∧ x.code = vCFG ∧ t = { s with base := t.base })) ∧
  (∀ (s : State) (a : RegWr), s.accepts Reg.cfgCtrl a = true → bits (s.applied Reg.cfgCtrl a).act 1 0 = 2 → s.holdsCfg a.host.toNat = true →
    (s.cfg.staged = [] →
      ∃ t, exec (.cfgCommit a) s = .next t ∧ t.base.get Reg.cfgStatus_LAST = stNOOP ∧ t.base.flag Reg.cfgStatus_OPEN = false ∧ t.hasEvent 0 16 = true ∧
        t = { s with cfg := t.cfg, base := t.base }) ∧
    (s.cfg.staged ≠ [] → (s.stored Reg.cfgCtrl a).sealStatus = none →
      ∃ t, exec (.cfgCommit a) s = .next t ∧ t.base.flag Reg.cfgStatus_SEALED = true ∧ t.base.flag Reg.cfgStatus_OPEN = false ∧ t.cfg.sealAt = s.base.E ∧
        t.cfg.staged = s.cfg.staged ∧ t = { s with cfg := t.cfg, base := t.base }) ∧
    (∀ st, s.cfg.staged ≠ [] → (s.stored Reg.cfgCtrl a).sealStatus = some st →
      ∃ t, exec (.cfgCommit a) s = .next t ∧ t.base.get Reg.cfgStatus_LAST = st ∧ t.base.flag Reg.cfgStatus_OPEN = false ∧ t.cfg.staged = [] ∧
        t.hasEvent 0 16 = true ∧ t = { s with cfg := t.cfg, base := t.base })) ∧
  (∀ (s : State) (a : RegWr), s.accepts Reg.cfgCtrl a = true → bits (s.applied Reg.cfgCtrl a).act 1 0 = 3 → s.base.flag Reg.cfgStatus_OPEN = true →
    s.base.get Reg.cfgStatus_HOLDER = a.host.toNat ∨ a.host.toNat = s.base.owner →
    ∃ t, exec (.cfgAbort a) s = .next t ∧ t.base.get Reg.cfgStatus_LAST = stROLLBACK ∧ t.base.flag Reg.cfgStatus_OPEN = false ∧ t.cfg.staged = [] ∧
      t.hasEvent 0 16 = true ∧ t = { s with cfg := t.cfg, base := t.base }) ∧
  (∀ (s : State) (page : BitVec 10) (off : BitVec 12) (a : RegWr) (d : RegDesc), plainKey (regKey page off) = true → s.accepts (regKey page off) a = true →
    descAt (regKey page off) = some d → d.touchesRws a.be = true →
    (s.holdsCfg a.host.toNat = true →
      ∃ t, exec (.rwsWrite page off a) s = .next t ∧ t.stagedWord (regKey page off) = some (BitVec.ofNat 32 (s.applied (regKey page off) a).staged) ∧
        t.base.get Reg.cfgStatus_STAGED = min 4095 t.cfg.staged.length ∧ (t.base.word (regKey page off)) = BitVec.ofNat 32 (s.applied (regKey page off) a).word ∧
        t = { s with cfg := t.cfg, base := t.base }) ∧
    (s.holdsCfg a.host.toNat = false →
      ∃ t x, exec (.rwsWrite page off a) s = .next t ∧ t.lastViolation a.host.toNat = some x ∧ x.code = vCFG ∧ t = { s with base := t.base }))

/-- A taken write of a plain register stores its fields and does nothing else; one to an absent page is refused as HIDDEN, one without rights as NOT_PERMITTED. A quota within the totals is stored; one beyond them is refused. Clearing UNIT_EVENT clears the bits and announces an enabled FAULT that remains; clearing UNIT_FAULT.VALID clears the register. A query starts with VALID 0 in the writer's copy, and its result arrives there. A read answers with the register's value; a full read clears its RC fields. A sideband read answers as the owner reads, with 0 for a page that is off and no answer without power, the PEC after it. -/
def Obligations.RegistersAreWrittenReadAndRefused : Prop :=
  (∀ (s : State) (page : BitVec 10) (off : BitVec 12) (a : RegWr), plainKey (regKey page off) = true →
    (s.accepts (regKey page off) a = true → unstaged (regKey page off) = true →
      exec (.registerWrite page off a) s = .next (s.stored (regKey page off) a)) ∧
    (s.base.visible a.host.toNat page.toNat = true → ((descAt (regKey page off)).map RegDesc.writable).getD false = true →
      s.base.mayWrite a.host.toNat (regKey page off) = false →
      ∃ t x, exec (.registerWrite page off a) s = .next t ∧ t.lastViolation a.host.toNat = some x ∧ x.code = vNOTPERM ∧
        t.base.word (regKey page off) = s.base.word (regKey page off) ∧ t = { s with base := t.base })) ∧
  (∀ (s : State) (page : BitVec 10) (off : BitVec 12) (a : RegWr), 0x300 ≤ page.toNat → pageInfo page.toNat = none → 0x40 ≤ off.toNat →
    a.host.toNat < s.base.nhosts →
    ∃ t x, exec (.registerWrite page off a) s = .next t ∧ t.lastViolation a.host.toNat = some x ∧ x.code = vHIDDEN ∧ t = { s with base := t.base }) ∧
  (∀ (s : State) (h : Fin 4) (off : BitVec 12) (a : RegWr) (r : Nat), quotaOf (off.toNat / 4 * 4) = some r →
    s.accepts (hdr (pgCMD h) (off.toNat / 4 * 4)) a = true →
    ((s.stored (hdr (pgCMD h) (off.toNat / 4 * 4)) a).quotaBad r = false →
      exec (.quotaWrite h off a) s = .next (s.stored (hdr (pgCMD h) (off.toNat / 4 * 4)) a)) ∧
    ((s.stored (hdr (pgCMD h) (off.toNat / 4 * 4)) a).quotaBad r = true →
      ∃ t x, exec (.quotaWrite h off a) s = .next t ∧ t.lastViolation a.host.toNat = some x ∧ x.code = vNOTPERM ∧
        t.base.word (hdr (pgCMD h) (off.toNat / 4 * 4)) = s.base.word (hdr (pgCMD h) (off.toNat / 4 * 4)) ∧ t = { s with base := t.base })) ∧
  (∀ (s : State) (page : BitVec 10) (a : RegWr), s.accepts (hdr page.toNat 0x18) a = true →
    ∃ t, exec (.unitEventClear page a) s = .next t ∧ t.base.word (hdr page.toNat 0x18) = BitVec.ofNat 32 (s.applied (hdr page.toNat 0x18) a).word ∧
      (∀ h ∈ s.base.dests page.toNat, (t.base.active page.toNat).testBit 1 = true → s.base.canSend h = true →
        (s.base.link h).unmasked.contains 0 = true → .msix h 0 ∈ t.base.out) ∧ t = { s with base := t.base }) ∧
  (∀ (s : State) (page : BitVec 10) (a : RegWr), s.accepts (hdr page.toNat 0x24) a = true → (s.base.word (hdr page.toNat 0x24)).toNat.testBit 31 = true →
    (s.applied (hdr page.toNat 0x24) a).word.testBit 31 = false →
    ∃ t, exec (.unitFaultClear page a) s = .next t ∧ t.base.word (hdr page.toNat 0x24) = 0 ∧ t = { s with base := t.base }) ∧
  (∀ (s : State) (a : RegWr),
    (s.accepts Reg.cmpProbeXy a = true → ∃ t, exec (.cmpProbeXy a) s = .next t ∧ 4 * a.host.toNat ∈ t.queries ∧
      t.base.flag ⟨hostCopy a.host.toNat Reg.cmpProbeOut, 31, 31⟩ = false ∧ t = { s with queries := t.queries, base := t.base }) ∧
    (s.accepts Reg.frsQuery a = true → ∃ t, exec (.frsQuery a) s = .next t ∧ 4 * a.host.toNat + 1 ∈ t.queries ∧
      t.base.flag ⟨hostCopy a.host.toNat Reg.frsQueryAge, 31, 31⟩ = false ∧ t = { s with queries := t.queries, base := t.base }) ∧
    (s.accepts Reg.domMapQuery a = true → ∃ t, exec (.domMapQuery a) s = .next t ∧ 4 * a.host.toNat + 2 ∈ t.queries ∧
      t.base.flag ⟨hostCopy a.host.toNat Reg.domMapEntry, 31, 31⟩ = false ∧ t = { s with queries := t.queries, base := t.base }) ∧
    (s.accepts Reg.calQuery a = true → ∃ t, exec (.calQuery a) s = .next t ∧ 4 * a.host.toNat + 3 ∈ t.queries ∧
      t.base.flag ⟨hostCopy a.host.toNat Reg.calQueryOut, 31, 31⟩ = false ∧ t = { s with queries := t.queries, base := t.base })) ∧
  (∀ (s : State) (h : Fin 4) (q : Query), s.queries.contains (4 * (h : Nat) + queryNum q) = true →
    ∃ t, exec (.queryResult h q) s = .next t ∧ t.queries = setErase s.queries (4 * (h : Nat) + queryNum q) ∧
      t.base.word (hostCopy h (queryOut q)) = BitVec.ofNat 32
        (match q with | .probe => s.probeWord h | .frs => (s.frsWords h).1 | .domMap => s.mapWord h | .cal => s.trimWord h) ∧
      t = { s with queries := t.queries, base := t.base }) ∧
  (∀ (s : State) (h : Fin 4) (page : BitVec 10) (off : BitVec 12) (be : BitVec 4),
    ∃ t, exec (.rcRead h page off be) s = .next t ∧ t.base.out = .readData h page.toNat off.toNat (s.readWord h (regKey page off)) :: s.base.out ∧
      t.base.word (regKey page off) = (if be = 15 ∧ s.base.visible h page.toNat = true then clearRc (regKey page off) (s.base.word (regKey page off))
        else s.base.word (regKey page off)) ∧ t = { s with base := t.base }) ∧
  (∀ (s : State) (page : BitVec 10) (off : BitVec 12),
    (s.pwr.off = true → exec (.sidebandRead page off) s = .next (s.onBase (·.emit (.sideband none)))) ∧
    (s.pwr.off = false → s.pageOn page.toNat = false → exec (.sidebandRead page off) s = .next (s.onBase (·.emit (.sideband (some (0, s.sidebandPec page.toNat off.toNat 0)))))) ∧
    (s.pwr.off = false → s.pageOn page.toNat = true →
      exec (.sidebandRead page off) s = .next (s.onBase (·.emit (.sideband (some (s.readWord s.base.owner (regKey page off),
        s.sidebandPec page.toNat off.toNat (s.readWord s.base.owner (regKey page off)))))))))

/-! ## The lanes and the function -/

/-- R331. The receiver's in_k = r_k ^ r_(k−39) ^ r_(k−58) undoes the scrambler: over any scrambler state, whose low 58 bits are the bits sent before, the stream sent for a list of bits gives each of them back. -/
def Obligations.DescramblingUndoesScrambling : Prop :=
  ∀ (sc : Nat) (bits : List Nat), (∀ b ∈ bits, b < 2) →
    (scrambleAll sc bits).1.length = bits.length ∧
    ∀ (k : Nat) (raw : List Nat), k < bits.length → raw = msbBits 58 sc ++ (scrambleAll sc bits).1 →
      (raw.getD (k + 58) 0 + raw.getD (k + 19) 0 + raw.getD k 0) % 2 = bits.getD k 0

/-- R5. The configuration header that every function has holds Vendor ID 0xC0D7 in its bytes 0 and 1, Device ID 0x8128 in bytes 2 and 3 and Revision ID 0xA1 in byte 8. -/
def Obligations.TheConfigurationHeaderNamesTheDevice : Prop :=
  ∀ (s : State), leAt s.configHeader 0 2 = 0xC0D7 ∧ leAt s.configHeader 2 2 = 0x8128 ∧ leAt s.configHeader 8 1 = 0xA1

/-! ## What commands leave alone -/

/-- Beyond the page headers and the LOST counters of the logs, the commands of host h's rings, their fetches and replies, the seals of its transactions, its 2D engine's starts and self-check and its Bus Master Enable and D3hot change registers of host h's own pages only: no register of another host or of another unit. NOP, FENCE, READBACK, MARK_FRESH, LAYER_SET and LAYER_MOVE change no register but the counts of aborted and rejected commands. The end of an overload window changes CMD_OVERLOAD only. The premise on the number of hosts is the invariant EveryStepKeepsTheHosts. -/
def Obligations.HostCommandsKeepToTheirHostsPages : Prop :=
  ∀ (s t : State), s.base.nhosts ≤ 4 →
    (∀ (h : Fin 4) (r : Fin 16) (n : BitVec 32) (k : Fin 256) (reply : HostRead) (a : RegWr) (on : Bool) (c : Instr),
      c ∈ [.txBegin h r, .txCommit h r, .txAbort h r, .schedCommit h r, .ctxOpen h r, .ctxClose h r, .layerCreate h r, .layerDestroy h r,
        .layerSet h r, .layerMove h r, .regionSet h r, .regionClear h r, .markFresh h r, .upload h r, .uploadDone h r n reply, .decode h r,
        .fence h r, .readback h r, .nop h r, .allocationResume h (some r), .allocationResume h none, .ringTail h r a, .ringRun h r a,
        .ringDiscard h r a, .descriptorFetch h r reply, .seal h k, .schedSeal h k, .twdFill h a, .twdCopy h a, .twdExpand h a,
        .twdWriteStart h, .twdSelfCheck h, .busMasterEnable h on, .d3hot h on] →
      exec c s = .next t → s.keepsPages t (hostPages h)) ∧
    (∀ (h : Fin 4) (r : Fin 16) (c : Instr),
      c ∈ [.nop h r, .fence h r, .readback h r, .markFresh h r, .layerSet h r, .layerMove h r] →
      exec c s = .next t → s.keepsBut t [Reg.cmdAborted h, Reg.cmdRejected h]) ∧
    (exec .cmdOverload s = .next t → s.keepsBut t ((List.range 4).map Reg.cmdOverload))

/-- Beyond the page headers and the LOST counters, these commands change registers of their own unit's pages only: freshness ticks and guard checks, the Compass check, frames and the link of the time port, Sextant locking, timers and captures, the pair's messages, CRC_REPORT and LOOP_RESULT, the windows and zones of the Beacon, the Belfry's events, span failures, mailbox replies and a firmware boot. Job dispatch, an engine's self-check and leave, a lost panel temperature, GET_ID, GET_CHAIN, DOE Abort and the watchdog's key change none, and a BAR2 read and a scrub burst only the memory's error counts and misses. -/
def Obligations.UnitCommandsKeepToTheirPages : Prop :=
  ∀ (s t : State), s.base.nhosts ≤ 4 →
    (∀ (bad : List GuardBad) (c : Instr), c ∈ [.freshnessTick, .tickLost, .localTick, .guardCopyCheck bad] → exec c s = .next t →
      s.keepsPages t [pgFRS]) ∧
    (∀ (bad : List (BitVec 12 × BitVec 2)), exec (.compassCopyCheck bad) s = .next t → s.keepsPages t [pgCMP]) ∧
    (∀ (f : List Byte) (mac base : Timestamp) (ok : Bool) (c : Instr), c ∈ [.ptpRx f mac, .ethOther f ok, .wallStatusRx f, .ptpTx f base mac, .timeLinkUp] →
      exec c s = .next t → s.keepsPages t [pgETH]) ∧
    (exec .timeLinkDown s = .next t → s.keepsPages t [pgETH, pgSXT]) ∧
    (∀ (offsets : List Int) (why : HoldCause) (n : Fin 4) (m : Fin 2) (rising : Bool) (c : Instr),
      c ∈ [.sxtLocked offsets, .sxtHoldover why, .actDone n, .actPulseEnd n, .gpioCapture m rising] → exec c s = .next t → s.keepsPages t [pgSXT]) ∧
    (∀ (blk : LaneBlock) (c : Instr), c ∈ [.parHeartbeat blk, .parSignature blk, .parHello blk, .parYield blk, .swapReq blk, .swapAck blk, .parDown blk,
        .parAck blk, .parNak blk, .parViol blk] → exec c s = .next t → s.keepsPages t (pgPAR :: (List.range 44).map pgLNK)) ∧
    (exec .partnerLost s = .next t → s.keepsPages t [pgPAR]) ∧
    (∀ (p b : Fin 2) (m : BackBlock) (c : Instr), c ∈ [.crcReport p b m, .loopResult p b m] → exec c s = .next t →
      s.keepsPages t (pgPRT p :: (List.range 44).map pgLNK)) ∧
    (∀ (z : Fin 12) (i : Fin 8) (c : Instr), c ∈ [.lightWindowOpen z, .closedInterval z, .strUnverified z i, .zoneStarted z] → exec c s = .next t →
      s.keepsPages t [pgBCN, pgZON z]) ∧
    (∀ (mv : BitVec 16) (c : Instr), c ∈ [.vlcdLow mv, .dischargeEnd, .fwValUpdate] → exec c s = .next t → s.keepsPages t [pgBLF]) ∧
    (∀ (c : Fin 68), exec (.spanStall c) s = .next t → s.keepsPages t [pgSPQ (c / 17), pgSPC c]) ∧
    (∀ (c : Fin 68) (k : Fin 4) (perm : Bool), exec (.spanDatapath c k perm) s = .next t → s.keepsPages t [pgSPQ (c / 17), pgSPC c, pgSPE c k]) ∧
    (∀ (h : Fin 4) (reply : HostRead), exec (.mbxDone h reply) s = .next t → s.keepsPages t [pgHLM, pgHST h]) ∧
    (exec .firmwareBoot s = .next t → s.keepsPages t [pgHLM, pgKEP, pgETH]) ∧
    (∀ (e : Fin 16) (h : Fin 4) (msg : List Byte) (by_ : Option (Fin 4)) (v : BitVec 32) (c : Instr),
      c ∈ [.jobDispatch e, .selfCheck e, .engineLeaveRelease e, .tempLost, .getId h msg, .getChain h msg, .doeAbort h, .rstWdogKick by_ v] →
      exec c s = .next t → s.keepsBut t []) ∧
    (∀ (h : Fin 4) (off : BitVec 28) (len : Nat) (ecc : Ecc) (c : Instr), c ∈ [.bar2Read h off len ecc, .scrubBurst ecc] → exec c s = .next t →
      s.keepsBut t ([Reg.domBar2Miss, Reg.domCe, Reg.domUe] ++ (List.range 8).flatMap (fun k => [Reg.stkCe k, Reg.stkUe k])))
end

