-- ==== Sys2Proof/Laws/Sparse.lean ====
section
/-! SUPPORT. Laws of sparse tables: a read after a write, and the canonical form that every operation keeps. -/

namespace Sys2Proof.Laws

open Sys2Proof Sys2Proof.Machine

variable {α : Type}

theorem sget_sinsert (d : Nat → α) (l : Sparse α) (k : Nat) (v : α) (j : Nat)
    (h : ∀ e ∈ l, e.1 ≠ k) : sget d (sinsert l k v) j = if k = j then v else sget d l j := by
  induction l with
  | nil => simp [sinsert, sget]
  | cons e r ih =>
    obtain ⟨i, w⟩ := e
    have hi : i ≠ k := h (i, w) (by simp)
    have ih := ih (fun e he => h e (by simp [he]))
    simp only [sinsert]
    split
    · rename_i hk
      simp only [sget]
    · simp only [sget, ih]
      by_cases h1 : i = j
      · subst h1; simp [Ne.symm hi]
      · simp [h1]

theorem sget_serase_ne (d : Nat → α) (l : Sparse α) {k j : Nat} (h : k ≠ j) : sget d (serase l k) j = sget d l j := by
  induction l with
  | nil => rfl
  | cons e r ih =>
    obtain ⟨i, w⟩ := e
    unfold serase at ih ⊢
    by_cases hi : i = k
    · subst hi; simp [List.filter_cons, sget, ih, h]
    · simp [List.filter_cons, sget, ih, hi]

theorem sget_serase_same (d : Nat → α) (l : Sparse α) (k : Nat) : sget d (serase l k) k = d k := by
  induction l with
  | nil => rfl
  | cons e r ih =>
    obtain ⟨i, w⟩ := e
    unfold serase at ih ⊢
    by_cases hi : i = k
    · subst hi; simpa [List.filter_cons] using ih
    · simpa [List.filter_cons, sget, hi] using ih

theorem serase_ne (l : Sparse α) (k : Nat) : ∀ e ∈ serase l k, e.1 ≠ k := by
  intro e he; simpa [serase] using (List.mem_filter.mp he).2

/-- A read after a write: the key written gives the value, every other key reads as before. -/
theorem sget_sput [DecidableEq α] (d : Nat → α) (l : Sparse α) (k : Nat) (v : α) (j : Nat) :
    sget d (sput d l k v) j = if k = j then v else sget d l j := by
  unfold sput
  split
  · rename_i h; subst h
    by_cases hj : k = j
    · subst hj; simp [sget_serase_same]
    · simp [hj, sget_serase_ne]
  · rw [sget_sinsert _ _ _ _ _ (serase_ne l k)]
    by_cases hj : k = j
    · simp [hj]
    · simp [hj, sget_serase_ne]

@[simp] theorem sget_sput_same [DecidableEq α] (d : Nat → α) (l : Sparse α) (k : Nat) (v : α) : sget d (sput d l k v) k = v := by
  simp [sget_sput]

theorem sget_sput_ne [DecidableEq α] (d : Nat → α) (l : Sparse α) {k j : Nat} (v : α) (h : k ≠ j) :
    sget d (sput d l k v) j = sget d l j := by simp [sget_sput, h]

theorem swfFrom_mono [DecidableEq α] (d : Nat → α) (l : Sparse α) {a b : Nat} (hab : a ≤ b) (h : swfFrom d b l = true) :
    swfFrom d a l = true := by
  cases l with
  | nil => rfl
  | cons e r =>
    obtain ⟨i, w⟩ := e
    simp only [swfFrom, Bool.and_eq_true, decide_eq_true_eq] at h ⊢
    exact ⟨⟨le_trans hab h.1.1, h.1.2⟩, h.2⟩

theorem swfFrom_filter [DecidableEq α] (d : Nat → α) (p : Nat × α → Bool) (l : Sparse α) (a : Nat) (h : swfFrom d a l = true) :
    swfFrom d a (l.filter p) = true := by
  induction l generalizing a with
  | nil => rfl
  | cons e r ih =>
    obtain ⟨i, w⟩ := e
    simp only [swfFrom, Bool.and_eq_true, decide_eq_true_eq] at h
    rw [List.filter_cons]
    split
    · simp only [swfFrom, Bool.and_eq_true, decide_eq_true_eq]
      exact ⟨h.1, ih _ h.2⟩
    · exact swfFrom_mono d _ (by omega) (ih _ h.2)

theorem swfFrom_sinsert [DecidableEq α] (d : Nat → α) (l : Sparse α) (k : Nat) (v : α) (a : Nat) (h : swfFrom d a l = true)
    (ha : a ≤ k) (hv : v ≠ d k) (hk : ∀ e ∈ l, e.1 ≠ k) : swfFrom d a (sinsert l k v) = true := by
  induction l generalizing a with
  | nil => simp [sinsert, swfFrom, ha, hv]
  | cons e r ih =>
    obtain ⟨i, w⟩ := e
    simp only [swfFrom, Bool.and_eq_true, decide_eq_true_eq] at h
    have hi : i ≠ k := hk (i, w) (by simp)
    simp only [sinsert]
    split
    · simp only [swfFrom, Bool.and_eq_true, decide_eq_true_eq]
      exact ⟨⟨ha, hv⟩, ⟨by omega, h.1.2⟩, h.2⟩
    · simp only [swfFrom, Bool.and_eq_true, decide_eq_true_eq]
      exact ⟨h.1, ih _ h.2 (by omega) (fun e he => hk e (by simp [he]))⟩

/-- Removing entries keeps the canonical form. -/
theorem swf_filter [DecidableEq α] (d : Nat → α) (p : Nat × α → Bool) (l : Sparse α) (h : swf d l = true) : swf d (l.filter p) = true :=
  swfFrom_filter d p l 0 h

/-- Every write keeps the canonical form. -/
theorem swf_sput [DecidableEq α] (d : Nat → α) (l : Sparse α) (k : Nat) (v : α) (h : swf d l = true) : swf d (sput d l k v) = true := by
  unfold sput
  split
  · exact swf_filter d _ l h
  · rename_i hv
    exact swfFrom_sinsert d _ k v 0 (swf_filter d _ l h) (Nat.zero_le _) hv (serase_ne l k)

@[simp] theorem swf_nil [DecidableEq α] (d : Nat → α) : swf d ([] : Sparse α) = true := rfl

end Sys2Proof.Laws
end

