-- ==== Sys2Proof/Laws/State.lean ====
section
/-! SUPPORT. One lemma per field and update of State and of its common core, each true by rfl: no later proof unfolds a record update. -/

namespace Sys2Proof.Laws

open Sys2Proof Sys2Proof.Machine

/-! ## A change of the common core -/

@[simp] theorem onBase_base (s : State) (f : Base → Base) : (s.onBase f).base = f s.base := rfl
@[simp] theorem onBase_pending (s : State) (f : Base → Base) : (s.onBase f).pending = s.pending := rfl
@[simp] theorem onBase_cfg (s : State) (f : Base → Base) : (s.onBase f).cfg = s.cfg := rfl
@[simp] theorem onBase_scenes (s : State) (f : Base → Base) : (s.onBase f).scenes = s.scenes := rfl
@[simp] theorem onBase_rings (s : State) (f : Base → Base) : (s.onBase f).rings = s.rings := rfl
@[simp] theorem onBase_dome (s : State) (f : Base → Base) : (s.onBase f).dome = s.dome := rfl
@[simp] theorem onBase_codec (s : State) (f : Base → Base) : (s.onBase f).codec = s.codec := rfl
@[simp] theorem onBase_twd (s : State) (f : Base → Base) : (s.onBase f).twd = s.twd := rfl
@[simp] theorem onBase_adm (s : State) (f : Base → Base) : (s.onBase f).adm = s.adm := rfl
@[simp] theorem onBase_guard (s : State) (f : Base → Base) : (s.onBase f).guard = s.guard := rfl
@[simp] theorem onBase_cmp (s : State) (f : Base → Base) : (s.onBase f).cmp = s.cmp := rfl
@[simp] theorem onBase_spr (s : State) (f : Base → Base) : (s.onBase f).spr = s.spr := rfl
@[simp] theorem onBase_sco (s : State) (f : Base → Base) : (s.onBase f).sco = s.sco := rfl
@[simp] theorem onBase_pnl (s : State) (f : Base → Base) : (s.onBase f).pnl = s.pnl := rfl
@[simp] theorem onBase_sxt (s : State) (f : Base → Base) : (s.onBase f).sxt = s.sxt := rfl
@[simp] theorem onBase_bcn (s : State) (f : Base → Base) : (s.onBase f).bcn = s.bcn := rfl
@[simp] theorem onBase_blf (s : State) (f : Base → Base) : (s.onBase f).blf = s.blf := rfl
@[simp] theorem onBase_par (s : State) (f : Base → Base) : (s.onBase f).par = s.par := rfl
@[simp] theorem onBase_doe (s : State) (f : Base → Base) : (s.onBase f).doe = s.doe := rfl
@[simp] theorem onBase_pwr (s : State) (f : Base → Base) : (s.onBase f).pwr = s.pwr := rfl
@[simp] theorem onBase_thm (s : State) (f : Base → Base) : (s.onBase f).thm = s.thm := rfl
@[simp] theorem onBase_cal (s : State) (f : Base → Base) : (s.onBase f).cal = s.cal := rfl
@[simp] theorem onBase_queries (s : State) (f : Base → Base) : (s.onBase f).queries = s.queries := rfl
@[simp] theorem onBase_hlm (s : State) (f : Base → Base) : (s.onBase f).hlm = s.hlm := rfl
@[simp] theorem onBase_wch (s : State) (f : Base → Base) : (s.onBase f).wch = s.wch := rfl

/-! ## Base.setWord -/

@[simp] theorem setWord_ticks (b : Base) (k : Nat) (v : BitVec 32) : (b.setWord k v).ticks = b.ticks := rfl
@[simp] theorem setWord_acc (b : Base) (k : Nat) (v : BitVec 32) : (b.setWord k v).acc = b.acc := rfl
@[simp] theorem setWord_own (b : Base) (k : Nat) (v : BitVec 32) : (b.setWord k v).own = b.own := rfl
@[simp] theorem setWord_nhosts (b : Base) (k : Nat) (v : BitVec 32) : (b.setWord k v).nhosts = b.nhosts := rfl
@[simp] theorem setWord_owner (b : Base) (k : Nat) (v : BitVec 32) : (b.setWord k v).owner = b.owner := rfl
@[simp] theorem setWord_links (b : Base) (k : Nat) (v : BitVec 32) : (b.setWord k v).links = b.links := rfl
@[simp] theorem setWord_logs (b : Base) (k : Nat) (v : BitVec 32) : (b.setWord k v).logs = b.logs := rfl
@[simp] theorem setWord_out (b : Base) (k : Nat) (v : BitVec 32) : (b.setWord k v).out = b.out := rfl
@[simp] theorem setWord_fresh (b : Base) (k : Nat) (v : BitVec 32) : (b.setWord k v).fresh = b.fresh := rfl
@[simp] theorem setWord_wire (b : Base) (k : Nat) (v : BitVec 32) : (b.setWord k v).wire = b.wire := rfl
@[simp] theorem setWord_rootWaits (b : Base) (k : Nat) (v : BitVec 32) : (b.setWord k v).rootWaits = b.rootWaits := rfl

/-! ## Base.put -/

@[simp] theorem put_ticks (b : Base) (f : FieldRef) (v : Nat) : (b.put f v).ticks = b.ticks := rfl
@[simp] theorem put_acc (b : Base) (f : FieldRef) (v : Nat) : (b.put f v).acc = b.acc := rfl
@[simp] theorem put_own (b : Base) (f : FieldRef) (v : Nat) : (b.put f v).own = b.own := rfl
@[simp] theorem put_nhosts (b : Base) (f : FieldRef) (v : Nat) : (b.put f v).nhosts = b.nhosts := rfl
@[simp] theorem put_owner (b : Base) (f : FieldRef) (v : Nat) : (b.put f v).owner = b.owner := rfl
@[simp] theorem put_links (b : Base) (f : FieldRef) (v : Nat) : (b.put f v).links = b.links := rfl
@[simp] theorem put_logs (b : Base) (f : FieldRef) (v : Nat) : (b.put f v).logs = b.logs := rfl
@[simp] theorem put_out (b : Base) (f : FieldRef) (v : Nat) : (b.put f v).out = b.out := rfl
@[simp] theorem put_fresh (b : Base) (f : FieldRef) (v : Nat) : (b.put f v).fresh = b.fresh := rfl
@[simp] theorem put_wire (b : Base) (f : FieldRef) (v : Nat) : (b.put f v).wire = b.wire := rfl
@[simp] theorem put_rootWaits (b : Base) (f : FieldRef) (v : Nat) : (b.put f v).rootWaits = b.rootWaits := rfl

/-! ## Base.putFlag -/

@[simp] theorem putFlag_ticks (b : Base) (f : FieldRef) (v : Bool) : (b.putFlag f v).ticks = b.ticks := rfl
@[simp] theorem putFlag_acc (b : Base) (f : FieldRef) (v : Bool) : (b.putFlag f v).acc = b.acc := rfl
@[simp] theorem putFlag_own (b : Base) (f : FieldRef) (v : Bool) : (b.putFlag f v).own = b.own := rfl
@[simp] theorem putFlag_nhosts (b : Base) (f : FieldRef) (v : Bool) : (b.putFlag f v).nhosts = b.nhosts := rfl
@[simp] theorem putFlag_owner (b : Base) (f : FieldRef) (v : Bool) : (b.putFlag f v).owner = b.owner := rfl
@[simp] theorem putFlag_links (b : Base) (f : FieldRef) (v : Bool) : (b.putFlag f v).links = b.links := rfl
@[simp] theorem putFlag_logs (b : Base) (f : FieldRef) (v : Bool) : (b.putFlag f v).logs = b.logs := rfl
@[simp] theorem putFlag_out (b : Base) (f : FieldRef) (v : Bool) : (b.putFlag f v).out = b.out := rfl
@[simp] theorem putFlag_fresh (b : Base) (f : FieldRef) (v : Bool) : (b.putFlag f v).fresh = b.fresh := rfl
@[simp] theorem putFlag_wire (b : Base) (f : FieldRef) (v : Bool) : (b.putFlag f v).wire = b.wire := rfl
@[simp] theorem putFlag_rootWaits (b : Base) (f : FieldRef) (v : Bool) : (b.putFlag f v).rootWaits = b.rootWaits := rfl

/-! ## Base.count -/

@[simp] theorem count_ticks (b : Base) (f : FieldRef) (n : Nat) : (b.count f n).ticks = b.ticks := rfl
@[simp] theorem count_acc (b : Base) (f : FieldRef) (n : Nat) : (b.count f n).acc = b.acc := rfl
@[simp] theorem count_own (b : Base) (f : FieldRef) (n : Nat) : (b.count f n).own = b.own := rfl
@[simp] theorem count_nhosts (b : Base) (f : FieldRef) (n : Nat) : (b.count f n).nhosts = b.nhosts := rfl
@[simp] theorem count_owner (b : Base) (f : FieldRef) (n : Nat) : (b.count f n).owner = b.owner := rfl
@[simp] theorem count_links (b : Base) (f : FieldRef) (n : Nat) : (b.count f n).links = b.links := rfl
@[simp] theorem count_logs (b : Base) (f : FieldRef) (n : Nat) : (b.count f n).logs = b.logs := rfl
@[simp] theorem count_out (b : Base) (f : FieldRef) (n : Nat) : (b.count f n).out = b.out := rfl
@[simp] theorem count_fresh (b : Base) (f : FieldRef) (n : Nat) : (b.count f n).fresh = b.fresh := rfl
@[simp] theorem count_wire (b : Base) (f : FieldRef) (n : Nat) : (b.count f n).wire = b.wire := rfl
@[simp] theorem count_rootWaits (b : Base) (f : FieldRef) (n : Nat) : (b.count f n).rootWaits = b.rootWaits := rfl

/-! ## Base.emit -/

@[simp] theorem emit_regs (b : Base) (o : Output) : (b.emit o).regs = b.regs := rfl
@[simp] theorem emit_ticks (b : Base) (o : Output) : (b.emit o).ticks = b.ticks := rfl
@[simp] theorem emit_acc (b : Base) (o : Output) : (b.emit o).acc = b.acc := rfl
@[simp] theorem emit_own (b : Base) (o : Output) : (b.emit o).own = b.own := rfl
@[simp] theorem emit_nhosts (b : Base) (o : Output) : (b.emit o).nhosts = b.nhosts := rfl
@[simp] theorem emit_owner (b : Base) (o : Output) : (b.emit o).owner = b.owner := rfl
@[simp] theorem emit_links (b : Base) (o : Output) : (b.emit o).links = b.links := rfl
@[simp] theorem emit_logs (b : Base) (o : Output) : (b.emit o).logs = b.logs := rfl
@[simp] theorem emit_fresh (b : Base) (o : Output) : (b.emit o).fresh = b.fresh := rfl
@[simp] theorem emit_wire (b : Base) (o : Output) : (b.emit o).wire = b.wire := rfl
@[simp] theorem emit_rootWaits (b : Base) (o : Output) : (b.emit o).rootWaits = b.rootWaits := rfl

/-! ## Base.setLink -/

@[simp] theorem setLink_regs (b : Base) (h : Nat) (l : Link) : (b.setLink h l).regs = b.regs := rfl
@[simp] theorem setLink_ticks (b : Base) (h : Nat) (l : Link) : (b.setLink h l).ticks = b.ticks := rfl
@[simp] theorem setLink_acc (b : Base) (h : Nat) (l : Link) : (b.setLink h l).acc = b.acc := rfl
@[simp] theorem setLink_own (b : Base) (h : Nat) (l : Link) : (b.setLink h l).own = b.own := rfl
@[simp] theorem setLink_nhosts (b : Base) (h : Nat) (l : Link) : (b.setLink h l).nhosts = b.nhosts := rfl
@[simp] theorem setLink_owner (b : Base) (h : Nat) (l : Link) : (b.setLink h l).owner = b.owner := rfl
@[simp] theorem setLink_logs (b : Base) (h : Nat) (l : Link) : (b.setLink h l).logs = b.logs := rfl
@[simp] theorem setLink_out (b : Base) (h : Nat) (l : Link) : (b.setLink h l).out = b.out := rfl
@[simp] theorem setLink_fresh (b : Base) (h : Nat) (l : Link) : (b.setLink h l).fresh = b.fresh := rfl
@[simp] theorem setLink_wire (b : Base) (h : Nat) (l : Link) : (b.setLink h l).wire = b.wire := rfl
@[simp] theorem setLink_rootWaits (b : Base) (h : Nat) (l : Link) : (b.setLink h l).rootWaits = b.rootWaits := rfl

/-! ## Base.setLogq -/

@[simp] theorem setLogq_regs (b : Base) (i : Nat) (q : LogQ) : (b.setLogq i q).regs = b.regs := rfl
@[simp] theorem setLogq_ticks (b : Base) (i : Nat) (q : LogQ) : (b.setLogq i q).ticks = b.ticks := rfl
@[simp] theorem setLogq_acc (b : Base) (i : Nat) (q : LogQ) : (b.setLogq i q).acc = b.acc := rfl
@[simp] theorem setLogq_own (b : Base) (i : Nat) (q : LogQ) : (b.setLogq i q).own = b.own := rfl
@[simp] theorem setLogq_nhosts (b : Base) (i : Nat) (q : LogQ) : (b.setLogq i q).nhosts = b.nhosts := rfl
@[simp] theorem setLogq_owner (b : Base) (i : Nat) (q : LogQ) : (b.setLogq i q).owner = b.owner := rfl
@[simp] theorem setLogq_links (b : Base) (i : Nat) (q : LogQ) : (b.setLogq i q).links = b.links := rfl
@[simp] theorem setLogq_out (b : Base) (i : Nat) (q : LogQ) : (b.setLogq i q).out = b.out := rfl
@[simp] theorem setLogq_fresh (b : Base) (i : Nat) (q : LogQ) : (b.setLogq i q).fresh = b.fresh := rfl
@[simp] theorem setLogq_wire (b : Base) (i : Nat) (q : LogQ) : (b.setLogq i q).wire = b.wire := rfl
@[simp] theorem setLogq_rootWaits (b : Base) (i : Nat) (q : LogQ) : (b.setLogq i q).rootWaits = b.rootWaits := rfl

/-! ## Base.draw -/

@[simp] theorem draw_regs (b : Base) : (b.draw).regs = b.regs := rfl
@[simp] theorem draw_ticks (b : Base) : (b.draw).ticks = b.ticks := rfl
@[simp] theorem draw_acc (b : Base) : (b.draw).acc = b.acc := rfl
@[simp] theorem draw_own (b : Base) : (b.draw).own = b.own := rfl
@[simp] theorem draw_nhosts (b : Base) : (b.draw).nhosts = b.nhosts := rfl
@[simp] theorem draw_owner (b : Base) : (b.draw).owner = b.owner := rfl
@[simp] theorem draw_links (b : Base) : (b.draw).links = b.links := rfl
@[simp] theorem draw_logs (b : Base) : (b.draw).logs = b.logs := rfl
@[simp] theorem draw_out (b : Base) : (b.draw).out = b.out := rfl
@[simp] theorem emit_out (b : Base) (o : Output) : (b.emit o).out = o :: b.out := rfl
@[simp] theorem draw_fresh (b : Base) : b.draw.fresh = b.fresh + 1 := rfl

end Sys2Proof.Laws
end

