-- ==== Sys2Proof/Laws/Ops.lean ====
section
/-! SUPPORT. Laws of the operations on registers and fields: what a field reads after a write of it, of another field of its register, and of another register. -/

namespace Sys2Proof.Laws

open Sys2Proof Sys2Proof.Machine

/-! ## Bit fields -/

theorem bits_eq (x m l : Nat) : bits x m l = x / 2 ^ l % 2 ^ (m + 1 - l) := by
  rw [bits, Nat.shiftRight_eq_div_pow]

theorem bits_eq_mod_div (x m l : Nat) (h : l ≤ m) : bits x m l = x % 2 ^ (m + 1) / 2 ^ l := by
  rw [bits_eq]
  have e : 2 ^ (m + 1) = 2 ^ l * 2 ^ (m + 1 - l) := by rw [← pow_add]; congr 1; omega
  rw [e, Nat.mod_mul_right_div_self]

theorem bits_lt (x m l : Nat) : bits x m l < 2 ^ (m + 1 - l) := by
  rw [bits]; exact Nat.mod_lt _ (by positivity)

/-- A number as the part above a field, the field, and the part below it. -/
theorem bits_split (x m l : Nat) (h : l ≤ m) : x = x / 2 ^ (m + 1) * 2 ^ (m + 1) + bits x m l * 2 ^ l + x % 2 ^ l := by
  have e : 2 ^ (m + 1) = 2 ^ l * 2 ^ (m + 1 - l) := by rw [← pow_add]; congr 1; omega
  have h1 : x / 2 ^ (m + 1) = x / 2 ^ l / 2 ^ (m + 1 - l) := by rw [e, Nat.div_div_eq_div_mul]
  have h2 := Nat.div_add_mod (x / 2 ^ l) (2 ^ (m + 1 - l))
  have h3 := Nat.div_add_mod x (2 ^ l)
  rw [bits_eq, h1]
  calc x = 2 ^ l * (x / 2 ^ l) + x % 2 ^ l := h3.symm
    _ = 2 ^ l * (2 ^ (m + 1 - l) * (x / 2 ^ l / 2 ^ (m + 1 - l)) + x / 2 ^ l % 2 ^ (m + 1 - l)) + x % 2 ^ l := by rw [h2]
    _ = _ := by rw [e]; ring

theorem setBits_raw (x m l v : Nat) (h : l ≤ m) :
    x - bits x m l * 2 ^ l + v % 2 ^ (m + 1 - l) * 2 ^ l
      = x / 2 ^ (m + 1) * 2 ^ (m + 1) + v % 2 ^ (m + 1 - l) * 2 ^ l + x % 2 ^ l := by
  have := bits_split x m l h
  omega

theorem field_bound (m l v r : Nat) (h : l ≤ m) (hr : r < 2 ^ l) : v % 2 ^ (m + 1 - l) * 2 ^ l + r < 2 ^ (m + 1) := by
  have e : 2 ^ (m + 1) = 2 ^ (m + 1 - l) * 2 ^ l := by rw [← pow_add]; congr 1; omega
  have hv : v % 2 ^ (m + 1 - l) < 2 ^ (m + 1 - l) := Nat.mod_lt _ (by positivity)
  have : (v % 2 ^ (m + 1 - l) + 1) * 2 ^ l ≤ 2 ^ (m + 1 - l) * 2 ^ l := Nat.mul_le_mul_right _ hv
  rw [e]
  have h2 : (v % 2 ^ (m + 1 - l) + 1) * 2 ^ l = v % 2 ^ (m + 1 - l) * 2 ^ l + 2 ^ l := by ring
  omega

theorem setBits_toNat (w : BitVec 32) (m l v : Nat) (h : l ≤ m) (hm : m ≤ 31) :
    (setBits w m l v).toNat = w.toNat / 2 ^ (m + 1) * 2 ^ (m + 1) + v % 2 ^ (m + 1 - l) * 2 ^ l + w.toNat % 2 ^ l := by
  rw [setBits, setBits_raw _ _ _ _ h, BitVec.toNat_ofNat]
  apply Nat.mod_eq_of_lt
  have hb := field_bound m l v (w.toNat % 2 ^ l) h (Nat.mod_lt _ (by positivity))
  have hw := w.isLt
  have e : 2 ^ 32 = 2 ^ (31 - m) * 2 ^ (m + 1) := by rw [← pow_add]; congr 1; omega
  have hd : w.toNat / 2 ^ (m + 1) < 2 ^ (31 - m) := Nat.div_lt_of_lt_mul (by rw [mul_comm, ← e]; exact hw)
  have h2 : (w.toNat / 2 ^ (m + 1) + 1) * 2 ^ (m + 1) ≤ 2 ^ (31 - m) * 2 ^ (m + 1) := Nat.mul_le_mul_right _ hd
  have h3 : (w.toNat / 2 ^ (m + 1) + 1) * 2 ^ (m + 1) = w.toNat / 2 ^ (m + 1) * 2 ^ (m + 1) + 2 ^ (m + 1) := by ring
  omega

/-- A field reads the value written to it. -/
theorem getBits_setBits_same (w : BitVec 32) (m l v : Nat) (h : l ≤ m) (hm : m ≤ 31) :
    getBits (setBits w m l v) m l = v % 2 ^ (m + 1 - l) := by
  rw [getBits, setBits_toNat w m l v h hm, bits_eq_mod_div _ _ _ h, add_assoc, Nat.mul_add_mod_self_right,
    Nat.mod_eq_of_lt (field_bound m l v _ h (Nat.mod_lt _ (by positivity))), mul_comm _ (2 ^ l),
    Nat.mul_add_div (by positivity), Nat.div_eq_of_lt (Nat.mod_lt _ (by positivity))]
  rfl

/-- A write of a field leaves every field that does not meet it. -/
theorem getBits_setBits_ne (w : BitVec 32) (m l v m' l' : Nat) (h : l ≤ m) (hm : m ≤ 31) (h' : l' ≤ m') (hd : m < l' ∨ m' < l) :
    getBits (setBits w m l v) m' l' = getBits w m' l' := by
  rw [getBits, getBits, setBits_toNat w m l v h hm]
  rcases hd with hd | hd
  · rw [bits_eq, bits_eq]
    have e : 2 ^ l' = 2 ^ (m + 1) * 2 ^ (l' - (m + 1)) := by rw [← pow_add]; congr 1; omega
    rw [e, ← Nat.div_div_eq_div_mul, ← Nat.div_div_eq_div_mul, add_assoc, mul_comm _ (2 ^ (m + 1)),
      Nat.mul_add_div (by positivity),
      Nat.div_eq_of_lt (field_bound m l v _ h (Nat.mod_lt _ (by positivity)))]
    rfl
  · rw [bits_eq_mod_div _ _ _ h', bits_eq_mod_div _ _ _ h']
    congr 1
    have e1 : 2 ^ (m + 1) = 2 ^ (m' + 1) * 2 ^ (m - m') := by rw [← pow_add]; congr 1; omega
    have e2 : 2 ^ l = 2 ^ (m' + 1) * 2 ^ (l - (m' + 1)) := by rw [← pow_add]; congr 1; omega
    have hx : w.toNat % 2 ^ l % 2 ^ (m' + 1) = w.toNat % 2 ^ (m' + 1) := Nat.mod_mod_of_dvd _ ⟨_, e2⟩
    rw [← hx]
    generalize w.toNat / 2 ^ (m + 1) = A
    generalize v % 2 ^ (m + 1 - l) = V
    generalize w.toNat % 2 ^ l = R
    have : A * 2 ^ (m + 1) + V * 2 ^ l + R = 2 ^ (m' + 1) * (A * 2 ^ (m - m') + V * 2 ^ (l - (m' + 1))) + R := by
      rw [e1, e2]; ring
    rw [this, Nat.mul_add_mod]

/-! ## Registers -/

@[simp] theorem word_setWord_same (b : Base) (k : Nat) (v : BitVec 32) : (b.setWord k v).word k = v := by
  simp [Base.word, Base.setWord]

theorem word_setWord_ne (b : Base) {k j : Nat} (v : BitVec 32) (h : k ≠ j) : (b.setWord k v).word j = b.word j := by
  simp [Base.word, Base.setWord, sget_sput_ne _ _ _ h]

/-- A register write leaves every other register. -/
theorem word_setWord (b : Base) (k j : Nat) (v : BitVec 32) : (b.setWord k v).word j = if k = j then v else b.word j := by
  simp [Base.word, Base.setWord, sget_sput]

theorem word_put_ne (b : Base) (f : FieldRef) (v : Nat) {j : Nat} (h : f.key ≠ j) : (b.put f v).word j = b.word j :=
  word_setWord_ne b _ h

theorem word_putFlag_ne (b : Base) (f : FieldRef) (v : Bool) {j : Nat} (h : f.key ≠ j) : (b.putFlag f v).word j = b.word j :=
  word_put_ne b f _ h

theorem word_count_ne (b : Base) (f : FieldRef) (n : Nat) {j : Nat} (h : f.key ≠ j) : (b.count f n).word j = b.word j :=
  word_put_ne b f _ h

@[simp] theorem word_emit (b : Base) (o : Output) (j : Nat) : (b.emit o).word j = b.word j := rfl
@[simp] theorem get_emit (b : Base) (o : Output) (f : FieldRef) : (b.emit o).get f = b.get f := rfl
@[simp] theorem flag_emit (b : Base) (o : Output) (f : FieldRef) : (b.emit o).flag f = b.flag f := rfl
@[simp] theorem word_setLink (b : Base) (h : Nat) (l : Link) (j : Nat) : (b.setLink h l).word j = b.word j := rfl
@[simp] theorem get_setLink (b : Base) (h : Nat) (l : Link) (f : FieldRef) : (b.setLink h l).get f = b.get f := rfl
@[simp] theorem word_setLogq (b : Base) (i : Nat) (q : LogQ) (j : Nat) : (b.setLogq i q).word j = b.word j := rfl
@[simp] theorem get_setLogq (b : Base) (i : Nat) (q : LogQ) (f : FieldRef) : (b.setLogq i q).get f = b.get f := rfl
@[simp] theorem word_draw (b : Base) (j : Nat) : b.draw.word j = b.word j := rfl

/-- A field whose bits lie in order within 32 bits. -/
def FieldOk (f : FieldRef) : Prop := f.lsb ≤ f.msb ∧ f.msb ≤ 31

/-- A field reads the value put into it. -/
theorem get_put_same (b : Base) (f : FieldRef) (v : Nat) (h : FieldOk f) : (b.put f v).get f = v % 2 ^ (f.msb + 1 - f.lsb) := by
  simp [Base.get, Base.put, getBits_setBits_same _ _ _ _ h.1 h.2]

/-- A field of another register reads as before. -/
theorem get_put_key (b : Base) (f g : FieldRef) (v : Nat) (h : f.key ≠ g.key) : (b.put f v).get g = b.get g := by
  simp [Base.get, Base.put, word_setWord_ne _ _ h]

/-- A field of the same register that does not meet it reads as before. -/
theorem get_put_ne (b : Base) (f g : FieldRef) (v : Nat) (h : FieldOk f) (hg : FieldOk g) (hd : f.msb < g.lsb ∨ g.msb < f.lsb) :
    (b.put f v).get g = b.get g := by
  by_cases hk : f.key = g.key
  · simp only [Base.get, Base.put, hk, word_setWord_same]
    exact getBits_setBits_ne _ _ _ _ _ _ h.1 h.2 hg.1 hd
  · exact get_put_key b f g v hk

theorem flag_putFlag_same (b : Base) (f : FieldRef) (v : Bool) (h : f.msb = f.lsb) (hm : f.msb ≤ 31) : (b.putFlag f v).flag f = v := by
  have hw : f.msb + 1 - f.lsb = 1 := by omega
  rw [Base.flag, Base.putFlag, get_put_same b f _ ⟨by omega, hm⟩, hw]
  cases v <;> decide

/-! ## The canonical form of the register file -/

/-- Every register write keeps the register file canonical. -/
theorem regs_setWord (b : Base) (k : Nat) (v : BitVec 32) (h : swf coldWord b.regs = true) : swf coldWord (b.setWord k v).regs = true :=
  swf_sput coldWord b.regs k v h

theorem regs_put (b : Base) (f : FieldRef) (v : Nat) (h : swf coldWord b.regs = true) : swf coldWord (b.put f v).regs = true :=
  regs_setWord b _ _ h

theorem regs_putFlag (b : Base) (f : FieldRef) (v : Bool) (h : swf coldWord b.regs = true) : swf coldWord (b.putFlag f v).regs = true :=
  regs_setWord b _ _ h

theorem regs_count (b : Base) (f : FieldRef) (n : Nat) (h : swf coldWord b.regs = true) : swf coldWord (b.count f n).regs = true :=
  regs_setWord b _ _ h

end Sys2Proof.Laws
end

