-- ==== Sys2Proof/Laws/Flags.lean ====
section
/-! SUPPORT. Laws of events, faults, violations and unit states: what each of these shared operations can change. -/

namespace Sys2Proof.Laws

open Sys2Proof Sys2Proof.Machine

theorem unitReg_hdr {k : Nat} (h : unitReg k = true) (p off : Nat) (ho : off < 0x40) : hdr p off ≠ k := by
  simp only [unitReg, Bool.and_eq_true, decide_eq_true_eq] at h
  unfold hdr; omega

theorem unitReg_lost {k : Nat} (h : unitReg k = true) (i : Nat) (hi : i < 8) : (logLost i).key ≠ k := by
  simp only [unitReg, Bool.and_eq_true, Bool.not_eq_true', List.any_eq_false, List.mem_range, beq_iff_eq] at h
  exact h.2 i hi

/-! ## Messages -/

theorem msix_regs (b : Base) (h v : Nat) : (b.msix h v).regs = b.regs := by unfold Base.msix; split <;> rfl
theorem msix_own (b : Base) (h v : Nat) : (b.msix h v).own = b.own := by unfold Base.msix; split <;> rfl
theorem msix_logs (b : Base) (h v : Nat) : (b.msix h v).logs = b.logs := by unfold Base.msix; split <;> rfl
theorem msix_acc (b : Base) (h v : Nat) : (b.msix h v).acc = b.acc := by unfold Base.msix; split <;> rfl
theorem msix_ticks (b : Base) (h v : Nat) : (b.msix h v).ticks = b.ticks := by unfold Base.msix; split <;> rfl
theorem msix_fresh (b : Base) (h v : Nat) : (b.msix h v).fresh = b.fresh := by unfold Base.msix; split <;> rfl
theorem msix_nhosts (b : Base) (h v : Nat) : (b.msix h v).nhosts = b.nhosts := by unfold Base.msix; split <;> rfl
theorem msix_owner (b : Base) (h v : Nat) : (b.msix h v).owner = b.owner := by unfold Base.msix; split <;> rfl

/-- Sending messages touches no register, no state, no log and no time: only what was sent and the pending vectors. -/
theorem msixAll_same (l : List (Nat × Nat)) (b : Base) :
    (b.msixAll l).regs = b.regs ∧ (b.msixAll l).own = b.own ∧ (b.msixAll l).logs = b.logs ∧ (b.msixAll l).acc = b.acc ∧
      (b.msixAll l).ticks = b.ticks ∧ (b.msixAll l).fresh = b.fresh ∧ (b.msixAll l).nhosts = b.nhosts ∧ (b.msixAll l).owner = b.owner := by
  induction l generalizing b with
  | nil => simp [Base.msixAll]
  | cons e r ih =>
    obtain ⟨h, v⟩ := e
    simp only [Base.msixAll]
    obtain ⟨h1, h2, h3, h4, h5, h6, h7, h8⟩ := ih (b.msix h v)
    exact ⟨h1.trans (msix_regs ..), h2.trans (msix_own ..), h3.trans (msix_logs ..), h4.trans (msix_acc ..), h5.trans (msix_ticks ..),
      h6.trans (msix_fresh ..), h7.trans (msix_nhosts ..), h8.trans (msix_owner ..)⟩

@[simp] theorem msixAll_regs (b : Base) (l : List (Nat × Nat)) : (b.msixAll l).regs = b.regs := (msixAll_same l b).1
@[simp] theorem msixAll_own (b : Base) (l : List (Nat × Nat)) : (b.msixAll l).own = b.own := (msixAll_same l b).2.1
@[simp] theorem msixAll_logs (b : Base) (l : List (Nat × Nat)) : (b.msixAll l).logs = b.logs := (msixAll_same l b).2.2.1
@[simp] theorem msixAll_acc (b : Base) (l : List (Nat × Nat)) : (b.msixAll l).acc = b.acc := (msixAll_same l b).2.2.2.1
@[simp] theorem msixAll_ticks (b : Base) (l : List (Nat × Nat)) : (b.msixAll l).ticks = b.ticks := (msixAll_same l b).2.2.2.2.1
@[simp] theorem msixAll_fresh (b : Base) (l : List (Nat × Nat)) : (b.msixAll l).fresh = b.fresh := (msixAll_same l b).2.2.2.2.2.1
@[simp] theorem msixAll_nhosts (b : Base) (l : List (Nat × Nat)) : (b.msixAll l).nhosts = b.nhosts := (msixAll_same l b).2.2.2.2.2.2.1
@[simp] theorem msixAll_owner (b : Base) (l : List (Nat × Nat)) : (b.msixAll l).owner = b.owner := (msixAll_same l b).2.2.2.2.2.2.2

@[simp] theorem word_msixAll (b : Base) (l : List (Nat × Nat)) (k : Nat) : (b.msixAll l).word k = b.word k := by simp [Base.word]
@[simp] theorem get_msixAll (b : Base) (l : List (Nat × Nat)) (f : FieldRef) : (b.msixAll l).get f = b.get f := by simp [Base.get]
@[simp] theorem flag_msixAll (b : Base) (l : List (Nat × Nat)) (f : FieldRef) : (b.msixAll l).flag f = b.flag f := by simp [Base.flag]

/-! ## Events -/

@[simp] theorem setEvents_own (b : Base) (p : Nat) (w : BitVec 32) (a : Bool) : (b.setEvents p w a).own = b.own := by simp [Base.setEvents]
@[simp] theorem setEvents_logs (b : Base) (p : Nat) (w : BitVec 32) (a : Bool) : (b.setEvents p w a).logs = b.logs := by simp [Base.setEvents]
@[simp] theorem setEvents_acc (b : Base) (p : Nat) (w : BitVec 32) (a : Bool) : (b.setEvents p w a).acc = b.acc := by simp [Base.setEvents]
@[simp] theorem setEvents_ticks (b : Base) (p : Nat) (w : BitVec 32) (a : Bool) : (b.setEvents p w a).ticks = b.ticks := by simp [Base.setEvents]
@[simp] theorem setEvents_fresh (b : Base) (p : Nat) (w : BitVec 32) (a : Bool) : (b.setEvents p w a).fresh = b.fresh := by simp [Base.setEvents]
@[simp] theorem setEvents_nhosts (b : Base) (p : Nat) (w : BitVec 32) (a : Bool) : (b.setEvents p w a).nhosts = b.nhosts := by simp [Base.setEvents]
@[simp] theorem setEvents_owner (b : Base) (p : Nat) (w : BitVec 32) (a : Bool) : (b.setEvents p w a).owner = b.owner := by simp [Base.setEvents]

/-- UNIT_EVENT takes the value; no other register changes. -/
theorem word_setEvents (b : Base) (p : Nat) (w : BitVec 32) (a : Bool) (k : Nat) :
    (b.setEvents p w a).word k = if hdr p 0x18 = k then w else b.word k := by simp [Base.setEvents, word_setWord]

@[simp] theorem raise_own (b : Base) (p n : Nat) : (b.raise p n).own = b.own := by simp [Base.raise, Base.raiseMask]
@[simp] theorem raise_logs (b : Base) (p n : Nat) : (b.raise p n).logs = b.logs := by simp [Base.raise, Base.raiseMask]
@[simp] theorem raise_acc (b : Base) (p n : Nat) : (b.raise p n).acc = b.acc := by simp [Base.raise, Base.raiseMask]
@[simp] theorem raise_ticks (b : Base) (p n : Nat) : (b.raise p n).ticks = b.ticks := by simp [Base.raise, Base.raiseMask]
@[simp] theorem raise_fresh (b : Base) (p n : Nat) : (b.raise p n).fresh = b.fresh := by simp [Base.raise, Base.raiseMask]
@[simp] theorem raise_nhosts (b : Base) (p n : Nat) : (b.raise p n).nhosts = b.nhosts := by simp [Base.raise, Base.raiseMask]
@[simp] theorem raise_owner (b : Base) (p n : Nat) : (b.raise p n).owner = b.owner := by simp [Base.raise, Base.raiseMask]

/-- Raising an event sets its bit in UNIT_EVENT and changes no other register (R54, R56). -/
theorem word_raise (b : Base) (p n k : Nat) :
    (b.raise p n).word k = if hdr p 0x18 = k then b.word k ||| BitVec.ofNat 32 (2 ^ n) else b.word k := by
  simp only [Base.raise, Base.raiseMask, word_setEvents]
  split
  · rename_i h; rw [h]
  · rfl

theorem word_raise_ne (b : Base) (p n : Nat) {k : Nat} (h : hdr p 0x18 ≠ k) : (b.raise p n).word k = b.word k := by simp [word_raise, h]

theorem word_raise_unit (b : Base) (p n : Nat) {k : Nat} (h : unitReg k = true) : (b.raise p n).word k = b.word k :=
  word_raise_ne b p n (unitReg_hdr h p _ (by decide))

theorem get_raise_unit (b : Base) (p n : Nat) (f : FieldRef) (h : unitReg f.key = true) : (b.raise p n).get f = b.get f := by
  simp [Base.get, word_raise_unit b p n h]

/-! ## Unit states -/

/-- STATE events change UNIT_EVENT registers only, and neither states nor logs. -/
theorem stateEvents_same (old : Base) (ps : List Nat) (b : Base) :
    (Base.stateEvents old b ps).own = b.own ∧ (Base.stateEvents old b ps).logs = b.logs ∧ (Base.stateEvents old b ps).acc = b.acc ∧
      (Base.stateEvents old b ps).ticks = b.ticks ∧ ∀ k, k % 4096 ≠ 0x18 → (Base.stateEvents old b ps).word k = b.word k := by
  induction ps generalizing b with
  | nil => simp [Base.stateEvents]
  | cons p r ih =>
    simp only [Base.stateEvents]
    obtain ⟨h1, h2, h3, h4, h5⟩ := ih (if old.unitState p = b.unitState p then b else b.raise p 0)
    refine ⟨h1.trans ?_, h2.trans ?_, h3.trans ?_, h4.trans ?_, fun k hk => (h5 k hk).trans ?_⟩
    all_goals split
    all_goals first | rfl | simp | exact word_raise_ne _ _ _ (by unfold hdr; omega)

/-- The own state of a page after setOwn: the value given, unless the page has lost its clock. -/
theorem setOwn_own (b : Base) (p st : Nat) (h : b.ownState p ≠ uNOCLOCK) : (b.setOwn p st).ownState p = st := by
  unfold Base.setOwn
  split
  · rename_i hc
    simp only [Bool.or_eq_true, decide_eq_true_eq] at hc
    rcases hc with hc | hc
    · exact hc
    · exact absurd hc h
  · simp only [Base.ownState, (stateEvents_same _ _ _).1, sget_sput_same]

/-- setOwn changes no other page's own state. -/
theorem setOwn_other (b : Base) {p q : Nat} (st : Nat) (h : p ≠ q) : (b.setOwn p st).ownState q = b.ownState q := by
  unfold Base.setOwn
  split
  · rfl
  · simp only [Base.ownState, (stateEvents_same _ _ _).1, sget_sput_ne _ _ _ h]

theorem word_setOwn (b : Base) (p st : Nat) {k : Nat} (h : k % 4096 ≠ 0x18) : (b.setOwn p st).word k = b.word k := by
  unfold Base.setOwn
  split
  · rfl
  · exact (stateEvents_same _ _ _).2.2.2.2 k h

theorem word_setOwn_unit (b : Base) (p st : Nat) {k : Nat} (h : unitReg k = true) : (b.setOwn p st).word k = b.word k := by
  refine word_setOwn b p st ?_
  simp only [unitReg, Bool.and_eq_true, decide_eq_true_eq] at h
  omega

/-! ## Logs, faults, violations -/

theorem word_logPush (b : Base) (i : Nat) (e : LogEntry) (hi : i < 8) {k : Nat} (h : unitReg k = true) :
    (b.logPush i e).word k = b.word k := by
  simp only [Base.logPush]
  split
  · rfl
  · rw [word_raise_unit _ _ _ h, word_count_ne _ _ _ (unitReg_lost h i hi)]; rfl

theorem word_logPush_lt (b : Base) (i : Nat) (e : LogEntry) (hq : (b.logq i).waiting.length < 64) (k : Nat) :
    (b.logPush i e).word k = b.word k := by
  simp only [Base.logPush, hq, if_true]; rfl

theorem logPush_own (b : Base) (i : Nat) (e : LogEntry) : (b.logPush i e).own = b.own := by
  simp only [Base.logPush]; split <;> simp

theorem logPush_acc (b : Base) (i : Nat) (e : LogEntry) : (b.logPush i e).acc = b.acc := by
  simp only [Base.logPush]; split <;> simp

theorem logPush_nhosts (b : Base) (i : Nat) (e : LogEntry) : (b.logPush i e).nhosts = b.nhosts := by
  simp only [Base.logPush]; split <;> simp

/-- A queue with room takes the entry at its end (R448). -/
theorem logq_logPush (b : Base) (i : Nat) (e : LogEntry) (hq : (b.logq i).waiting.length < 64) :
    ((b.logPush i e).logq i).waiting = (b.logq i).waiting ++ [e] := by
  simp only [Base.logPush, hq, if_true]
  simp [Base.logq, Base.setLogq]

theorem logPushAll_same (e : LogEntry) (hs : List Nat) (b : Base) (hh : ∀ h ∈ hs, h < 4) :
    (b.logPushAll e hs).own = b.own ∧ (b.logPushAll e hs).acc = b.acc ∧ ∀ k, unitReg k = true → (b.logPushAll e hs).word k = b.word k := by
  induction hs generalizing b with
  | nil => simp [Base.logPushAll]
  | cons h r ih =>
    simp only [Base.logPushAll]
    obtain ⟨h1, h2, h3⟩ := ih (b.logPush (2 * h) e) (fun x hx => hh x (by simp [hx]))
    have h4 := hh h (by simp)
    exact ⟨h1.trans (logPush_own ..), h2.trans (logPush_acc ..), fun k hk => (h3 k hk).trans (word_logPush _ _ _ (by omega) hk)⟩

theorem dests_lt (b : Base) (p : Nat) (hn : b.nhosts ≤ 4) : ∀ h ∈ b.dests p, h < 4 := by
  intro h hh
  have := (List.mem_filter.mp hh).1
  simp only [List.mem_range] at this
  omega

/-- A violation touches its log only: no register beyond a LOST counter and the HST page's event. -/
theorem word_violation (b : Base) (h p c : Nat) (d : List Byte) (hn : b.nhosts ≤ 4) {k : Nat} (hk : unitReg k = true) :
    (b.violation h p c d).word k = b.word k := by
  simp only [Base.violation]
  split
  · exact word_logPush _ _ _ (by omega) hk
  · rfl

theorem violation_own (b : Base) (h p c : Nat) (d : List Byte) : (b.violation h p c d).own = b.own := by
  simp only [Base.violation]; split <;> simp [logPush_own]

/-- A fault leaves every unit register and every own state (R57). -/
theorem word_fault (b : Base) (p c : Nat) (d : List Byte) (hn : b.nhosts ≤ 4) {k : Nat} (hk : unitReg k = true) :
    (b.fault p c d).word k = b.word k := by
  have h18 : hdr p 0x18 ≠ k := unitReg_hdr hk p _ (by decide)
  have h24 : hdr p 0x24 ≠ k := unitReg_hdr hk p _ (by decide)
  have h28 : hdr p 0x28 ≠ k := unitReg_hdr hk p _ (by decide)
  simp only [Base.fault]
  rw [(logPushAll_same _ _ _ (dests_lt _ _ ?_)).2.2 k hk]
  · simp only [Base.raiseMask, word_setEvents, h18, if_false]
    split
    · exact word_put_ne _ _ _ h28
    · rw [word_setWord_ne _ _ h24]; exact word_put_ne _ _ _ h28
  · simp only [Base.raiseMask, setEvents_nhosts]
    split <;> simpa using hn

theorem fault_own (b : Base) (p c : Nat) (d : List Byte) (hn : b.nhosts ≤ 4) : (b.fault p c d).own = b.own := by
  simp only [Base.fault]
  rw [(logPushAll_same _ _ _ (dests_lt _ _ ?_)).1]
  · simp only [Base.raiseMask, setEvents_own]; split <;> rfl
  · simp only [Base.raiseMask, setEvents_nhosts]
    split <;> simpa using hn

end Sys2Proof.Laws
end

