-- ==== Sys2Proof/Laws/Rings.lean ====
section
/-! SUPPORT. Laws of the command rings: what the operations after a ring command (completions written, malformed fronts rejected, unit states refreshed, scheduled transactions judged) can change, and what a written completion says. -/

namespace Sys2Proof.Laws

open Sys2Proof Sys2Proof.Machine

/-- Two states that differ in their rings and their common core only. -/
def RingOnly (s t : State) : Prop := t = { s with rings := t.rings, base := t.base }

theorem RingOnly.refl (s : State) : RingOnly s s := rfl

theorem RingOnly.trans {s t u : State} (h1 : RingOnly s t) (h2 : RingOnly t u) : RingOnly s u := by
  unfold RingOnly at *; rw [h2, h1]

theorem ringOnly_onBase (s : State) (f : Base → Base) : RingOnly s (s.onBase f) := rfl
theorem ringOnly_setRing (s : State) (h r : Nat) (x : Ring) : RingOnly s (s.setRing h r x) := rfl
theorem ringOnly_mark (s : State) (h r id : Nat) (f : Desc → Desc) : RingOnly s (s.mark h r id f) := rfl

theorem ringOnly_foldl {β : Type} (f : State → β → State) (hf : ∀ s e, RingOnly s (f s e)) (l : List β) (s : State) :
    RingOnly s (l.foldl f s) := by
  induction l generalizing s with
  | nil => exact .refl s
  | cons e r ih => exact (hf s e).trans (ih (f s e))

theorem ringOnly_markHost (s : State) (h id : Nat) (f : Desc → Desc) : RingOnly s (s.markHost h id f) :=
  ringOnly_foldl _ (fun s r => ringOnly_mark s h r id f) _ s

theorem ringOnly_writeCompletion (h r : Nat) (s : State) (d : Desc) : RingOnly s (s.writeCompletion h r d) := by
  unfold State.writeCompletion
  split
  · split
    · exact .refl s
    · exact ringOnly_onBase s _
  · exact .refl s

theorem ringOnly_drain (s : State) (h r : Nat) : RingOnly s (s.drain h r) := by
  simp only [State.drain]
  split
  · exact .refl s
  · have h1 := (ringOnly_setRing s h r { s.ring h r with flight := (splitDone (s.ctxOf h) [] (s.ring h r).flight).2 }).trans
      (ringOnly_foldl (State.writeCompletion h r) (fun s d => ringOnly_writeCompletion h r s d) (splitDone (s.ctxOf h) [] (s.ring h r).flight).1 _)
    split
    · exact h1.trans (ringOnly_onBase _ _)
    · exact h1

theorem ringOnly_drainHost (s : State) (h : Nat) : RingOnly s (s.drainHost h) :=
  ringOnly_foldl _ (fun s r => ringOnly_drain s h r) _ s

theorem ringOnly_refreshHost (s : State) (h : Nat) : RingOnly s (s.refreshHost h) := ringOnly_onBase s _

theorem ringOnly_rejectMalformed (h r n : Nat) (s : State) : RingOnly s (State.rejectMalformed h r n s) := by
  induction n generalizing s with
  | zero => exact .refl s
  | succ n ih =>
    simp only [State.rejectMalformed]
    split
    · exact .refl s
    · split
      · refine RingOnly.trans ?_ (ih _)
        exact (ringOnly_mark s h r _ _).trans (ringOnly_onBase _ _)
      · exact .refl s

/-- Settling a ring changes rings and the common core only (R254 to R257). -/
theorem ringOnly_settleRing (s : State) (h r : Nat) : RingOnly s (s.settleRing h r) :=
  ((ringOnly_rejectMalformed h r _ s).trans (ringOnly_drainHost _ h)).trans (ringOnly_refreshHost _ h)

theorem ringOnly_finish (s : State) (h id st info : Nat) (time : Option Nat) : RingOnly s (s.finish h id st info time) :=
  ringOnly_markHost s h id _

theorem ringOnly_finishAll (s : State) (h st : Nat) (p : Desc → Bool) : RingOnly s (s.finishAll h st p) :=
  ringOnly_foldl _ (fun s r => ringOnly_setRing s h r _) _ s

theorem ringOnly_answer (s : State) (h r : Nat) (d : Desc) (c : Option Nat) (st info : Nat) : RingOnly s (s.answer h r d c st info) :=
  (ringOnly_mark s h r _ _).trans (ringOnly_onBase _ _)

theorem ringOnly_acceptDesc (s : State) (h r : Nat) (d : Desc) (c : Option Nat) : RingOnly s (s.acceptDesc h r d c) :=
  ringOnly_mark s h r _ _

/-! ## What such a change leaves -/

theorem RingOnly.scenes {s t : State} (h : RingOnly s t) : t.scenes = s.scenes := by rw [h]
theorem RingOnly.dome {s t : State} (h : RingOnly s t) : t.dome = s.dome := by rw [h]
theorem RingOnly.codec {s t : State} (h : RingOnly s t) : t.codec = s.codec := by rw [h]
theorem RingOnly.pending {s t : State} (h : RingOnly s t) : t.pending = s.pending := by rw [h]
theorem RingOnly.sealedScene {s t : State} (h : RingOnly s t) : t.sealedScene = s.sealedScene := by unfold State.sealedScene; rw [h.scenes]
theorem RingOnly.txn {s t : State} (h : RingOnly s t) (k j : Nat) : t.txn k j = s.txn k j := by unfold State.txn; rw [h.scenes]
theorem RingOnly.view {s t : State} (h : RingOnly s t) (k j : Nat) : t.view k j = s.view k j := by
  unfold State.view; rw [h.txn, h.sealedScene]

/-! ## Judging scheduled transactions -/

theorem txn_setTxn (s : State) (h t k j : Nat) (x : Option Txn) :
    (s.setTxn h t x).txn k j = if h * 256 + t = k * 256 + j then x else s.txn k j := by
  simp [State.txn, State.setTxn, sget_sput]

@[simp] theorem txn_setTxn_same (s : State) (h t : Nat) (x : Option Txn) : (s.setTxn h t x).txn h t = x := by simp [txn_setTxn]

@[simp] theorem setTxn_sealed (s : State) (h t : Nat) (x : Option Txn) : (s.setTxn h t x).scenes.sealed = s.scenes.sealed := rfl
@[simp] theorem setTxn_live (s : State) (h t : Nat) (x : Option Txn) : (s.setTxn h t x).scenes.live = s.scenes.live := rfl
@[simp] theorem setTxn_sealedScene (s : State) (h t : Nat) (x : Option Txn) : (s.setTxn h t x).sealedScene = s.sealedScene := rfl

/-- Judging changes the transaction table and the order counter of the scenes only. -/
theorem judgeTxn_same (h : Nat) (s : State) (p : Nat × Txn) :
    ∃ tx o, s.judgeTxn h p = { s with scenes := { s.scenes with txns := tx, orders := o } } := by
  unfold State.judgeTxn
  split
  · exact ⟨s.scenes.txns, s.scenes.orders, rfl⟩
  · split
    · exact ⟨s.scenes.txns, s.scenes.orders, rfl⟩
    · exact ⟨_, _, rfl⟩

theorem judge_same (s : State) (h : Nat) : ∃ tx o, s.judge h = { s with scenes := { s.scenes with txns := tx, orders := o } } := by
  unfold State.judge
  generalize s.openTxns h = l
  induction l generalizing s with
  | nil => exact ⟨s.scenes.txns, s.scenes.orders, rfl⟩
  | cons e r ih =>
    obtain ⟨a, b, h1⟩ := judgeTxn_same h s e
    obtain ⟨c, d, h2⟩ := ih (s.judgeTxn h e)
    exact ⟨c, d, by rw [List.foldl_cons, h2, h1]⟩

@[simp] theorem judge_base (s : State) (h : Nat) : (s.judge h).base = s.base := by obtain ⟨_, _, e⟩ := judge_same s h; rw [e]
@[simp] theorem judge_rings (s : State) (h : Nat) : (s.judge h).rings = s.rings := by obtain ⟨_, _, e⟩ := judge_same s h; rw [e]
@[simp] theorem judge_dome (s : State) (h : Nat) : (s.judge h).dome = s.dome := by obtain ⟨_, _, e⟩ := judge_same s h; rw [e]
@[simp] theorem judge_codec (s : State) (h : Nat) : (s.judge h).codec = s.codec := by obtain ⟨_, _, e⟩ := judge_same s h; rw [e]
@[simp] theorem judge_pending (s : State) (h : Nat) : (s.judge h).pending = s.pending := by obtain ⟨_, _, e⟩ := judge_same s h; rw [e]
@[simp] theorem judge_live (s : State) (h : Nat) : (s.judge h).scenes.live = s.scenes.live := by obtain ⟨_, _, e⟩ := judge_same s h; rw [e]
@[simp] theorem judge_sealed (s : State) (h : Nat) : (s.judge h).scenes.sealed = s.scenes.sealed := by obtain ⟨_, _, e⟩ := judge_same s h; rw [e]
@[simp] theorem judge_ring (s : State) (h k r : Nat) : (s.judge h).ring k r = s.ring k r := by unfold State.ring; rw [judge_rings]
@[simp] theorem judge_sealedScene (s : State) (h : Nat) : (s.judge h).sealedScene = s.sealedScene := by
  unfold State.sealedScene; rw [judge_live, judge_sealed]

/-- One judgement keeps every transaction but for the fields that judging sets, when the entry judged is the one in the table. -/
theorem judgeTxn_core (h : Nat) (s : State) (p : Nat × Txn) (hp : (s.txn h p.1).map Txn.core = some (Txn.core p.2)) (k j : Nat) :
    ((s.judgeTxn h p).txn k j).map Txn.core = (s.txn k j).map Txn.core := by
  unfold State.judgeTxn
  split
  · rfl
  · split
    · rfl
    · rename_i target strict hs hc
      have e : ∀ x : Txn, ({ s.setTxn h p.1 (some x) with
          scenes := { (s.setTxn h p.1 (some x)).scenes with orders := s.scenes.orders + 1 } } : State).txn k j
            = (s.setTxn h p.1 (some x)).txn k j := fun _ => rfl
      simp only [setTxn_sealed]
      show ((({ s.setTxn h p.1 (some _) with
          scenes := { (s.setTxn h p.1 (some _)).scenes with orders := s.scenes.orders + 1 } } : State).txn k j).map Txn.core) = _
      rw [e, txn_setTxn]
      split
      · rename_i hk
        have : s.txn k j = s.txn h p.1 := by unfold State.txn; rw [hk]
        rw [this, hp]
        split <;> rfl
      · rfl

theorem judge_fold_core (h : Nat) (l : List (Nat × Txn)) (s : State)
    (hl : ∀ p ∈ l, (s.txn h p.1).map Txn.core = some (Txn.core p.2)) (k j : Nat) :
    ((l.foldl (State.judgeTxn h) s).txn k j).map Txn.core = (s.txn k j).map Txn.core := by
  induction l generalizing s with
  | nil => rfl
  | cons p r ih =>
    have h1 := judgeTxn_core h s p (hl p (by simp))
    rw [List.foldl_cons, ih (s.judgeTxn h p) (fun q hq => by rw [h1]; exact hl q (by simp [hq])), h1]

theorem sget_mem {α : Type} [DecidableEq α] (d : Nat → α) (l : Sparse α) (lo : Nat) (h : swfFrom d lo l = true) (e : Nat × α) (he : e ∈ l) :
    sget d l e.1 = e.2 ∧ lo ≤ e.1 := by
  induction l generalizing lo with
  | nil => cases he
  | cons f r ih =>
    obtain ⟨k, v⟩ := f
    simp only [swfFrom, Bool.and_eq_true, decide_eq_true_eq] at h
    rcases List.mem_cons.mp he with rfl | he
    · exact ⟨by simp [sget], h.1.1⟩
    · obtain ⟨h1, h2⟩ := ih _ h.2 he
      refine ⟨?_, by omega⟩
      simp only [sget]
      rw [if_neg (by omega), h1]

/-- Judging keeps every transaction but for the fields that judging sets, in a canonical transaction table. -/
theorem judge_core (s : State) (h : Nat) (hw : swf (fun _ => none) s.scenes.txns = true) (k j : Nat) :
    ((s.judge h).txn k j).map Txn.core = (s.txn k j).map Txn.core := by
  refine judge_fold_core h _ s (fun p hp => ?_) k j
  simp only [State.openTxns, List.mem_filterMap] at hp
  obtain ⟨e, he, hp⟩ := hp
  split at hp
  · rename_i hh
    obtain ⟨x, hx, rfl⟩ := Option.map_eq_some_iff.mp hp
    have h1 := (sget_mem _ _ 0 hw e he).1
    have h2 : s.txn h (e.1 % 256) = some x := by
      unfold State.txn
      have : h * 256 + e.1 % 256 = e.1 := by omega
      rw [this, h1, hx]
    simp [h2]
  · cases hp

/-! ## Completion -/

/-- A ring holds no pending descriptor of this identity. -/
def DoneIn (x : Ring) (i : Nat) : Prop := ∀ e ∈ x.flight, e.id = i → e.pendingB = false

theorem splitDone_sub (cx : Desc → Option Nat) (l kept : List Desc) : ∀ x ∈ (splitDone cx kept l).2, x ∈ l := by
  induction l generalizing kept with
  | nil => intro x hx; simp [splitDone] at hx
  | cons d r ih =>
    intro x hx
    simp only [splitDone] at hx
    split at hx
    · split at hx
      · rcases List.mem_cons.mp hx with rfl | hx
        · simp
        · exact List.mem_cons_of_mem _ (ih _ x hx)
      · exact List.mem_cons_of_mem _ (ih _ x hx)
    · rcases List.mem_cons.mp hx with rfl | hx
      · simp
      · exact List.mem_cons_of_mem _ (ih _ x hx)

theorem ring_setRing (s : State) (h r k q : Nat) (x : Ring) :
    (s.setRing h r x).ring k q = if 16 * h + r = 16 * k + q then x else s.ring k q := by
  simp [State.ring, State.setRing, sget_sput]

@[simp] theorem ring_onBase (s : State) (f : Base → Base) (k q : Nat) : (s.onBase f).ring k q = s.ring k q := rfl

theorem ring_congr {s t : State} (e : s.rings = t.rings) (k q : Nat) : s.ring k q = t.ring k q := by unfold State.ring; rw [e]

theorem writeCompletion_rings (h r : Nat) (s : State) (d : Desc) : (s.writeCompletion h r d).rings = s.rings := by
  unfold State.writeCompletion
  split
  · split <;> rfl
  · rfl

theorem writeCompletions_rings (h r : Nat) (l : List Desc) (s : State) : (l.foldl (State.writeCompletion h r) s).rings = s.rings := by
  induction l generalizing s with
  | nil => rfl
  | cons e l ih => rw [List.foldl_cons, ih, writeCompletion_rings]

/-- Draining a ring only removes completed descriptors. -/
theorem drain_ring (s : State) (h r k q : Nat) :
    (s.drain h r).ring k q = s.ring k q ∨
      (16 * h + r = 16 * k + q ∧ (s.drain h r).ring k q = { s.ring h r with flight := (splitDone (s.ctxOf h) [] (s.ring h r).flight).2 }) := by
  simp only [State.drain]
  split
  · exact .inl rfl
  · have e : ∀ x : State, x.rings = ((splitDone (s.ctxOf h) [] (s.ring h r).flight).1.foldl (State.writeCompletion h r)
        (s.setRing h r { s.ring h r with flight := (splitDone (s.ctxOf h) [] (s.ring h r).flight).2 })).rings →
        x.ring k q = if 16 * h + r = 16 * k + q then { s.ring h r with flight := (splitDone (s.ctxOf h) [] (s.ring h r).flight).2 } else s.ring k q := by
      intro x hx
      rw [← ring_setRing]
      exact ring_congr (hx.trans (writeCompletions_rings _ _ _ _)) k q
    have e2 : ∀ x : State, x.rings = ((splitDone (s.ctxOf h) [] (s.ring h r).flight).1.foldl (State.writeCompletion h r)
        (s.setRing h r { s.ring h r with flight := (splitDone (s.ctxOf h) [] (s.ring h r).flight).2 })).rings →
        (x.ring k q = s.ring k q ∨ (16 * h + r = 16 * k + q ∧ x.ring k q = { s.ring h r with flight := (splitDone (s.ctxOf h) [] (s.ring h r).flight).2 })) := by
      intro x hx
      rw [e x hx]
      by_cases hk : 16 * h + r = 16 * k + q
      · exact .inr ⟨hk, by simp [hk]⟩
      · exact .inl (by simp [hk])
    split
    · exact e2 _ rfl
    · exact e2 _ rfl

theorem doneIn_drain (s : State) (h r k q i : Nat) (hd : DoneIn (s.ring k q) i) : DoneIn ((s.drain h r).ring k q) i := by
  rcases drain_ring s h r k q with e | ⟨hk, e⟩
  · rw [e]; exact hd
  · rw [e]
    have : s.ring h r = s.ring k q := by unfold State.ring; rw [hk]
    intro x hx
    refine hd x ?_
    rw [← this]
    exact splitDone_sub _ _ _ x hx

theorem doneIn_foldDrain (l : List Nat) (s : State) (h k q i : Nat) (hd : DoneIn (s.ring k q) i) :
    DoneIn ((l.foldl (fun x r => State.drain x h r) s).ring k q) i := by
  induction l generalizing s with
  | nil => exact hd
  | cons r l ih => exact ih _ (doneIn_drain s h r k q i hd)

/-- Completing descriptors leaves completed ones completed. -/
theorem doneIn_mark (s u : State) (h r k q id st info i : Nat) (time : Option Nat) (hd : DoneIn (s.ring k q) i) :
    DoneIn ((s.mark h r id (u.ended h st info time)).ring k q) i := by
  simp only [State.mark, ring_setRing]
  split
  · rename_i hk
    have : s.ring h r = s.ring k q := by unfold State.ring; rw [hk]
    rw [this]
    intro x hx hxi
    obtain ⟨y, hy, rfl⟩ := List.mem_map.mp hx
    split at hxi
    · rename_i hid; rw [if_pos hid]; rfl
    · rename_i hid; rw [if_neg hid]; exact hd y hy hxi
  · exact hd

theorem doneIn_rejectMalformed (h r n k q i : Nat) (s : State) (hd : DoneIn (s.ring k q) i) :
    DoneIn ((State.rejectMalformed h r n s).ring k q) i := by
  induction n generalizing s with
  | zero => exact hd
  | succ n ih =>
    simp only [State.rejectMalformed]
    split
    · exact hd
    · split
      · refine ih _ ?_
        simp only [ring_onBase]
        exact doneIn_mark s s h r k q _ _ _ i none hd
      · exact hd

theorem doneIn_settleRing (s : State) (h r k q i : Nat) (hd : DoneIn (s.ring k q) i) : DoneIn ((s.settleRing h r).ring k q) i := by
  unfold State.settleRing State.refreshHost State.drainHost
  rw [ring_onBase]
  exact doneIn_foldDrain _ _ h k q i (doneIn_rejectMalformed h r _ k q i s hd)

/-- An answered command has completed once its ring has settled and schedules are judged. -/
theorem completed_answer (s : State) (h r : Nat) (d : Desc) (c : Option Nat) (st info : Nat) (h' : Nat) :
    (((s.answer h r d c st info).settleRing h r).judge h').completed h r d := by
  unfold State.completed
  rw [judge_ring]
  refine doneIn_settleRing _ h r h r d.id ?_
  simp only [State.answer, State.mark, ring_onBase, ring_setRing, if_true]
  intro x hx hxi
  obtain ⟨y, hy, rfl⟩ := List.mem_map.mp hx
  split at hxi
  · rename_i hid; rw [if_pos hid]; rfl
  · rename_i hid; exact absurd hxi hid

/-! ## After a ring command -/

/-- A ready command of a ring runs, the ring settles, and schedules are judged. -/
theorem ringRow_ready (s : State) (h r op : Nat) (d : Desc) (f : Desc → State → State) (hr : s.ready h r op d) :
    s.ringRow h r op f = ((f d s).settleRing h r).judge h := by simp [State.ringRow, hr.1, hr.2]

/-- Two states that differ in their scenes, rings and common core only. -/
def SceneOnly (s t : State) : Prop := t = { s with scenes := t.scenes, rings := t.rings, base := t.base }

theorem SceneOnly.refl (s : State) : SceneOnly s s := rfl

theorem SceneOnly.trans {s t u : State} (h1 : SceneOnly s t) (h2 : SceneOnly t u) : SceneOnly s u := by
  unfold SceneOnly at *; rw [h2, h1]

theorem RingOnly.sceneOnly {s t : State} (h : RingOnly s t) : SceneOnly s t := by
  unfold RingOnly at h; unfold SceneOnly; rw [h]

theorem sceneOnly_judge (s : State) (h : Nat) : SceneOnly s (s.judge h) := by
  obtain ⟨_, _, e⟩ := judge_same s h; rw [e]; rfl

/-- Settling a ring and judging schedules change scenes, rings and the common core only. -/
theorem sceneOnly_after (u : State) (h r h' : Nat) : SceneOnly u ((u.settleRing h r).judge h') :=
  (ringOnly_settleRing u h r).sceneOnly.trans (sceneOnly_judge _ h')

theorem canon_setTxn (s : State) (h t : Nat) (x : Option Txn) (hw : swf (fun _ => none) s.scenes.txns = true) :
    swf (fun _ => none) (s.setTxn h t x).scenes.txns = true := swf_sput _ _ _ _ hw

/-- Transactions, but for the fields that judging sets, stand while a ring settles and schedules are judged. -/
theorem txn_after (u : State) (h r h' : Nat) (hw : swf (fun _ => none) u.scenes.txns = true) (k j : Nat) :
    (((u.settleRing h r).judge h').txn k j).map Txn.core = (u.txn k j).map Txn.core := by
  have e := ringOnly_settleRing u h r
  rw [judge_core _ _ (by rw [e.scenes]; exact hw), e.txn]

/-- The scene in force and what is sealed stand while a ring settles and schedules are judged. -/
theorem sealedScene_after (u : State) (h r h' : Nat) : ((u.settleRing h r).judge h').sealedScene = u.sealedScene := by
  rw [judge_sealedScene, (ringOnly_settleRing u h r).sealedScene]

/-- What a transaction sees stands while a ring settles and schedules are judged. -/
theorem view_after (u : State) (h r h' : Nat) (hw : swf (fun _ => none) u.scenes.txns = true) (k j : Nat) :
    ((u.settleRing h r).judge h').view k j = u.view k j := by
  have h1 := txn_after u h r h' hw k j
  unfold State.view
  rw [sealedScene_after]
  cases h2 : ((u.settleRing h r).judge h').txn k j <;> cases h3 : u.txn k j <;> rw [h2, h3] at h1
  · simp at h1
  · simp at h1
  · rename_i x y
    have : x.ops = y.ops := by
      have h4 : Txn.core x = Txn.core y := by simpa using h1
      have h5 : (Txn.core x).ops = (Txn.core y).ops := by rw [h4]
      exact h5
    simp [this]

/-- What holds once an answered command's ring has settled and schedules are judged: `v` is the state with the command's own effect. -/
structure After (s v t : State) : Prop where
  only : SceneOnly s t
  sealed : t.sealedScene = v.sealedScene
  txn : ∀ k j, (t.txn k j).map Txn.core = (v.txn k j).map Txn.core
  view : ∀ k j, t.view k j = v.view k j

/-- A change of rings, then settling and judging, leaves the scenes as the command made them. -/
theorem after_of_ringOnly {s v u : State} (h r h' : Nat) (hv : SceneOnly s v) (hu : RingOnly v u)
    (hw : swf (fun _ => none) v.scenes.txns = true) : After s v ((u.settleRing h r).judge h') := by
  have hw' : swf (fun _ => none) u.scenes.txns = true := by rw [hu.scenes]; exact hw
  exact ⟨(hv.trans hu.sceneOnly).trans (sceneOnly_after u h r h'), (sealedScene_after u h r h').trans hu.sealedScene,
    fun k j => (txn_after u h r h' hw' k j).trans (by rw [hu.txn]), fun k j => (view_after u h r h' hw' k j).trans (hu.view k j)⟩

/-- The same for a command that is answered at once. -/
theorem after_answer {s v : State} (h r : Nat) (d : Desc) (c : Option Nat) (st info h' : Nat) (hv : SceneOnly s v)
    (hw : swf (fun _ => none) v.scenes.txns = true) : After s v (((v.answer h r d c st info).settleRing h r).judge h') :=
  after_of_ringOnly h r h' hv (ringOnly_answer v h r d c st info) hw

/-- The same for a command that is accepted and completes later. -/
theorem after_accept {s v : State} (h r : Nat) (d : Desc) (c : Option Nat) (h' : Nat) (hv : SceneOnly s v)
    (hw : swf (fun _ => none) v.scenes.txns = true) : After s v (((v.acceptDesc h r d c).settleRing h r).judge h') :=
  after_of_ringOnly h r h' hv (ringOnly_acceptDesc v h r d c) hw

theorem sceneOnly_setTxn (s : State) (h t : Nat) (x : Option Txn) : SceneOnly s (s.setTxn h t x) := rfl
theorem sceneOnly_onBase (s : State) (f : Base → Base) : SceneOnly s (s.onBase f) := rfl
@[simp] theorem txn_onBase (s : State) (f : Base → Base) (k j : Nat) : (s.onBase f).txn k j = s.txn k j := rfl
@[simp] theorem sealedScene_onBase (s : State) (f : Base → Base) : (s.onBase f).sealedScene = s.sealedScene := rfl
@[simp] theorem view_onBase (s : State) (f : Base → Base) (k j : Nat) : (s.onBase f).view k j = s.view k j := rfl

/-! ## Completions written (R254) -/

/-- An answered command is marked as completed. -/
theorem doneIn_answer (s : State) (h r : Nat) (d : Desc) (c : Option Nat) (st info : Nat) : DoneIn ((s.answer h r d c st info).ring h r) d.id := by
  simp only [State.answer, State.mark, ring_onBase, ring_setRing, if_true]
  intro x hx hxi
  obtain ⟨y, hy, rfl⟩ := List.mem_map.mp hx
  split at hxi
  · rename_i hid; rw [if_pos hid]; rfl
  · rename_i hid; exact absurd hxi hid

/-- A register of a ring (Table 9.10). -/
def RingKey (k : Nat) : Prop := 0x14 ≤ k / 4096 ∧ k / 4096 ≤ 0x17 ∧ 0x200 ≤ k % 4096

/-- A register of a ring or a UNIT_EVENT register. -/
def KeptKey (k : Nat) : Prop := RingKey k ∨ k % 4096 = 0x18

/-- A change of the common core that keeps the rings' registers, the time, what the links carry and every pending event, and sends messages only. -/
structure Calm (b c : Base) : Prop where
  send : ∀ h, c.canSend h = b.canSend h
  time : c.E = b.E
  out : ∀ o ∈ b.out, o ∈ c.out
  word : ∀ k, RingKey k → c.word k = b.word k
  event : ∀ p n, (b.word (hdr p 0x18)).toNat.testBit n = true → (c.word (hdr p 0x18)).toNat.testBit n = true

theorem Calm.refl (b : Base) : Calm b b := ⟨fun _ => rfl, rfl, fun _ h => h, fun _ _ => rfl, fun _ _ h => h⟩
theorem Calm.trans {a b c : Base} (h1 : Calm a b) (h2 : Calm b c) : Calm a c :=
  ⟨fun h => (h2.send h).trans (h1.send h), h2.time.trans h1.time, fun o ho => h2.out o (h1.out o ho), fun k hk => (h2.word k hk).trans (h1.word k hk),
    fun p n h => h2.event p n (h1.event p n h)⟩

theorem calm_setWord (b : Base) (k : Nat) (v : BitVec 32) (h : ¬ KeptKey k) : Calm b (b.setWord k v) :=
  ⟨fun _ => rfl, rfl, fun _ h => h, fun _ hj => word_setWord_ne b v (fun e => h (.inl (e ▸ hj))),
    fun p n hn => by rwa [word_setWord_ne b v (fun e => h (.inr (by rw [e]; unfold hdr; omega)))]⟩
theorem calm_put (b : Base) (f : FieldRef) (v : Nat) (h : ¬ KeptKey f.key) : Calm b (b.put f v) := calm_setWord _ _ _ h
theorem calm_count (b : Base) (f : FieldRef) (n : Nat) (h : ¬ KeptKey f.key) : Calm b (b.count f n) := calm_put _ _ _ h
theorem calm_emit (b : Base) (o : Output) : Calm b (b.emit o) := ⟨fun _ => rfl, rfl, fun _ h => List.mem_cons_of_mem _ h, fun _ _ => rfl, fun _ _ h => h⟩
theorem calm_msix (b : Base) (h v : Nat) : Calm b (b.msix h v) := by
  unfold Base.msix
  split
  · exact calm_emit b _
  · refine ⟨fun k => ?_, rfl, fun _ h => h, fun _ _ => rfl, fun _ _ h => h⟩
    have e : (b.setLink h { b.link h with pba := setInsert (b.link h).pba v }).link k =
        if h = k then { b.link h with pba := setInsert (b.link h).pba v } else b.link k := by simp [Base.link, Base.setLink, sget_sput]
    simp only [Base.canSend, e]
    split
    · rename_i hk; subst hk; rfl
    · rfl
theorem calm_msixAll (l : List (Nat × Nat)) (b : Base) : Calm b (b.msixAll l) := by
  induction l generalizing b with
  | nil => exact .refl b
  | cons e r ih => exact (calm_msix b e.1 e.2).trans (ih _)
theorem not_keptKey_hdr (p off : Nat) (h : off < 0x200) (he : off ≠ 0x18) : ¬ KeptKey (hdr p off) := by unfold KeptKey RingKey hdr; omega
theorem calm_raiseMask (b : Base) (p m : Nat) : Calm b (b.raiseMask p m) := by
  refine Calm.trans (b := b.setWord (hdr p 0x18) (b.word (hdr p 0x18) ||| BitVec.ofNat 32 m))
    ⟨fun _ => rfl, rfl, fun _ h => h, fun _ hj => word_setWord_ne b _ (fun e => ?_), fun q n hn => ?_⟩ (calm_msixAll _ _)
  · have h1 := e ▸ hj
    unfold RingKey hdr at h1; omega
  · rw [word_setWord]
    split
    · rename_i e
      rw [← e] at hn
      simp [hn]
    · exact hn
theorem calm_raise (b : Base) (p n : Nat) : Calm b (b.raise p n) := calm_raiseMask b p _
theorem calm_stateEvents (old : Base) (l : List Nat) (b : Base) : Calm b (Base.stateEvents old b l) := by
  induction l generalizing b with
  | nil => exact .refl b
  | cons p r ih =>
    simp only [Base.stateEvents]
    split
    · exact ih b
    · exact (calm_raise b p 0).trans (ih _)
theorem calm_setOwn (b : Base) (p st : Nat) : Calm b (b.setOwn p st) := by
  unfold Base.setOwn
  split
  · exact .refl b
  · exact ⟨(calm_stateEvents _ _ _).send, (calm_stateEvents _ _ _).time, (calm_stateEvents b _ { b with own := sput (fun _ => 0) b.own p st }).out, (calm_stateEvents _ _ _).word,
      (calm_stateEvents b _ { b with own := sput (fun _ => 0) b.own p st }).event⟩
theorem calm_busyIf (b : Base) (p : Nat) (c : Bool) : Calm b (b.busyIf p c) := by
  unfold Base.busyIf
  split
  · exact calm_setOwn ..
  · exact .refl b
theorem calm_logPush (b : Base) (i : Nat) (e : LogEntry) : Calm b (b.logPush i e) := by
  simp only [Base.logPush]
  split
  · exact ⟨fun _ => rfl, rfl, fun _ h => h, fun _ _ => rfl, fun _ _ h => h⟩
  · refine Calm.trans ?_ (calm_raise _ _ _)
    have : ¬ KeptKey (logLost i).key := by
      unfold logLost KeptKey RingKey
      split
      · simp only [Reg.hstFlogLost_COUNT, Reg.hstFlogLost]; omega
      · simp only [Reg.hstVlogLost_COUNT, Reg.hstVlogLost]; omega
    exact Calm.trans (b := b.setLogq i _) ⟨fun _ => rfl, rfl, fun _ h => h, fun _ _ => rfl, fun _ _ h => h⟩ (calm_count _ _ _ this)
theorem calm_logPushAll (e : LogEntry) (l : List Nat) (b : Base) : Calm b (b.logPushAll e l) := by
  induction l generalizing b with
  | nil => exact .refl b
  | cons h r ih => exact (calm_logPush b _ e).trans (ih _)
theorem calm_violation (b : Base) (h p c : Nat) (d : List Byte) : Calm b (b.violation h p c d) := by
  simp only [Base.violation]
  split
  · exact calm_logPush ..
  · exact .refl b
theorem calm_fault (b : Base) (p c : Nat) (d : List Byte) : Calm b (b.fault p c d) := by
  simp only [Base.fault]
  refine Calm.trans (Calm.trans ?_ (calm_raiseMask _ _ _)) (calm_logPushAll _ _ _)
  split
  · exact calm_put _ _ _ (not_keptKey_hdr p _ (by decide) (by decide))
  · exact (calm_put _ _ _ (not_keptKey_hdr p _ (by decide) (by decide))).trans (calm_setWord _ _ _ (not_keptKey_hdr p _ (by decide) (by decide)))

theorem calm_refreshHost (s : State) (h : Nat) : Calm s.base (s.refreshHost h).base := by
  have h1 := calm_busyIf s.base (pgCMD h) (decide (0 < s.slots h))
  have h2 := calm_busyIf (s.base.busyIf (pgCMD h) (decide (0 < s.slots h))) (pgTXN h) (!(s.openTxns h).isEmpty || decide (0 < s.waiting h))
  exact (h1.trans h2).trans (calm_busyIf _ (pgTWD h) (s.twdOp h).isSome)

theorem calm_writeCompletion (h r : Nat) (s : State) (d : Desc) : Calm s.base (s.writeCompletion h r d).base := by
  unfold State.writeCompletion
  split
  · rename_i status info time _
    split
    · exact .refl _
    · have k1 : ¬ KeptKey (Reg.cmdRejected_COUNT h).key := by simp only [KeptKey, RingKey, Reg.cmdRejected_COUNT, Reg.cmdRejected]; omega
      have k2 : ¬ KeptKey (Reg.cmdAborted_COUNT h).key := by simp only [KeptKey, RingKey, Reg.cmdAborted_COUNT, Reg.cmdAborted]; omega
      simp only [onBase_base]
      generalize ho : s.base.emit _ = c
      refine (ho ▸ calm_emit s.base _ : Calm s.base c).trans ?_
      have q1 : Calm c (if status / 16 = 1 then c.count (Reg.cmdRejected_COUNT h) 1 else c) := by
        split
        · exact calm_count _ _ _ k1
        · exact .refl _
      split
      · exact q1.trans (calm_count _ _ _ k2)
      · exact q1
  · exact .refl _

theorem calm_drain (s : State) (h r : Nat) : Calm s.base (s.drain h r).base := by
  have hf : ∀ (l : List Desc) (u : State), Calm u.base (l.foldl (State.writeCompletion h r) u).base := by
    intro l
    induction l with
    | nil => exact fun u => .refl _
    | cons e l ih => exact fun u => (calm_writeCompletion h r u e).trans (ih _)
  simp only [State.drain]
  split
  · exact .refl _
  · have h1 := hf (splitDone (s.ctxOf h) [] (s.ring h r).flight).1 (s.setRing h r { s.ring h r with flight := (splitDone (s.ctxOf h) [] (s.ring h r).flight).2 })
    split
    · exact h1.trans (calm_msix _ _ _)
    · exact h1

theorem calm_drains (l : List Nat) (s : State) (h : Nat) : Calm s.base (l.foldl (fun x r => State.drain x h r) s).base := by
  induction l generalizing s with
  | nil => exact .refl _
  | cons r l ih => exact (calm_drain s h r).trans (ih _)

theorem calm_rejectMalformed (h r n : Nat) (s : State) : Calm s.base (State.rejectMalformed h r n s).base := by
  induction n generalizing s with
  | zero => exact .refl _
  | succ n ih =>
    simp only [State.rejectMalformed]
    split
    · exact .refl _
    · split
      · refine Calm.trans ?_ (ih _)
        exact calm_violation s.base _ _ _ _
      · exact .refl _

/-- Settling a ring and judging schedules keep the rings' registers, the time, what the links carry and every pending event. -/
theorem calm_after (u : State) (h r h' : Nat) : Calm u.base ((u.settleRing h r).judge h').base := by
  rw [judge_base]
  exact ((calm_rejectMalformed h r _ u).trans (calm_drains (List.range 16) _ h)).trans (calm_refreshHost _ h)

theorem ring_drains_ne (l : List Nat) (s : State) (h k : Nat) (hl : k ∉ l) : (l.foldl (fun x r => State.drain x h r) s).ring h k = s.ring h k := by
  induction l generalizing s with
  | nil => rfl
  | cons r l ih =>
    simp only [List.mem_cons, not_or] at hl
    rw [List.foldl_cons, ih _ hl.2]
    rcases drain_ring s h r h k with e | ⟨e, _⟩
    · exact e
    · omega

/-- A ring whose one descriptor has completed writes its completion when it is drained. -/
theorem drain_writes (s : State) (h r : Nat) (d : Desc) (st info : Nat) (hf : (s.ring h r).flight = [d]) (hd : d.st = .done st info none)
    (hh : (s.ring h r).held = false) (hp : d.drop = false) (hc : s.base.canSend h = true) :
    Output.hostWrite h (s.base.addr64 (Reg.cplBaseLo h r) (Reg.cplBaseHi h r) + d.n % 2 ^ s.base.get (Reg.ringCtrl_LOG2 h r) * 16)
      (completionBytes r (s.base.get (Reg.ringCtrl_LOG2 h r)) s.base.now d st info none) ∈ (s.drain h r).base.out := by
  have e : splitDone (s.ctxOf h) [] [d] = ([d], []) := by simp [splitDone, hd]
  have hw : ∀ u : State, u.base = s.base →
      Output.hostWrite h (s.base.addr64 (Reg.cplBaseLo h r) (Reg.cplBaseHi h r) + d.n % 2 ^ s.base.get (Reg.ringCtrl_LOG2 h r) * 16)
        (completionBytes r (s.base.get (Reg.ringCtrl_LOG2 h r)) s.base.now d st info none) ∈ (u.writeCompletion h r d).base.out := by
    intro u hu
    simp only [State.writeCompletion, hd, hp, Bool.false_eq_true, if_false, onBase_base, hu]
    split <;> split <;> simp [Base.emit, Base.count, Base.put, Base.setWord]
  simp only [State.drain, hf, hh, hc, Bool.not_true, Bool.or_false, Bool.false_eq_true, if_false, e]
  simp only [List.foldl_cons, List.foldl_nil]
  split
  · exact (calm_msix _ _ _).out _ (hw _ rfl)
  · exact hw _ rfl

theorem rejectMalformed_done (h r n : Nat) (s : State) (hf : (s.ring h r).front = none) : State.rejectMalformed h r n s = s := by
  cases n <;> simp [State.rejectMalformed, hf]

theorem calm_answer (v : State) (h r : Nat) (d : Desc) (c : Option Nat) (st info : Nat) : Calm v.base (v.answer h r d c st info).base := by
  simp only [State.answer, onBase_base]
  split
  · exact calm_violation _ _ _ _ _
  · exact .refl _

theorem calm_quotaRefused (b : Base) (h res : Nat) : Calm b (b.quotaRefused h res) := by
  have k1 : ¬ KeptKey (Reg.qtaRej_COUNT h).key := by simp only [KeptKey, RingKey, Reg.qtaRej_COUNT, Reg.qtaRej]; omega
  have k2 : ¬ KeptKey (Reg.qtaLast_RESOURCE h).key := by simp only [KeptKey, RingKey, Reg.qtaLast_RESOURCE, Reg.qtaLast]; omega
  exact (calm_count _ _ _ k1).trans (calm_put _ _ _ k2)

/-- What an answer writes in its ring (R254): alone in its ring, its completion goes out when its ring settles. -/
theorem answer_writes {v u : State} (h r : Nat) (d : Desc) (c : Option Nat) (st info h' : Nat) (hh : h < 4) (hr : r < 16)
    (hb : Calm v.base u.base) (hg : u.ring h r = (v.answer h r d c st info).ring h r)
    (hf : (v.ring h r).flight = [d]) (hl : (v.ring h r).held = false) (hp : d.drop = false) (hc : v.base.canSend h = true) :
    Output.hostWrite h (v.base.addr64 (Reg.cplBaseLo h r) (Reg.cplBaseHi h r) + d.n % 2 ^ v.base.get (Reg.ringCtrl_LOG2 h r) * 16)
      (completionBytes r (v.base.get (Reg.ringCtrl_LOG2 h r)) v.base.now d st info none) ∈ ((u.settleRing h r).judge h').base.out := by
  have hring : u.ring h r = { v.ring h r with flight := [{ d with st := .done st info none, ctx := c }] } := by
    rw [hg]; simp [State.answer, State.mark, ring_setRing, hf]
  have hfr : (u.ring h r).front = none := by rw [hring]; simp [Ring.front]
  simp only [judge_base, State.settleRing, rejectMalformed_done h r _ u hfr]
  refine (calm_refreshHost _ h).out _ ?_
  have hs : List.range 16 = List.range r ++ r :: (List.range' (r + 1) (15 - r)) := by
    have : List.range' r (16 - r) = r :: List.range' (r + 1) (15 - r) := by
      rw [show 16 - r = (15 - r) + 1 by omega, List.range'_succ]
    rw [← this, List.range_eq_range', List.range_eq_range', show (16 : Nat) = r + (16 - r) by omega, ← List.range'_append_1]
    simp
  simp only [State.drainHost, hs, List.foldl_append, List.foldl_cons]
  refine (calm_drains _ _ h).out _ ?_
  have hcd := hb.trans (calm_drains (List.range r) u h)
  have hrg := ring_drains_ne (List.range r) u h r (by simp)
  generalize (List.range r).foldl (fun x q => State.drain x h q) u = w at hcd hrg
  have k1 : RingKey (Reg.cplBaseLo h r) := by simp only [RingKey, Reg.cplBaseLo]; omega
  have k2 : RingKey (Reg.cplBaseHi h r) := by simp only [RingKey, Reg.cplBaseHi]; omega
  have k3 : RingKey (Reg.ringCtrl_LOG2 h r).key := by simp only [RingKey, Reg.ringCtrl_LOG2, Reg.ringCtrl]; omega
  have := drain_writes w h r { d with st := .done st info none, ctx := c } st info (by rw [hrg, hring]) rfl (by rw [hrg, hring]; exact hl) hp ((hcd.send h).trans hc)
  simp only [Base.addr64, Base.get, Base.now, hcd.word _ k1, hcd.word _ k2, hcd.word _ k3, hcd.time] at this ⊢
  exact this

/-- A command answered without any effect of its own is refused. -/
theorem refuses_answer (s : State) (h r : Nat) (d : Desc) (c : Option Nat) (st info : Nat) (hh : h < 4) (hr : r < 16)
    (hw : swf (fun _ => none) s.scenes.txns = true) : s.refuses (((s.answer h r d c st info).settleRing h r).judge h) h r d st info := by
  have A := after_answer h r d c st info h (.refl s) hw
  exact ⟨⟨completed_answer s h r d c st info h, fun hf hl hp hc => answer_writes h r d c st info h hh hr (calm_answer ..) rfl hf hl hp hc⟩, A.sealed, A.txn, A.only⟩

/-- A command answered with REJ_QUOTA is refused. -/
theorem refuses_answerQuota (s : State) (h r : Nat) (d : Desc) (c : Option Nat) (res : Nat) (hh : h < 4) (hr : r < 16)
    (hw : swf (fun _ => none) s.scenes.txns = true) : s.refuses (((s.answerQuota h r d c res).settleRing h r).judge h) h r d stQUOTA res := by
  have A := after_of_ringOnly h r h (.refl s) ((ringOnly_answer s h r d c stQUOTA res).trans (ringOnly_onBase _ (·.quotaRefused h res))) hw
  refine ⟨⟨?_, fun hf hl hp hc => answer_writes h r d c stQUOTA res h hh hr ((calm_answer ..).trans (calm_quotaRefused _ _ _)) rfl hf hl hp hc⟩,
    A.sealed, A.txn, A.only⟩
  unfold State.completed
  rw [judge_ring]
  exact doneIn_settleRing _ h r h r d.id (doneIn_answer s h r d c stQUOTA res)

end Sys2Proof.Laws
end

