-- ==== Sys2Proof/Laws/Scene.lean ====
section
/-! SUPPORT. Laws of scenes and transactions: what a transaction sees after a change joins it, what closing a context takes away, and what commands that allocate, wait or cancel can change. -/

namespace Sys2Proof.Laws

open Sys2Proof Sys2Proof.Machine

theorem applyAll_addOp (sc : Scene) (ops : List SceneOp) (o : SceneOp) :
    sc.applyAll (addOp ops o) = (sc.applyAll (ops.filter (fun x => !x.same o))).apply o := by
  simp [Scene.applyAll, addOp, List.foldl_append]

/-- The object that a change names is what the change says. -/
theorem ctx_addOp (sc : Scene) (ops : List SceneOp) (k : Nat) (v : Option Ctx) : (sc.applyAll (addOp ops (.ctx k v))).ctx k = v := by
  rw [applyAll_addOp]; simp [Scene.apply, Scene.ctx]
theorem layer_addOp (sc : Scene) (ops : List SceneOp) (k : Nat) (v : Option Layer) : (sc.applyAll (addOp ops (.layer k v))).layer k = v := by
  rw [applyAll_addOp]; simp [Scene.apply, Scene.layer]
theorem region_addOp (sc : Scene) (ops : List SceneOp) (k : Nat) (v : Option Region) : (sc.applyAll (addOp ops (.region k v))).region k = v := by
  rw [applyAll_addOp]; simp [Scene.apply, Scene.region]

/-- What stands under a name, when no change of it is among the changes. -/
theorem ctx_filtered (sc : Scene) (ops : List SceneOp) (k : Nat) :
    (sc.applyAll (ops.filter (fun x => !x.same (.ctx k none)))).ctx k = sc.ctx k := by
  induction ops generalizing sc with
  | nil => rfl
  | cons o r ih =>
    rw [List.filter_cons]
    split
    · rename_i ho
      refine (ih (sc.apply o)).trans ?_
      cases o <;> simp_all [SceneOp.same, Scene.apply, Scene.ctx, sget_sput]
    · exact ih sc
theorem layer_filtered (sc : Scene) (ops : List SceneOp) (k : Nat) :
    (sc.applyAll (ops.filter (fun x => !x.same (.layer k none)))).layer k = sc.layer k := by
  induction ops generalizing sc with
  | nil => rfl
  | cons o r ih =>
    rw [List.filter_cons]
    split
    · rename_i ho
      refine (ih (sc.apply o)).trans ?_
      cases o <;> simp_all [SceneOp.same, Scene.apply, Scene.layer, sget_sput]
    · exact ih sc
theorem region_filtered (sc : Scene) (ops : List SceneOp) (k : Nat) :
    (sc.applyAll (ops.filter (fun x => !x.same (.region k none)))).region k = sc.region k := by
  induction ops generalizing sc with
  | nil => rfl
  | cons o r ih =>
    rw [List.filter_cons]
    split
    · rename_i ho
      refine (ih (sc.apply o)).trans ?_
      cases o <;> simp_all [SceneOp.same, Scene.apply, Scene.region, sget_sput]
    · exact ih sc

/-- A removed object is not seen, whether it was sealed or only staged. -/
theorem ctx_remove (sc : Scene) (x : Txn) (k : Nat) : (sc.applyAll (x.remove (sc.ctx k).isSome (.ctx k none)).ops).ctx k = none := by
  unfold Txn.remove; split
  · exact ctx_addOp sc x.ops k none
  · exact (ctx_filtered sc x.ops k).trans (Option.not_isSome_iff_eq_none.mp ‹_›)
theorem layer_remove (sc : Scene) (x : Txn) (k : Nat) : (sc.applyAll (x.remove (sc.layer k).isSome (.layer k none)).ops).layer k = none := by
  unfold Txn.remove; split
  · exact layer_addOp sc x.ops k none
  · exact (layer_filtered sc x.ops k).trans (Option.not_isSome_iff_eq_none.mp ‹_›)
theorem region_remove (sc : Scene) (x : Txn) (k : Nat) : (sc.applyAll (x.remove (sc.region k).isSome (.region k none)).ops).region k = none := by
  unfold Txn.remove; split
  · exact region_addOp sc x.ops k none
  · exact (region_filtered sc x.ops k).trans (Option.not_isSome_iff_eq_none.mp ‹_›)

@[simp] theorem hold_ops (x : Txn) (k : ObjKind) (key : Nat) : (x.hold k key).ops = x.ops := by unfold Txn.hold; split <;> rfl
@[simp] theorem hold_ages (x : Txn) (k : ObjKind) (key : Nat) : (x.hold k key).ages = x.ages := by unfold Txn.hold; split <;> rfl
@[simp] theorem hold_newCtx (x : Txn) (k : ObjKind) (key : Nat) : (x.hold k key).newCtx = x.newCtx := by unfold Txn.hold; split <;> rfl
@[simp] theorem add_ops (x : Txn) (o : SceneOp) : (x.add o).ops = addOp x.ops o := rfl
@[simp] theorem add_ages (x : Txn) (o : SceneOp) : (x.add o).ages = x.ages := rfl
@[simp] theorem add_newCtx (x : Txn) (o : SceneOp) : (x.add o).newCtx = x.newCtx := rfl

/-- What a transaction sees once it is set. -/
theorem view_setTxn (s : State) (h t : Nat) (x : Txn) : (s.setTxn h t (some x)).view h t = s.sealedScene.applyAll x.ops := by
  simp [State.view]

/-- A change of a transaction that exists. -/
theorem modTxn_some (s : State) (h t : Nat) (f : Txn → Txn) (x : Txn) (hx : s.txn h t = some x) : s.modTxn h t f = s.setTxn h t (some (f x)) := by
  simp [State.modTxn, hx]

theorem accepted_some (s : State) (h t : Nat) (x : Txn) (hx : s.txn h t = some x) :
    s.accepted h t = s.setTxn h t (some { x with accepted := true }) := by simp [State.accepted, modTxn_some s h t _ x hx]

theorem view_accepted (s : State) (h t : Nat) : (s.accepted h t).view h t = s.view h t := by
  unfold State.accepted State.modTxn
  split
  · rename_i x hx; rw [view_setTxn]; simp [State.view, hx]
  · rfl

theorem sealedScene_accepted (s : State) (h t : Nat) : (s.accepted h t).sealedScene = s.sealedScene := by
  unfold State.accepted State.modTxn; split <;> rfl

theorem canon_accepted (s : State) (h t : Nat) (hw : swf (fun _ => none) s.scenes.txns = true) :
    swf (fun _ => none) (s.accepted h t).scenes.txns = true := by
  unfold State.accepted State.modTxn; split
  · exact canon_setTxn s h t _ hw
  · exact hw

/-- A change within one transaction: it stays, and neither the scene in force and sealed nor the canonical form is touched. -/
structure InTxn (h t : Nat) (s u : State) : Prop where
  sealed : u.sealedScene = s.sealedScene
  there : (s.txn h t).isSome → (u.txn h t).isSome
  canon : swf (fun _ => none) s.scenes.txns = true → swf (fun _ => none) u.scenes.txns = true

theorem InTxn.refl (h t : Nat) (s : State) : InTxn h t s s := ⟨rfl, id, id⟩

theorem InTxn.trans {h t : Nat} {s u v : State} (h1 : InTxn h t s u) (h2 : InTxn h t u v) : InTxn h t s v :=
  ⟨h2.sealed.trans h1.sealed, h2.there ∘ h1.there, h2.canon ∘ h1.canon⟩

theorem inTxn_foldl {β : Type} (h t : Nat) (f : State → β → State) (hf : ∀ s e, InTxn h t s (f s e)) (l : List β) (s : State) :
    InTxn h t s (l.foldl f s) := by
  induction l generalizing s with
  | nil => exact .refl h t s
  | cons e r ih => exact (hf s e).trans (ih (f s e))

theorem inTxn_setTxn (s : State) (h t : Nat) (x : Txn) : InTxn h t s (s.setTxn h t (some x)) :=
  ⟨rfl, fun _ => by simp, canon_setTxn s h t _⟩

/-- A change of the state that leaves its scenes. -/
theorem inTxn_of_scenes {s u : State} (h t : Nat) (e : u.scenes = s.scenes) : InTxn h t s u :=
  ⟨by unfold State.sealedScene; rw [e], fun x => by unfold State.txn at *; rw [e]; exact x, fun x => by rw [e]; exact x⟩

/-- Removing a layer is a change within its transaction, which then does not see the layer. -/
theorem inTxn_dropLayer (h t : Nat) (s : State) (key : Nat) : InTxn h t s (State.dropLayer h t s key) := by
  unfold State.dropLayer
  split
  · exact (inTxn_setTxn s h t _).trans (inTxn_of_scenes h t rfl)
  · exact .refl h t s

theorem view_dropLayer (h t : Nat) (s : State) (key : Nat) (x : Txn) (l : Layer) (hx : s.txn h t = some x)
    (hl : (s.view h t).layer key = some l) : ((State.dropLayer h t s key).view h t).layer key = none := by
  unfold State.dropLayer
  rw [hx, hl]
  simp only
  split <;>
  · show ((State.setTxn s h t (some _)).view h t).layer key = none
    rw [view_setTxn]
    simp [layer_remove]

theorem inTxn_dropRegion (h t : Nat) (s : State) (key : Nat) : InTxn h t s (State.dropRegion h t s key) := by
  unfold State.dropRegion
  split
  · exact (inTxn_setTxn s h t _).trans (inTxn_of_scenes h t rfl)
  · exact .refl h t s

theorem sceneOnly_dropRegion (h t : Nat) (s : State) (key : Nat) : SceneOnly s (State.dropRegion h t s key) := by
  unfold State.dropRegion
  split
  · exact (sceneOnly_setTxn s h t _).trans (sceneOnly_onBase _ _)
  · rfl

theorem view_dropRegion (h t : Nat) (s : State) (key : Nat) (x : Txn) (g : Region) (hx : s.txn h t = some x)
    (hg : (s.view h t).region key = some g) : ((State.dropRegion h t s key).view h t).region key = none := by
  unfold State.dropRegion
  rw [hx, hg]
  simp only
  split <;>
  · simp only [view_onBase, view_setTxn, hold_ops, region_remove]

/-- Removing a context is a change within its transaction, which then does not see the context (R98). -/
theorem inTxn_dropCtx (h t : Nat) (s : State) (key : Nat) : InTxn h t s (State.dropCtx h t s key) := by
  unfold State.dropCtx
  have h1 := (inTxn_foldl h t (State.dropLayer h t) (inTxn_dropLayer h t) ((s.view h t).layersOf key) s).trans
    (inTxn_foldl h t (State.dropRegion h t) (inTxn_dropRegion h t) ((s.view h t).regionsOf key) _)
  simp only
  split
  · exact h1.trans ((inTxn_setTxn _ h t _).trans (inTxn_of_scenes h t rfl))
  · exact h1

theorem view_dropCtx (h t : Nat) (s : State) (key : Nat) (hx : (s.txn h t).isSome) :
    ((State.dropCtx h t s key).view h t).ctx key = none := by
  unfold State.dropCtx
  have h1 := ((inTxn_foldl h t (State.dropLayer h t) (inTxn_dropLayer h t) ((s.view h t).layersOf key) s).trans
    (inTxn_foldl h t (State.dropRegion h t) (inTxn_dropRegion h t) ((s.view h t).regionsOf key) _)).there hx
  simp only
  split
  · split <;>
    · simp only [view_onBase, view_setTxn, hold_ops, ctx_remove]
  · rename_i hn
    obtain ⟨y, hy⟩ := Option.isSome_iff_exists.mp h1
    cases hc : (Scene.ctx (State.view _ h t) key) with
    | none => rfl
    | some c => exact absurd hc (hn y c hy)

/-! ## Closing a context takes its objects away (R98) -/

/-- A change of another object leaves what stands under a layer's name. -/
theorem layer_apply_ne (sc : Scene) (o : SceneOp) (k : Nat) (h : o.same (.layer k none) = false) : (sc.apply o).layer k = sc.layer k := by
  cases o <;> simp_all [SceneOp.same, Scene.apply, Scene.layer, sget_sput]
theorem region_apply_ne (sc : Scene) (o : SceneOp) (k : Nat) (h : o.same (.region k none) = false) : (sc.apply o).region k = sc.region k := by
  cases o <;> simp_all [SceneOp.same, Scene.apply, Scene.region, sget_sput]

/-- Changes that say the same of a layer leave the same under its name. -/
theorem layer_filter_other (p : SceneOp → Bool) (k : Nat) (hp : ∀ o, p o = false → o.same (.layer k none) = false) (ops : List SceneOp)
    (sc tc : Scene) (h : sc.layer k = tc.layer k) : (sc.applyAll (ops.filter p)).layer k = (tc.applyAll ops).layer k := by
  induction ops generalizing sc tc with
  | nil => exact h
  | cons o r ih =>
    rw [List.filter_cons]
    split
    · refine ih (sc.apply o) (tc.apply o) ?_
      cases ho : o.same (.layer k none)
      · rw [layer_apply_ne _ _ _ ho, layer_apply_ne _ _ _ ho, h]
      · cases o <;> simp_all [SceneOp.same, Scene.apply, Scene.layer]
    · rename_i ho
      exact ih sc (tc.apply o) (h.trans (layer_apply_ne _ _ _ (hp o (by simpa using ho))).symm)
theorem region_filter_other (p : SceneOp → Bool) (k : Nat) (hp : ∀ o, p o = false → o.same (.region k none) = false) (ops : List SceneOp)
    (sc tc : Scene) (h : sc.region k = tc.region k) : (sc.applyAll (ops.filter p)).region k = (tc.applyAll ops).region k := by
  induction ops generalizing sc tc with
  | nil => exact h
  | cons o r ih =>
    rw [List.filter_cons]
    split
    · refine ih (sc.apply o) (tc.apply o) ?_
      cases ho : o.same (.region k none)
      · rw [region_apply_ne _ _ _ ho, region_apply_ne _ _ _ ho, h]
      · cases o <;> simp_all [SceneOp.same, Scene.apply, Scene.region]
    · rename_i ho
      exact ih sc (tc.apply o) (h.trans (region_apply_ne _ _ _ (hp o (by simpa using ho))).symm)

theorem same_symm_other {o q : SceneOp} (h : q.same o = true) {r : SceneOp} (hr : o.same r = false) : q.same r = false := by
  cases o <;> cases q <;> cases r <;> simp_all [SceneOp.same]

/-- Removing another object leaves what the transaction sees under a layer's or region's name. -/
theorem layer_remove_other (sc : Scene) (x : Txn) (b : Bool) (o : SceneOp) (k : Nat) (h : o.same (.layer k none) = false) :
    (sc.applyAll (x.remove b o).ops).layer k = (sc.applyAll x.ops).layer k := by
  have hp : ∀ q : SceneOp, (!q.same o) = false → q.same (.layer k none) = false := fun q hq => same_symm_other (by simpa using hq) h
  unfold Txn.remove; split
  · rw [add_ops, applyAll_addOp, layer_apply_ne _ _ _ h]; exact layer_filter_other _ k hp x.ops sc sc rfl
  · exact layer_filter_other _ k hp x.ops sc sc rfl
theorem region_remove_other (sc : Scene) (x : Txn) (b : Bool) (o : SceneOp) (k : Nat) (h : o.same (.region k none) = false) :
    (sc.applyAll (x.remove b o).ops).region k = (sc.applyAll x.ops).region k := by
  have hp : ∀ q : SceneOp, (!q.same o) = false → q.same (.region k none) = false := fun q hq => same_symm_other (by simpa using hq) h
  unfold Txn.remove; split
  · rw [add_ops, applyAll_addOp, region_apply_ne _ _ _ h]; exact region_filter_other _ k hp x.ops sc sc rfl
  · exact region_filter_other _ k hp x.ops sc sc rfl

/-- An absent layer stays absent while other objects are removed. -/
theorem layer_none_dropLayer (h t : Nat) (s : State) (key k : Nat) (hk : (s.view h t).layer k = none) : ((State.dropLayer h t s key).view h t).layer k = none := by
  by_cases he : key = k
  · subst he; unfold State.dropLayer; rw [hk]; split
    · contradiction
    · exact hk
  · unfold State.dropLayer
    split
    · rename_i x l hx hl
      show ((State.setTxn s h t (some _)).view h t).layer k = none
      have hv : (s.view h t) = s.sealedScene.applyAll x.ops := by simp [State.view, hx]
      have hr := layer_remove_other s.sealedScene x (s.sealedScene.layer key).isSome (.layer key none) k (by simp [SceneOp.same, he])
      rw [hv] at hk
      rw [view_setTxn]
      simp only
      split
      · exact hr.trans hk
      · rw [hold_ops]; exact hr.trans hk
    · exact hk
theorem layer_none_dropRegion (h t : Nat) (s : State) (key k : Nat) (hk : (s.view h t).layer k = none) : ((State.dropRegion h t s key).view h t).layer k = none := by
  unfold State.dropRegion
  split
  · rename_i x l hx hl
    show ((State.setTxn s h t (some _)).view h t).layer k = none
    have hv : (s.view h t) = s.sealedScene.applyAll x.ops := by simp [State.view, hx]
    have hr := layer_remove_other s.sealedScene x (s.sealedScene.region key).isSome (.region key none) k rfl
    rw [hv] at hk
    rw [view_setTxn]
    split
    · exact hr.trans hk
    · rw [hold_ops]; exact hr.trans hk
  · exact hk
theorem region_none_dropRegion (h t : Nat) (s : State) (key k : Nat) (hk : (s.view h t).region k = none) : ((State.dropRegion h t s key).view h t).region k = none := by
  by_cases he : key = k
  · subst he; unfold State.dropRegion; rw [hk]; split
    · contradiction
    · exact hk
  · unfold State.dropRegion
    split
    · rename_i x l hx hl
      show ((State.setTxn s h t (some _)).view h t).region k = none
      have hv : (s.view h t) = s.sealedScene.applyAll x.ops := by simp [State.view, hx]
      have hr := region_remove_other s.sealedScene x (s.sealedScene.region key).isSome (.region key none) k (by simp [SceneOp.same, he])
      rw [hv] at hk
      rw [view_setTxn]
      split
      · exact hr.trans hk
      · rw [hold_ops]; exact hr.trans hk
    · exact hk

theorem layer_gone_dropLayer (h t : Nat) (s : State) (k : Nat) (hx : (s.txn h t).isSome) : ((State.dropLayer h t s k).view h t).layer k = none := by
  obtain ⟨x, hx⟩ := Option.isSome_iff_exists.mp hx
  cases hl : (s.view h t).layer k with
  | some l => exact view_dropLayer h t s k x l hx hl
  | none => exact layer_none_dropLayer h t s k k hl
theorem region_gone_dropRegion (h t : Nat) (s : State) (k : Nat) (hx : (s.txn h t).isSome) : ((State.dropRegion h t s k).view h t).region k = none := by
  obtain ⟨x, hx⟩ := Option.isSome_iff_exists.mp hx
  cases hl : (s.view h t).region k with
  | some l => exact view_dropRegion h t s k x l hx hl
  | none => exact region_none_dropRegion h t s k k hl

theorem fold_gone {P : State → Nat → Prop} {f : State → Nat → State} {h t : Nat} (hI : ∀ s e, InTxn h t s (f s e))
   (hg : ∀ s k, (s.txn h t).isSome → P (f s k) k) (hk : ∀ s e k, P s k → P (f s e) k) (l : List Nat) (s : State) (hs : (s.txn h t).isSome) :
   ∀ k, (k ∈ l ∨ P s k) → P (l.foldl f s) k := by
  induction l generalizing s with
  | nil => intro k h; simpa using h
  | cons e r ih =>
    intro k hk'
    refine ih (f s e) ((hI s e).there hs) k ?_
    rcases hk' with hm | hp
    · rcases List.mem_cons.mp hm with rfl | hm
      · exact .inr (hg s k hs)
      · exact .inl hm
    · exact .inr (hk s e k hp)

/-- A context is closed with its layers and regions (R98). -/
theorem objects_dropCtx (h t : Nat) (s : State) (key : Nat) (hx : (s.txn h t).isSome) :
    (∀ k ∈ (s.view h t).layersOf key, ((State.dropCtx h t s key).view h t).layer k = none) ∧
      ∀ k ∈ (s.view h t).regionsOf key, ((State.dropCtx h t s key).view h t).region k = none := by
  have h1 := inTxn_foldl h t (State.dropLayer h t) (inTxn_dropLayer h t) ((s.view h t).layersOf key) s
  have hl := fun k hk => fold_gone (P := fun u k => (u.view h t).layer k = none) (inTxn_dropLayer h t) (layer_gone_dropLayer h t) (layer_none_dropLayer h t) ((s.view h t).layersOf key) s hx k (.inl hk)
  have hl2 : ∀ k ∈ (s.view h t).layersOf key, ((((s.view h t).regionsOf key).foldl (State.dropRegion h t) (((s.view h t).layersOf key).foldl (State.dropLayer h t) s)).view h t).layer k = none := by
    intro k hk
    have := hl k hk
    generalize ((s.view h t).layersOf key).foldl (State.dropLayer h t) s = u at this
    generalize (s.view h t).regionsOf key = l
    induction l generalizing u with
    | nil => exact this
    | cons e r ih => exact ih _ (layer_none_dropRegion h t u e k this)
  have hr := fun k hk => fold_gone (P := fun u k => (u.view h t).region k = none) (inTxn_dropRegion h t) (region_gone_dropRegion h t) (region_none_dropRegion h t) ((s.view h t).regionsOf key) _ (h1.there hx) k (.inl hk)
  simp only [State.dropCtx]
  generalize ((s.view h t).regionsOf key).foldl (State.dropRegion h t) (((s.view h t).layersOf key).foldl (State.dropLayer h t) s) = u at hl2 hr
  split
  · rename_i x c hx hc
    have hv : (u.view h t) = u.sealedScene.applyAll x.ops := by simp [State.view, hx]
    rw [hv] at hl2 hr
    refine ⟨fun k hk => ?_, fun k hk => ?_⟩
    · have e := (layer_remove_other u.sealedScene x (u.sealedScene.ctx key).isSome (.ctx key none) k rfl).trans (hl2 k hk)
      rw [view_onBase, view_setTxn]
      split
      · exact e
      · rw [hold_ops]; exact e
    · have e := (region_remove_other u.sealedScene x (u.sealedScene.ctx key).isSome (.ctx key none) k rfl).trans (hr k hk)
      rw [view_onBase, view_setTxn]
      split
      · exact e
      · rw [hold_ops]; exact e
  · exact ⟨hl2, hr⟩

/-- Two states that differ in their scenes, rings, scene memory and common core only. -/
def SceneMemOnly (s t : State) : Prop := t = { s with scenes := t.scenes, rings := t.rings, dome := t.dome, base := t.base }

theorem SceneMemOnly.refl (s : State) : SceneMemOnly s s := rfl
theorem SceneMemOnly.trans {s t u : State} (h1 : SceneMemOnly s t) (h2 : SceneMemOnly t u) : SceneMemOnly s u := by
  unfold SceneMemOnly at *; rw [h2, h1]
theorem SceneOnly.mem {s t : State} (h : SceneOnly s t) : SceneMemOnly s t := by unfold SceneOnly at h; unfold SceneMemOnly; rw [h]
theorem sceneMemOnly_foldl {β : Type} (f : State → β → State) (hf : ∀ s e, SceneMemOnly s (f s e)) (l : List β) (s : State) : SceneMemOnly s (l.foldl f s) := by
  induction l generalizing s with
  | nil => exact .refl s
  | cons e r ih => exact (hf s e).trans (ih (f s e))
theorem sceneOnly_accepted (s : State) (h t : Nat) : SceneOnly s (s.accepted h t) := by unfold State.accepted State.modTxn; split <;> rfl
theorem sceneMemOnly_dropLayer (h t : Nat) (s : State) (key : Nat) : SceneMemOnly s (State.dropLayer h t s key) := by
  unfold State.dropLayer; split <;> rfl
theorem sceneMemOnly_dropCtx (h t : Nat) (s : State) (key : Nat) : SceneMemOnly s (State.dropCtx h t s key) := by
  have h1 := (sceneMemOnly_foldl (State.dropLayer h t) (sceneMemOnly_dropLayer h t) ((s.view h t).layersOf key) s).trans
    (sceneMemOnly_foldl (State.dropRegion h t) (fun s e => (sceneOnly_dropRegion h t s e).mem) ((s.view h t).regionsOf key) _)
  simp only [State.dropCtx]
  split
  · exact h1.trans rfl
  · exact h1
/-! ## What commands that allocate, wait or cancel change -/

/-- A report of poison changes the common core only. -/
theorem reportGran_same (s : State) (g : Nat) : RingOnly s (s.reportGran g) := by
  unfold State.reportGran
  split
  · simp only [State.reportPoison]
    split
    · exact ringOnly_onBase _ _
    · exact .refl s
  · exact .refl s

/-- A staged copy leaves the codec and the scene in force and sealed. -/
theorem copyOne_same (h t key plane : Nat) (s : State) (i : Nat) :
    (State.copyOne h t key plane s i).codec = s.codec ∧ (State.copyOne h t key plane s i).sealedScene = s.sealedScene := by
  unfold State.copyOne
  split
  · have q := reportGran_same ((({ s with dome := ((s.dome.take h plane (key % 65536) i).2.copyGran (((‹Layer›).grans plane).getD i 0) (s.dome.take h plane (key % 65536) i).1) } : State).setTxn h t (some { (‹Txn›).add (.layer key (some ((‹Layer›).setGrans plane (((‹Layer›).grans plane).set i (s.dome.take h plane (key % 65536) i).1)))) with grans := (s.dome.take h plane (key % 65536) i).1 :: (‹Txn›).grans, copies := ((((‹Layer›).grans plane).getD i 0), (s.dome.take h plane (key % 65536) i).1) :: (‹Txn›).copies })).onBase (·.takeUse h 5 1)) (s.dome.take h plane (key % 65536) i).1
    exact ⟨q.codec, q.sealedScene⟩
  · exact ⟨rfl, rfl⟩
theorem copyMany_same (h t key plane : Nat) (l : List Nat) (s : State) :
    (s.copyMany h t key plane l).codec = s.codec ∧ (s.copyMany h t key plane l).sealedScene = s.sealedScene := by
  unfold State.copyMany
  induction l generalizing s with
  | nil => exact ⟨rfl, rfl⟩
  | cons a r ih =>
    obtain ⟨h1, h2⟩ := copyOne_same h t key plane s a
    obtain ⟨g1, g2⟩ := ih (State.copyOne h t key plane s a)
    exact ⟨g1.trans h1, g2.trans h2⟩
/-- A change of a transaction leaves the codec, the rings, scene memory and the scene in force and sealed. -/
theorem modTxn_same (s : State) (h t : Nat) (f : Txn → Txn) :
    (s.modTxn h t f).codec = s.codec ∧ (s.modTxn h t f).sealedScene = s.sealedScene ∧ (s.modTxn h t f).rings = s.rings ∧ (s.modTxn h t f).dome = s.dome := by
  unfold State.modTxn; split <;> exact ⟨rfl, rfl, rfl, rfl⟩

theorem codec_foldl {β : Type} (f : State → β → State) (hf : ∀ x e, (f x e).codec.decodes = x.codec.decodes ∧ (f x e).codec.waiting = x.codec.waiting ∧ (f x e).sealedScene = x.sealedScene ∧ (f x e).dome = x.dome ∧ (f x e).rings = x.rings) (l : List β) (x : State) :
    (l.foldl f x).codec.decodes = x.codec.decodes ∧ (l.foldl f x).codec.waiting = x.codec.waiting ∧ (l.foldl f x).sealedScene = x.sealedScene ∧ (l.foldl f x).dome = x.dome ∧ (l.foldl f x).rings = x.rings := by
  induction l generalizing x with
  | nil => exact ⟨rfl, rfl, rfl, rfl, rfl⟩
  | cons a r ih =>
    obtain ⟨a1, a2, a3, a4, a5⟩ := ih (f x a)
    obtain ⟨b1, b2, b3, b4, b5⟩ := hf x a
    exact ⟨a1.trans b1, a2.trans b2, a3.trans b3, a4.trans b4, a5.trans b5⟩

/-- One engine's part in dropping DECODEs. -/
def dropStep (gone : List Nat) (x : State) (e : Nat) : State :=
    match (x.engine e).job with
    | some j => if gone.contains j.dec then (x.setEngine e ((x.engine e).free x.base.ticks)).refreshEngine e else x
    | none => x
theorem dropDecodes_eq (s : State) (p : Decode → Bool) : s.dropDecodes p = (List.range 16).foldl (dropStep ((s.codec.decodes.filter p).map (·.id))) { s with codec := { s.codec with
    decodes := s.codec.decodes.filter (fun d => !p d)
    waiting := s.codec.waiting.filter (fun j => !((s.codec.decodes.filter p).map (·.id)).contains j.dec)
    kept := ((s.codec.decodes.filter p).map (·.id)).foldl (fun m i => sput (fun _ => none) m i none) s.codec.kept
    shun := s.codec.shun.filter (fun q => !((s.codec.decodes.filter p).map (·.id)).contains q.1.dec) } } := by
  unfold State.dropDecodes dropStep
  rfl

/-- Dropping DECODEs takes them and their waiting jobs out of the codec, and leaves the rings, scene memory and the scene in force and sealed. -/
theorem dropDecodes_same (s : State) (p : Decode → Bool) :
    (s.dropDecodes p).codec.decodes = s.codec.decodes.filter (fun d => !p d) ∧
    (s.dropDecodes p).codec.waiting = s.codec.waiting.filter (fun j => !((s.codec.decodes.filter p).map (·.id)).contains j.dec) ∧
    (s.dropDecodes p).sealedScene = s.sealedScene ∧ (s.dropDecodes p).dome = s.dome ∧ (s.dropDecodes p).rings = s.rings := by
  rw [dropDecodes_eq]
  have hf : ∀ gone x e, (dropStep gone x e).codec.decodes = x.codec.decodes ∧ (dropStep gone x e).codec.waiting = x.codec.waiting ∧ (dropStep gone x e).sealedScene = x.sealedScene ∧ (dropStep gone x e).dome = x.dome ∧ (dropStep gone x e).rings = x.rings := by
    intro gone x e
    unfold dropStep
    split
    · split
      · exact ⟨rfl, rfl, rfl, rfl, rfl⟩
      · exact ⟨rfl, rfl, rfl, rfl, rfl⟩
    · exact ⟨rfl, rfl, rfl, rfl, rfl⟩
  obtain ⟨a, b, c, d, e⟩ := codec_foldl (dropStep ((s.codec.decodes.filter p).map (·.id))) (hf _) (List.range 16) { s with codec := { s.codec with
    decodes := s.codec.decodes.filter (fun d => !p d)
    waiting := s.codec.waiting.filter (fun j => !((s.codec.decodes.filter p).map (·.id)).contains j.dec)
    kept := ((s.codec.decodes.filter p).map (·.id)).foldl (fun m i => sput (fun _ => none) m i none) s.codec.kept
    shun := s.codec.shun.filter (fun q => !((s.codec.decodes.filter p).map (·.id)).contains q.1.dec) } }
  generalize List.foldl _ _ _ = z at a b c d e ⊢
  exact ⟨a, b, c, d, e⟩

/-- Completing a descriptor leaves completed ones completed, and it has completed. -/
theorem doneIn_finish (s : State) (h k q id st info i : Nat) (time : Option Nat) (hd : DoneIn (s.ring k q) i) : DoneIn ((s.finish h id st info time).ring k q) i := by
  unfold State.finish State.markHost
  generalize hf : s.ended h st info time = f
  have : ∀ (l : List Nat) (x : State), DoneIn (x.ring k q) i → DoneIn ((l.foldl (fun x r => x.mark h r id f) x).ring k q) i := by
    intro l
    induction l with
    | nil => intro x hx; exact hx
    | cons a r ih => intro x hx; exact ih _ (hf ▸ doneIn_mark x s h a k q id st info i time hx)
  exact this _ s hd

theorem done_finish (s : State) (h q i st info : Nat) (time : Option Nat) (hq : q < 16) : DoneIn ((s.finish h i st info time).ring h q) i := by
  unfold State.finish State.markHost
  generalize hf : s.ended h st info time = f
  have key : ∀ x : State, DoneIn ((x.mark h q i f).ring h q) i := by
    intro x
    simp only [State.mark, ring_setRing, if_true]
    intro e he hi
    obtain ⟨y, hy, rfl⟩ := List.mem_map.mp he
    split at hi
    · rename_i hid; rw [if_pos hid, ← hf]; rfl
    · rename_i hid; exact absurd hi hid
  have : ∀ (l : List Nat) (x : State), (q ∈ l ∨ DoneIn (x.ring h q) i) → DoneIn ((l.foldl (fun x r => x.mark h r i f) x).ring h q) i := by
    intro l
    induction l with
    | nil => intro x hx; simpa using hx
    | cons a r ih =>
      intro x hx
      apply ih
      rcases hx with hx | hx
      · rcases List.mem_cons.mp hx with rfl | hx
        · exact .inr (key x)
        · exact .inl hx
      · exact .inr (hf ▸ doneIn_mark x s h a h q i st info i time hx)
  exact this _ s (.inl (by simp [hq]))

/-- The descriptors that a SUPERSEDE completes have completed. -/
theorem finishes_done (l : List Nat) (s : State) (h q i : Nat) (hq : q < 16) (hi : i ∈ l ∨ DoneIn (s.ring h q) i) :
    DoneIn ((l.foldl (fun x i => x.finish h i stSUPERSEDED 0 none) s).ring h q) i := by
  induction l generalizing s with
  | nil => simpa using hi
  | cons a r ih =>
    apply ih
    rcases hi with hi | hi
    · rcases List.mem_cons.mp hi with rfl | hi
      · exact .inr (done_finish s h q i _ _ _ hq)
      · exact .inl hi
    · exact .inr (doneIn_finish s h h q a _ _ i none hi)

theorem finishes_only (l : List Nat) (s : State) (h : Nat) : RingOnly s (l.foldl (fun x i => x.finish h i stSUPERSEDED 0 none) s) :=
  ringOnly_foldl _ (fun s i => ringOnly_finish s h i _ _ _) l s

/-- Draining rings adds no descriptor. -/
theorem flight_sub_drains (l : List Nat) (s : State) (h k q : Nat) : ∀ e ∈ ((l.foldl (fun x r => State.drain x h r) s).ring k q).flight, e ∈ (s.ring k q).flight := by
  induction l generalizing s with
  | nil => intro e he; exact he
  | cons r l ih =>
    intro e he
    have := ih _ e he
    rcases drain_ring s h r k q with e1 | ⟨e1, e2⟩
    · rwa [e1] at this
    · rw [e2] at this
      have hq : s.ring h r = s.ring k q := by unfold State.ring; rw [e1]
      rw [← hq]
      exact splitDone_sub _ _ _ e this

/-- Rejecting malformed fronts leaves admitted descriptors admitted. -/
theorem adm_reject (h r n i : Nat) (s : State) (hs : ∀ e ∈ (s.ring h r).flight, e.id = i → e.admitted = true) :
    ∀ e ∈ ((State.rejectMalformed h r n s).ring h r).flight, e.id = i → e.admitted = true := by
  induction n generalizing s with
  | zero => exact hs
  | succ n ih =>
    simp only [State.rejectMalformed]
    split
    · exact hs
    · split
      · refine ih _ ?_
        simp only [ring_onBase, State.mark, ring_setRing, if_true]
        intro e he
        obtain ⟨y, hy, rfl⟩ := List.mem_map.mp he
        split
        · intro hi; exact hs y hy hi
        · exact hs y hy
      · exact hs

/-- MEM_SHORT (R279) is logged and its event pends. -/
theorem calm_memShort (s : State) (h n : Nat) : Calm s.base (s.memShort h n).base := by
  simp only [State.memShort, onBase_base]
  generalize hb : s.base.fault pgDOM 3 (leBytes 1 h ++ [0, 0, 0] ++ leBytes 4 n) = c
  have h1 := calm_fault s.base pgDOM 3 (leBytes 1 h ++ [0, 0, 0] ++ leBytes 4 n)
  rw [hb] at h1
  exact h1.trans (calm_raise c pgDOM 17)

theorem event_memShort (s : State) (h n : Nat) : ((s.memShort h n).base.word (hdr pgDOM 0x18)).toNat.testBit 17 = true := by
  simp only [State.memShort, onBase_base]
  generalize s.base.fault pgDOM 3 (leBytes 1 h ++ [0, 0, 0] ++ leBytes 4 n) = c
  simp only [word_raise, if_true]
  simp
  exact .inr (by decide)

end Sys2Proof.Laws
end

