-- ==== Sys2Proof/Laws/Units.lean ====
section
/-! SUPPORT. What a register write that is taken does (R12, R46), and what a write of UNIT_CTRL that asks for a unit reset or a change of ENABLE comes to (R40, Table 2.3). -/

namespace Sys2Proof.Laws

open Sys2Proof Sys2Proof.Machine

theorem storeKey_unitCtrl (h p : Nat) : storeKey h (hdr p 0x20) = hdr p 0x20 := by
  have h2 : hdr p 0x20 % 4096 = 0x20 := by unfold hdr; omega
  have : perHostReg (hdr p 0x20) = false := by
    have hn : ∀ k ∈ [Reg.cmpProbeXy, Reg.cmpProbeOut, Reg.frsQuery, Reg.frsQueryAge, Reg.frsQueryBound, Reg.domMapQuery, Reg.domMapEntry,
        Reg.calQuery, Reg.calQueryOut], k % 4096 ≠ 0x20 := by decide
    simp only [perHostReg, List.contains_eq_mem, decide_eq_false_iff_not]
    exact fun hm => hn _ hm h2
  simp [storeKey, this]

/-- UNIT_CTRL holds no field that waits for a seal. -/
theorem touchesRws_unitCtrl (p : Nat) (be : BitVec 4) : ∀ d, descAt (hdr p 0x20) = some d → d.touchesRws be = false := by
  intro d hd
  have h1 : hdr p 0x20 / 4096 = p := by unfold hdr; omega
  have h2 : hdr p 0x20 % 4096 = 0x20 := by unfold hdr; omega
  simp only [descAt, h1, h2] at hd
  split at hd
  · cases hd
  · rename_i i hi
    have he : (enableOf i.cls).2 ≠ .rws := by unfold enableOf; (repeat' split) <;> decide
    simp only [show (0x20 : Nat) < 0x40 from by decide, if_true, headerRegs, List.find?, RegDesc.hits] at hd
    simp at hd
    subst hd
    cases hx : (enableOf i.cls).2 <;> cases alwaysOnPage p <;> simp_all [RegDesc.touchesRws]

/-- A write that is taken, of a register without a field that waits for a seal, stores the word and then has its effect (R12, R46). -/
theorem write_accepted (s : State) (key : Nat) (a : RegWr) (k : Nat → Nat → Nat → State → State) (ha : s.accepts key a = true)
    (hr : ∀ d, descAt key = some d → d.touchesRws a.be = false) :
    s.write key a k = k (s.applied key a).act (s.base.word (storeKey a.host.toNat key)).toNat (s.applied key a).word (s.stored key a) := by
  simp only [State.accepts, Bool.and_eq_true, Bool.not_eq_true'] at ha
  obtain ⟨⟨⟨⟨⟨h1, h2⟩, h3⟩, h4⟩, h5⟩, h6⟩ := ha
  cases hd : descAt key with
  | none => simp [hd] at h2
  | some d =>
    have hap : s.applied key a = applyWrite d (s.base.word (storeKey a.host.toNat key)).toNat (s.sealWord key).toNat a := by
      simp [State.applied, hd]
    rw [hap] at h4 h5 h6 ⊢
    simp only [hd, Option.map_some, Option.getD_some] at h2
    simp only [State.write, Base.regWrite, h1, if_true, hd, h2, Bool.not_true, Bool.false_eq_true, if_false, h3, h6, h4, h5, Bool.false_and, Bool.or_self, hr d hd]
    simp only [State.stored, hap, State.onBase]

/-- A write of UNIT_CTRL that asks for a unit reset stores the word and resets the unit. -/
theorem ctrlWrite_reset (s : State) (p : Nat) (a : RegWr) (ok : Bool) (r : List Sample) (ha : s.asksReset p a = true) :
    s.ctrlWrite p a ok r = State.unitReset ok r p (s.stored (hdr p 0x20) a) := by
  simp only [State.asksReset, Bool.and_eq_true, bne_iff_ne, beq_iff_eq] at ha
  obtain ⟨⟨⟨h1, h2⟩, h3⟩, h4⟩ := ha
  simp only [State.ctrlWrite, State.unitCtrl]
  rw [write_accepted _ _ _ _ h1 (touchesRws_unitCtrl p _), storeKey_unitCtrl]
  simp [h2, h4, h3]

/-- A write of UNIT_CTRL that asks for a change of ENABLE stores the word, tells the pages above of the change, and has the unit's effect. -/
theorem ctrlWrite_enable (s : State) (p : Nat) (a : RegWr) (on : Bool) (ok : Bool) (r : List Sample) (ha : s.asksEnable p a on = true) :
    s.ctrlWrite p a ok r = State.pageEnabled p on ((s.stored (hdr p 0x20) a).onBase (fun b => Base.stateEvents s.base b (ancestors 5 p))) := by
  simp only [State.asksEnable, Bool.and_eq_true, bne_iff_ne, beq_iff_eq, Bool.not_eq_true'] at ha
  obtain ⟨⟨⟨⟨h1, h2⟩, h3⟩, h4⟩, h5⟩ := ha
  simp only [State.ctrlWrite, State.unitCtrl]
  rw [write_accepted _ _ _ _ h1 (touchesRws_unitCtrl p _), storeKey_unitCtrl]
  simp only [h2, h4, h3, if_false, Bool.false_eq_true]
  cases on <;> simp [h5]

/-- ENABLE after the write is the bit that was written. -/
theorem enabled_stored (s : State) (p : Nat) (a : RegWr) :
    (s.stored (hdr p 0x20) a).base.enabled p = ((s.applied (hdr p 0x20) a).word % 2 == 1) := by
  have hw : (s.stored (hdr p 0x20) a).base.word (hdr p 0x20) = BitVec.ofNat 32 (s.applied (hdr p 0x20) a).word := by
    simp only [State.stored, onBase_base, storeKey_unitCtrl, word_setWord_same]
  simp only [Base.enabled, Base.flag, Base.get, hw, getBits, bits_eq, BitVec.toNat_ofNat, pow_zero, Nat.div_one]
  congr 1
  show _ % 2 = _
  omega

/-- A unit reset leaves ENABLE as it was. -/
theorem enabled_reset (s : State) (p : Nat) (a : RegWr) (ha : s.asksReset p a = true) :
    (s.stored (hdr p 0x20) a).base.enabled p = s.base.enabled p := by
  simp only [State.asksReset, Bool.and_eq_true, bne_iff_ne, beq_iff_eq] at ha
  rw [enabled_stored, ← ha.2]
  simp [Base.enabled, Base.flag, Base.get, getBits, bits_eq]

/-- A change of ENABLE leaves it as written. -/
theorem enabled_enable (s : State) (p : Nat) (a : RegWr) (on : Bool) (ha : s.asksEnable p a on = true) :
    (s.stored (hdr p 0x20) a).base.enabled p = on := by
  simp only [State.asksEnable, Bool.and_eq_true, bne_iff_ne, beq_iff_eq] at ha
  rw [enabled_stored, ha.2]
  cases on <;> rfl

end Sys2Proof.Laws
end

