-- ==== Sys2Proof/Machine/Package.lean ====
section
/-! DEFINITION. The ball map of the package (R566 to R572): what lies at each of the 54 × 54 balls. -/

namespace Sys2Proof.Machine

/-- What a ball carries. A differential ball says whether it is the negative one of its pair. -/
inductive BallUse where
  | gate (z s : Nat) | dim (z s : Nat) | vsns (z s : Nat) | isns (z s : Nat)
  | com (k : Nat) | seg (m : Nat)
  | panel (port lane : Nat) (neg : Bool) | back (k : Nat) (neg : Bool) | xt (k : Nat) (neg : Bool) | xr (k : Nat) (neg : Bool)
  | timeTx (neg : Bool) | timeRx (neg : Bool) | refclk (neg : Bool)
  | pcieTx (n : Nat) (neg : Bool) | pcieRx (n : Nat) (neg : Bool) | pcieRefclk (h : Nat) (neg : Bool)
  | signal (name : String)
  | supply (rail : String)
  | gnd
  deriving DecidableEq, Repr

/-- Beacon balls: columns 0 to 3 and 50 to 53 of rows 3 to 50 (R568). -/
def beaconBall (r c : Nat) : Option BallUse :=
  let k := if c < 4 then c else c - 50
  let z := (r - 3) / 8 + (if c < 4 then 0 else 6)
  let s := 2 * ((r - 3) % 8 / 2) + k / 2
  if r < 3 ∨ 51 ≤ r ∨ (4 ≤ c ∧ c < 50) then none
  else some (match (r - 3) % 2, k % 2 with
    | 0, 0 => .gate z s
    | 0, _ => .dim z s
    | _, 0 => .vsns z s
    | _, _ => .isns z s)

/-- Belfry balls (R569). -/
def belfryBall (r c : Nat) : Option BallUse :=
  if r = 0 ∧ 4 ≤ c ∧ c < 12 then some (.com (c - 4))
  else if r = 0 ∧ 12 ≤ c ∧ c < 48 then some (.seg (c - 12))
  else if r = 1 ∧ 4 ≤ c ∧ c < 48 then some (.seg (c + 32))
  else none

/-- Eight lanes side by side from column 8 or 12 on: which of them, if the column is one of theirs. -/
def laneColumn (base c : Nat) : Option Nat := if base ≤ c ∧ c < base + 32 ∧ (c - base) % 4 < 2 then some ((c - base) / 4) else none

/-- High-speed balls (Table 21.3). -/
def serialBall (r c : Nat) : Option BallUse :=
  let neg := c % 2 == 1
  let pcie (base : Nat) (f : Nat → BallUse) : Option BallUse := (laneColumn 12 c).map (fun m => f (8 * base + m))
  if c = 42 ∨ c = 43 then
    (if r = 4 ∨ r = 7 ∨ r = 10 ∨ r = 13 then some (.xt ((r - 4) / 3) neg) else if r = 16 then some (.timeTx neg) else if r = 19 then some (.refclk neg) else none)
  else if c = 46 ∨ c = 47 then
    (if r = 4 ∨ r = 7 ∨ r = 10 ∨ r = 13 then some (.xr ((r - 4) / 3) neg) else if r = 16 then some (.timeRx neg) else none)
  else if r = 4 ∨ r = 7 then (laneColumn 8 c).map (fun m => .panel 0 (8 * ((r - 4) / 3) + m) neg)
  else if r = 10 ∨ r = 13 then (laneColumn 8 c).map (fun m => .panel 1 (8 * ((r - 10) / 3) + m) neg)
  else if r = 16 ∧ c < 24 then (laneColumn 8 c).map (fun k => .back k neg)
  else if r = 52 then pcie 0 (fun n => .pcieTx n neg)
  else if r = 46 then pcie 1 (fun n => .pcieTx n neg)
  else if r = 49 then pcie 0 (fun n => .pcieRx n neg)
  else if r = 43 then pcie 1 (fun n => .pcieRx n neg)
  else if r = 40 ∧ 12 ≤ c ∧ c < 44 ∧ (c - 12) % 8 < 2 then some (.pcieRefclk ((c - 12) / 8) neg)
  else none

/-- The other signals of row 22, from column 26 on (Table 21.4). -/
def rowSignals : List String :=
  ["POR_N", "RESET_N", "WARM_N", "RESET_OUT_N", "PWRFAIL_N", "VIN_SNS", "BIFUR_STRAP0", "BIFUR_STRAP1", "SB_ADDR0", "SB_ADDR1",
   "SB_SCL", "SB_SDA", "SB_ALERT_N", "TCK", "TMS", "TDI", "TDO", "TRST_N", "TEST_N"]

/-- The signals of row 22: GPIO0 to GPIO15 and the others (R571). -/
def signalBall (r c : Nat) : Option BallUse :=
  if r ≠ 22 then none
  else if 8 ≤ c ∧ c < 24 then some (.signal ("GPIO" ++ toString (c - 8)))
  else if 26 ≤ c then (rowSignals[c - 26]?).map .signal
  else none

/-- The rail of a checkerboard row (Table 21.5). -/
def boardRail (r : Nat) : Option String :=
  if r = 17 ∨ r = 18 ∨ r = 41 ∨ r = 42 then some "VSER"
  else if r = 20 ∨ r = 47 then some "VSER_H"
  else if r = 21 then some "VSRAM"
  else if 24 ≤ r ∧ r ≤ 39 then some "VCORE"
  else if r = 44 ∨ r = 45 ∨ r = 50 ∨ r = 51 then some "VDDQ_S"
  else if r = 48 then some "VPP_S"
  else none

/-- Supply balls (R572). -/
def supplyBall (r c : Nat) : Option BallUse :=
  if r = 23 then
    (if 8 ≤ c ∧ c < 16 then some (.supply "VIO") else if 16 ≤ c ∧ c < 20 then some (.supply "VAON") else if c = 20 ∨ c = 21 then some (.supply "VLCD")
     else if 22 ≤ c ∧ c < 26 then some (.supply "VHOLD") else none)
  else if 4 ≤ c ∧ c < 50 ∧ (r + c) % 2 = 0 then (boardRail r).map .supply
  else none

/-- What lies at row r and column c; every ball that no rule names is GND (R572). -/
def ballAt (r c : Nat) : BallUse :=
  ((beaconBall r c).orElse (fun _ => (belfryBall r c).orElse (fun _ => (serialBall r c).orElse (fun _ =>
    (signalBall r c).orElse (fun _ => supplyBall r c))))).getD .gnd

/-- The centre of a ball in half millimetres from the package centre, seen from above (R566). -/
def ballCentre (r c : Nat) : Int × Int := ((2 * c : Int) - 53, 53 - (2 * r : Int))

/-- The balls of the package that a predicate selects. -/
def ballCount (f : BallUse → Bool) : Nat := ((List.range 54).map (fun r => ((List.range 54).filter (fun c => f (ballAt r c))).length)).foldl (· + ·) 0

end Sys2Proof.Machine
end

