-- ==== Sys2Proof/WellFormed.lean ====
section
/-! DEFINITION. Well-formed commands: the operands that come from outside have the sizes the spec gives them. A meaning does not rely on these checks; each message, frame and sample is checked again where it is processed. -/

namespace Sys2Proof

/-- A control block of the panel or the pair link has 32 bytes (R332, R467). -/
def blockFormed (bs : List Byte) : Bool := bs.length == 32

/-- A block that was decoded has 32 bytes; a codeword as received has 2,035 symbols (R331). -/
def BackBlock.formed : BackBlock → Bool
  | .control bs => blockFormed bs
  | .dataBlock bs => blockFormed bs
  | .codeword before levels _ => before.length == 2035 && levels.length == 2035
  | _ => true

/-- A DOE object holds at least its two header double words and whole double words (R458). -/
def objectFormed (bs : List Byte) : Bool := decide (8 ≤ bs.length) && bs.length % 4 == 0

/-- A reading lies within 16 bits by its type; a thermal sample covers all 64 sensors (R522). -/
def samplesFormed (xs : List Sample) : Bool := xs.length == 64

/-- The operands of a command have the sizes the spec gives them. -/
def Instr.wellFormed : Instr → Bool
  | .bcStatus _ _ m | .bcHealth _ _ m | .crcReport _ _ m | .laneLoss _ _ m | .loopResult _ _ m => m.formed
  | .parHeartbeat b | .parSignature b | .parYield b | .swapReq b | .swapAck b | .parHello b | .parDown b | .parAck b
  | .parNak b | .parMap b | .parViol b => b.block.formed
  | .getId _ m | .getChain _ m | .getMeas _ m | .doeDiscovery _ m => objectFormed m
  | .thermalSample xs => samplesFormed xs
  | .sxtLocked xs => xs.length == 16
  | .tlpError _ _ _ header => header.length == 16
  | .bar2Read _ _ len _ => decide (1 ≤ len ∧ len ≤ 4096)
  | .bar2Write _ _ bs _ => decide (1 ≤ bs.length ∧ bs.length ≤ 4096)
  | _ => true

end Sys2Proof
end

