-- ==== Sys2Proof/Tests/Slice0.lean ====
section
/-! SUPPORT. Tests of the model: one theorem per obligation that shows states and operands meeting its hypotheses, a refused term for each check of WellFormed, and single commands on small states whose results the spec gives. -/

open Sys2Proof Sys2Proof.Machine

namespace Sys2Proof.Tests

set_option Elab.async false

/-! ## Small states -/

/-- A write of a whole register by host 0. -/
def wr (v : BitVec 32) : RegWr := ⟨0, v, 15⟩

/-- Fields of registers set to values. -/
def sets (s : State) (l : List (FieldRef × Nat)) : State := l.foldl (fun x p => x.onBase (·.put p.1 p.2)) s

/-- A register set to a word. -/
def word (key : Nat) (v : BitVec 32) (s : State) : State := s.onBase (·.setWord key v)

/-- A page in a unit state. -/
def own (p st : Nat) (s : State) : State := s.onBase (·.setOwn p st)

/-- The release sequence is over, link 0 is up and masters the bus, 1,600 seconds have passed; Sextant time is 0. -/
def up : State :=
  sets { State.reset with
    base := { Base.reset with ticks := 1000000000000, links := [(0, ⟨true, false, true, true, [], [], none⟩)] }
    pwr := { State.reset.pwr with held := false } } [(Reg.rstStep_STEP, 8)]

/-- The same with Sextant time at 1 s. -/
def late : State := { up with base := { up.base with acc := 2 ^ 32 * 1000000000 } }

def sco (c : Sco) (s : State) : State := { s with sco := c }
def pwr (p : Power) (s : State) : State := { s with pwr := p }
def port (p : Nat) (x : Port) (s : State) : State := { s with pnl := { s.pnl with ports := [(p, x)] } }
def lane (l : Nat) (x : Lane) (s : State) : State := { s with pnl := { s.pnl with lanes := [(l, x)] } }
def zone (z : Nat) (x : Zone) (s : State) : State := { s with bcn := { s.bcn with zones := [(z, x)] } }
def str (z i : Nat) (x : Str) (s : State) : State := { s with bcn := { s.bcn with strs := [(8 * z + i, x)] } }
def txns (l : Sparse (Option Txn)) (s : State) : State := { s with scenes := { s.scenes with txns := l } }
def uploads (l : Sparse (Option Upload)) (s : State) : State := { s with dome := { s.dome with uploads := l } }

/-- A descriptor of an opcode in transaction t, with the first bytes of its record; tag 7. -/
def desc (op t : Nat) (r : List Byte) : Desc :=
  ⟨0, 0, leBytes 1 op ++ [0] ++ leBytes 2 t ++ leBytes 4 7 ++ r ++ List.replicate (56 - r.length) 0, 0, .fetched, none, false, false⟩

/-- Ring 0 of host 0 runs, with one descriptor fetched. -/
def ring (d : Desc) (s : State) : State := (sets s [(Reg.ringCtrl_RUN 0 0, 1)]).setRing 0 0 ⟨[d], [], false⟩

/-- An OPEN transaction, a context, a layer, a region. -/
def tx0 : Txn := ⟨false, false, [], [], [], [], 0, 0, 0, none, none, none, false, 0, []⟩
def cx : Ctx := ⟨1, 0, 5, false, 0⟩
def ly : Layer := ⟨2, objKey 0 40959, 0, 0, true, false, 255, 0, 0, 32, 32, 0, 0, 0, 0, [], []⟩
def rg : Region := ⟨3, objKey 0 40959, 0xFFFF, 0, false, 0, 0, 1, 1⟩

/-- The descriptor waits in ring 0, and transaction 3 has staged these changes. -/
def scene (d : Desc) (ops : List SceneOp) (x : Txn) : State := txns [(3, some { x with ops := ops })] (ring d up)

/-- A DECODE and its first job; a 2D operation. -/
def dc : Decode := ⟨9, 0, 0, 3, 49151, 0, true, 65535, 0, 16, 0, 0, 1, 1, true, none, 0, false, 0⟩
def jb : Job := ⟨9, 0, 0, 0⟩
def op1 : TwdOp :=
  ⟨1, 3, false, 0, 1, 1, 0, 0, 0, 2, 0, 65535, 0, 0, 0, 64, 0, 0, 0, 0, 0, 0, 0, 0, [], 0, [], [], false, false, false⟩

/-- A back-channel control block, a pair-link message with its CRC. -/
def block (b : List Byte) : List Byte := b ++ List.replicate (32 - b.length) 0
def pairMsg (b : List Byte) : List Byte :=
  let x := b ++ List.replicate (28 - b.length) 0
  x ++ leBytes 4 (crc32c x)

/-- A frame to 01:1B:19:00:00:00 with EtherType 88F7, and a wall-status frame. -/
def ptpFrame : List Byte := [0x01, 0x1B, 0x19, 0, 0, 0, 0, 0, 0, 0, 0, 0, 0x88, 0xF7] ++ List.replicate 44 0
def wallFrame : List Byte := List.replicate 12 0 ++ [0x88, 0xB5, 0x4F, 0x53, 0x57, 0x53, 1] ++ List.replicate 41 0

/-- Spill order of a single granule: the sort of a list of one. -/
theorem spillOrder_single (s : State) (g : Nat) (h1 : ((s.dome.grans.map (·.1)).filter s.spillable) = [g]) (h2 : (s.dome.gran g).kind = 2) :
    s.spillOrder = [g] := by
  unfold State.spillOrder
  simp [h1, h2]

/-- Every page of the pool is withdrawn, so no granule is free; the granule table lists these. -/
def crowded (l : Sparse Granule) (s : State) : State := { s with dome := { s.dome with grans := l, withdrawn := List.range 61440, retire := [] } }

/-- No granule is free in such a state. -/
theorem freeZero_crowded (l : Sparse Granule) (s : State) : (crowded l s).dome.freeZero = 0 := by
  have h1 : (List.range 61440 ++ ([] : List Nat)).dedup = List.range 61440 := by
    rw [List.append_nil]; exact List.Nodup.dedup List.nodup_range
  have h2 : (List.range 61440).filter (fun p => decide (32 * p < poolSize)) = List.range 61440 := by
    rw [List.filter_eq_self]
    intro p hp
    have := List.mem_range.mp hp
    simp only [poolSize, decide_eq_true_eq]; omega
  simp only [crowded, Dome.freeZero, Dome.leaving, List.filter_nil, List.map_nil, h1, Dome.zeroOutside, h2, List.length_range, poolSize]
  omega

/-- While a granule of that state is RETIRING, an allocation waits. -/
theorem allocState_crowded1 (s : State) (n : Nat) (hn : 0 < n) : (crowded [(5, ⟨.retiring, 0, 0, 0, 0, .resident, 0⟩)] s).allocState n = 1 := by
  unfold State.allocState
  rw [freeZero_crowded]
  have h : 0 < (crowded [(5, ⟨.retiring, 0, 0, 0, 0, .resident, 0⟩)] s).dome.retiring := by simp [crowded, Dome.retiring]
  rw [if_neg (by omega)]
  simp [h]

/-- Without a granule held in that state, none can come free. -/
theorem allocState_crowded2 (s : State) (n : Nat) (hn : 0 < n) : (crowded [] s).allocState n = 2 := by
  unfold State.allocState
  rw [freeZero_crowded]
  simp only [crowded, Dome.freeDirty, Dome.retiring, List.filter_nil, List.length_nil, List.map_nil, List.any_nil]
  simp; omega

theorem copyState_crowded1 (s : State) (n : Nat) (l : List Nat) (hn : 0 < n) (hl : l.filter isSpillId = []) :
    (crowded [(5, ⟨.retiring, 0, 0, 0, 0, .resident, 0⟩)] s).copyState n l = 1 := by
  unfold State.copyState
  rw [hl, List.length_nil, allocState_crowded1 s (n + 0) hn]
  simp

theorem copyState_crowded2 (s : State) (n : Nat) (l : List Nat) (hn : 0 < n) (hl : l.filter isSpillId = []) :
    (crowded [] s).copyState n l = 2 := by
  unfold State.copyState
  rw [hl, List.length_nil, allocState_crowded2 s (n + 0) hn]
  rfl

/-- An idle 2D engine set to fill 1 by n texels of a layer whose granule 7 the transaction has no copy of. -/
def twdSet (n : Nat) : State :=
  { (scene (desc 0 3 []) [.ctx (objKey 0 40959) (some cx), .layer (objKey 0 49151) (some { ly with gc := [7] })] tx0) with
    base := (sets (own (pgTWD 0) uREADY up) [(⟨hdr (pgTWD 0) 0x20, 0, 0⟩, 1), (Reg.twdSize_W 0, n), (Reg.twdSize_H 0, 1),
      (Reg.twdDst_KIND 0, 0), (Reg.twdDst_HANDLE 0, 49151)]).base }

/-- Its destination granule lies in the DRAM. -/
theorem twdSet_here : ∀ l, ((State.stored (twdSet 1) (Reg.twdOp 0) (wr 0x80000301)).onBase (·.put (Reg.twdStatus_ROWS 0) 0)).twdDst 0
      ((State.stored (twdSet 1) (Reg.twdOp 0) (wr 0x80000301)).base.twdCapture 0) = some l →
    ∀ i ∈ ((State.stored (twdSet 1) (Reg.twdOp 0) (wr 0x80000301)).onBase (·.put (Reg.twdStatus_ROWS 0) 0)).twdMissing 0
      ((State.stored (twdSet 1) (Reg.twdOp 0) (wr 0x80000301)).base.twdCapture 0),
      isSpillId ((l.grans ((State.stored (twdSet 1) (Reg.twdOp 0) (wr 0x80000301)).base.twdCapture 0).dKind).getD i 0) = false := by
  intro l hl
  have e : ((State.stored (twdSet 1) (Reg.twdOp 0) (wr 0x80000301)).onBase (·.put (Reg.twdStatus_ROWS 0) 0)).twdDst 0
      ((State.stored (twdSet 1) (Reg.twdOp 0) (wr 0x80000301)).base.twdCapture 0) = some { ly with gc := [7] } := by decide +kernel
  rw [e] at hl
  cases hl
  decide +kernel

/-- Every hypothesis of `Obligations.StepRunsTheFrontCommand` is met. -/
theorem wit_StepRunsTheFrontCommand :
  (∃ (s : State) (c : Instr) (rest : List Instr),
    (s.pending = c :: rest)) ∧
  (∃ (s : State),
    (s.pending = [])) :=
  ⟨⟨{ up with pending := [.holdoffEnd] }, .holdoffEnd, [], by decide +kernel⟩,
  ⟨up, by decide +kernel⟩⟩

/-- Every hypothesis of `Obligations.EveryStepKeepsTheCanonicalForm` is met. -/
theorem wit_EveryStepKeepsTheCanonicalForm :
  (∃ (s t : State),
    (s.canonical) ∧ (step s = .next t)) :=
  ⟨{ State.reset with pending := [.holdoffEnd] }, _, by unfold State.canonical; decide +kernel, rfl⟩

/-- Every hypothesis of `Obligations.EveryStepKeepsTheHosts` is met. -/
theorem wit_EveryStepKeepsTheHosts :
  (∃ (s t : State),
    (s.hostsOk) ∧ (step s = .next t)) ∧
  (∃ (s t : State) (c : Instr),
    (exec c s = .next t) ∧ ((∀ strap addr, c ≠ .coldRelease strap addr)) ∧ (c ≠ .vaonRemoved)) :=
  ⟨⟨{ State.reset with pending := [.holdoffEnd] }, _, by unfold State.hostsOk; decide +kernel, rfl⟩,
  ⟨State.reset, _, .holdoffEnd, rfl, (fun _ _ h => by cases h), (fun h => by cases h)⟩⟩

/-- Every hypothesis of `Obligations.RcRegistersClearOnlyOnFullReads` is met. -/
theorem wit_RcRegistersClearOnlyOnFullReads :
  (∃ (s : State) (h : Fin 4) (page : BitVec 10) (off : BitVec 12) (be : BitVec 4),
    (s.base.visible h page.toNat = true)) :=
  ⟨up, 0, (BitVec.ofNat 10 pgSCO), 0x040, 15, by decide +kernel⟩

/-- Every hypothesis of `Obligations.ChildrenOfARetiredUnitReadRetired` is met. -/
theorem wit_ChildrenOfARetiredUnitReadRetired :
  (∃ (s : State) (p c : Nat),
    (c ∈ kidsOf p) ∧ (s.base.present c = true) ∧ (s.base.unitState p = uRETIRED)) :=
  ⟨(own (pgSPC 67) uRETIRED up), pgSPC 67, pgSPE 67 3, by decide +kernel⟩

/-- Every hypothesis of `Obligations.TheRootStateFollowsItsChildren` is met. -/
theorem wit_TheRootStateFollowsItsChildren :
  (∃ (s : State),
    ((∃ c ∈ kidsOf 0, s.base.present c = true ∧ (s.base.unitState c = uFAULT ∨ s.base.unitState c = uNOCLOCK)))) ∧
  (∃ (s : State),
    ((¬ ∃ c ∈ kidsOf 0, s.base.present c = true ∧ (s.base.unitState c = uFAULT ∨ s.base.unitState c = uNOCLOCK))) ∧ ((∃ c ∈ kidsOf 0, s.base.present c = true ∧ s.base.unitState c = uDEGRADED))) ∧
  (∃ (s : State),
    ((¬ ∃ c ∈ kidsOf 0, s.base.present c = true ∧ (s.base.unitState c = uFAULT ∨ s.base.unitState c = uNOCLOCK ∨ s.base.unitState c = uDEGRADED)))) :=
  ⟨⟨(own 9 uFAULT up), by decide +kernel⟩,
  ⟨(own 9 uDEGRADED up), by decide +kernel⟩,
  ⟨State.reset, by decide +kernel⟩⟩

/-- Every hypothesis of `Obligations.TransactionCommandsOpenAndClose` is met. -/
theorem wit_TransactionCommandsOpenAndClose :
  (∃ (s : State) (h : Fin 4) (r : Fin 16) (d : Desc),
    (s.ready h r 0x01 d) ∧ (swf (fun _ => none) s.scenes.txns = true) ∧ (d.txn < 256) ∧ (s.txn h d.txn = none) ∧ (s.hasRoom 3 h 1 = true)) ∧
  (∃ (s : State) (h : Fin 4) (r : Fin 16) (d : Desc) (x : Txn),
    (s.ready h r 0x02 d) ∧ (swf (fun _ => none) s.scenes.txns = true) ∧ (s.txn h d.txn = some x) ∧ (s.joins h d = true) ∧ (x.closing = false)) ∧
  (∃ (s : State) (h : Fin 4) (r : Fin 16) (d : Desc) (x : Txn),
    (s.ready h r 0x10 d) ∧ (swf (fun _ => none) s.scenes.txns = true) ∧ (s.txn h d.txn = some x) ∧ (s.joins h d = true) ∧ (x.closing = false)) ∧
  (∃ (s : State) (h : Fin 4) (r : Fin 16) (d : Desc) (st : Nat),
    (s.ready h r 0x01 d) ∧ (swf (fun _ => none) s.scenes.txns = true) ∧ (firstStatus [(decide (255 < d.txn), stRANGE), ((s.txn h d.txn).isSome, stSTATE), (!s.hasRoom 3 h 1, stQUOTA)] = some st)) ∧
  (∃ (s : State) (h : Fin 4) (r : Fin 16) (d : Desc) (c : Instr) (op : Nat),
    ((op, c) ∈ [(0x02, .txCommit h r), (0x10, .schedCommit h r)]) ∧ (s.ready h r op d) ∧ (swf (fun _ => none) s.scenes.txns = true) ∧ ((s.joins h d = false ∨ (s.txn h d.txn).map (·.closing) = some true))) :=
  ⟨⟨(ring (desc 1 255 []) up), 0, 0, (desc 1 255 []), by unfold State.ready; decide +kernel⟩,
  ⟨(scene (desc 2 3 []) [] tx0), 0, 0, (desc 2 3 []), { tx0 with ops := [] }, by unfold State.ready; decide +kernel⟩,
  ⟨(scene (desc 0x10 3 [0, 0, 0, 0x80]) [] tx0), 0, 0, (desc 0x10 3 [0, 0, 0, 0x80]), { tx0 with ops := [] }, by unfold State.ready; decide +kernel⟩,
  ⟨(ring (desc 1 256 []) up), 0, 0, (desc 1 256 []), stRANGE, by unfold State.ready; decide +kernel⟩,
  ⟨(scene (desc 2 3 []) [] { tx0 with closing := true }), 0, 0, (desc 2 3 []), .txCommit 0 0, 0x02, by unfold State.ready; decide +kernel⟩⟩

/-- Every hypothesis of `Obligations.ContextCommandsStageTheirChange` is met. -/
theorem wit_ContextCommandsStageTheirChange :
  (∃ (s : State) (h : Fin 4) (r : Fin 16) (d : Desc) (x : Txn),
    (s.ready h r 0x04 d) ∧ (swf (fun _ => none) s.scenes.txns = true) ∧ (s.txn h d.txn = some x) ∧ (s.joins h d = true) ∧ (d.rec_ 2 1 = 0 ∨ (d.rec_ 2 1 = 2 ∧ (h : Nat) = s.base.owner)) ∧ (d.rec_ 3 1 ≤ 2) ∧ (d.rec_ 6 2 = 0) ∧ (d.rec_ 11 1 = 0) ∧ (d.rec_ 12 4 = 0) ∧ (d.rec_ 0 2 ≤ 40959) ∧ ((s.view h d.txn).ctx (objKey h (d.rec_ 0 2)) = none) ∧ (s.held h d .ctx (objKey h (d.rec_ 0 2)) = false) ∧ (s.hasRoom 0 h 1 = true)) ∧
  (∃ (s : State) (h : Fin 4) (r : Fin 16) (d : Desc) (x : Txn) (c : Ctx),
    (s.ready h r 0x04 d) ∧ (swf (fun _ => none) s.scenes.txns = true) ∧ (s.txn h d.txn = some x) ∧ (s.joins h d = true) ∧ (d.rec_ 2 1 = 1 ∨ (d.rec_ 2 1 = 3 ∧ (h : Nat) = s.base.owner)) ∧ (d.rec_ 3 1 ≤ 2) ∧ (d.rec_ 6 2 = 0) ∧ (d.rec_ 11 1 = 0) ∧ (d.rec_ 12 4 = 0) ∧ (d.rec_ 0 2 ≤ 40959) ∧ ((s.view h d.txn).ctx (objKey h (d.rec_ 0 2)) = some c) ∧ (s.held h d .ctx (objKey h (d.rec_ 0 2)) = false) ∧ (d.rec_ 4 2 ≠ 0 ∨ s.criticalOn h d.txn (objKey h (d.rec_ 0 2)) c.oid = false)) ∧
  (∃ (s : State) (h : Fin 4) (r : Fin 16) (d : Desc) (x : Txn) (c : Ctx),
    (s.ready h r 0x05 d) ∧ (swf (fun _ => none) s.scenes.txns = true) ∧ (s.txn h d.txn = some x) ∧ (s.joins h d = true) ∧ (d.rec_ 0 2 ≤ 40959) ∧ ((s.view h d.txn).ctx (objKey h (d.rec_ 0 2)) = some c) ∧ (s.held h d .ctx (objKey h (d.rec_ 0 2)) = false) ∧ ((∀ k ∈ (s.view h d.txn).layersOf (objKey h (d.rec_ 0 2)), s.held h d .layer k = false)) ∧ ((∀ k ∈ (s.view h d.txn).regionsOf (objKey h (d.rec_ 0 2)), s.held h d .region k = false))) ∧
  (∃ (s : State) (h : Fin 4) (r : Fin 16) (d : Desc) (x : Txn) (c : Ctx),
    (s.ready h r 0x0F d) ∧ (swf (fun _ => none) s.scenes.txns = true) ∧ (s.txn h d.txn = some x) ∧ (s.joins h d = true) ∧ (d.rec_ 2 2 = 0) ∧ (d.rec_ 7 1 = 0) ∧ (d.rec_ 8 8 = 0) ∧ (d.rec_ 0 2 ≤ 40959) ∧ ((s.view h d.txn).ctx (objKey h (d.rec_ 0 2)) = some c) ∧ (s.held h d .ctx (objKey h (d.rec_ 0 2)) = false)) ∧
  (∃ (s : State) (h : Fin 4) (r : Fin 16) (d : Desc) (st : Nat),
    (s.ready h r 0x04 d) ∧ (swf (fun _ => none) s.scenes.txns = true) ∧ (firstStatus [(!s.joins h d || ((d.rec_ 2 1).testBit 0 && s.held h d .ctx (objKey h (d.rec_ 0 2))), stTXN), (decide (3 < d.rec_ 2 1) || decide (2 < d.rec_ 3 1) || d.rec_ 6 2 != 0 || d.rec_ 11 1 != 0 || d.rec_ 12 4 != 0, stFORMAT), ((d.rec_ 2 1).testBit 1 && (h : Nat) != s.base.owner, stOWNER), (decide (40959 < d.rec_ 0 2) || ((d.rec_ 2 1).testBit 0 && d.rec_ 4 2 == 0 && (((s.view h d.txn).ctx (objKey h (d.rec_ 0 2))).map (fun x => s.criticalOn h d.txn (objKey h (d.rec_ 0 2)) x.oid)).getD false), stRANGE), (if (d.rec_ 2 1).testBit 0 then ((s.view h d.txn).ctx (objKey h (d.rec_ 0 2))).isNone else ((s.view h d.txn).ctx (objKey h (d.rec_ 0 2))).isSome || s.held h d .ctx (objKey h (d.rec_ 0 2)), stSTATE), (!(d.rec_ 2 1).testBit 0 && !s.hasRoom 0 h 1, stQUOTA)] = some st)) ∧
  (∃ (s : State) (h : Fin 4) (r : Fin 16) (d : Desc) (st : Nat),
    (s.ready h r 0x05 d) ∧ (swf (fun _ => none) s.scenes.txns = true) ∧ (firstStatus [(!s.joins h d || s.held h d .ctx (objKey h (d.rec_ 0 2)) || ((s.view h d.txn).layersOf (objKey h (d.rec_ 0 2))).any (s.held h d .layer) || ((s.view h d.txn).regionsOf (objKey h (d.rec_ 0 2))).any (s.held h d .region), stTXN), (decide (40959 < d.rec_ 0 2), stRANGE), (((s.view h d.txn).ctx (objKey h (d.rec_ 0 2))).isNone, stSTATE)] = some st)) ∧
  (∃ (s : State) (h : Fin 4) (r : Fin 16) (d : Desc) (st : Nat),
    (s.ready h r 0x0F d) ∧ (swf (fun _ => none) s.scenes.txns = true) ∧ (firstStatus [(!s.joins h d || s.held h d .ctx (objKey h (d.rec_ 0 2)), stTXN), (d.rec_ 2 2 != 0 || d.rec_ 7 1 != 0 || d.rec_ 8 8 != 0, stFORMAT), (decide (40959 < d.rec_ 0 2), stRANGE), (((s.view h d.txn).ctx (objKey h (d.rec_ 0 2))).isNone, stSTATE)] = some st)) :=
  ⟨⟨(scene (desc 4 3 [0xFF, 0x9F, 0, 2]) [] tx0), 0, 0, (desc 4 3 [0xFF, 0x9F, 0, 2]), { tx0 with ops := [] }, by unfold State.ready; decide +kernel⟩,
  ⟨(scene (desc 4 3 [0xFF, 0x9F, 1, 2, 1, 0]) [.ctx (objKey 0 40959) (some cx)] tx0), 0, 0, (desc 4 3 [0xFF, 0x9F, 1, 2, 1, 0]), { tx0 with ops := [.ctx (objKey 0 40959) (some cx)] }, cx, by unfold State.ready; decide +kernel⟩,
  ⟨(scene (desc 5 3 [0xFF, 0x9F]) [.ctx (objKey 0 40959) (some cx)] tx0), 0, 0, (desc 5 3 [0xFF, 0x9F]), { tx0 with ops := [.ctx (objKey 0 40959) (some cx)] }, cx, by unfold State.ready; decide +kernel⟩,
  ⟨(scene (desc 15 3 [0xFF, 0x9F]) [.ctx (objKey 0 40959) (some cx)] tx0), 0, 0, (desc 15 3 [0xFF, 0x9F]), { tx0 with ops := [.ctx (objKey 0 40959) (some cx)] }, cx, by unfold State.ready; decide +kernel⟩,
  ⟨(scene (desc 4 3 [0x00, 0xA0, 0, 2]) [] tx0), 0, 0, (desc 4 3 [0x00, 0xA0, 0, 2]), stRANGE, by unfold State.ready; decide +kernel⟩,
  ⟨(scene (desc 5 3 [0x00, 0xA0]) [] tx0), 0, 0, (desc 5 3 [0x00, 0xA0]), stRANGE, by unfold State.ready; decide +kernel⟩,
  ⟨(scene (desc 15 3 [0x00, 0xA0]) [] tx0), 0, 0, (desc 15 3 [0x00, 0xA0]), stRANGE, by unfold State.ready; decide +kernel⟩⟩

/-- Every hypothesis of `Obligations.LayerCommandsStageTheirChange` is met. -/
theorem wit_LayerCommandsStageTheirChange :
  (∃ (s : State) (h : Fin 4) (r : Fin 16) (d : Desc) (x : Txn),
    (s.ready h r 0x06 d) ∧ (swf (fun _ => none) s.scenes.txns = true) ∧ (s.txn h d.txn = some x) ∧ (s.joins h d = true) ∧ (s.layerChecked h d = true) ∧ (s.allocState ((d.layer h s.scenes.oids).planeGrans 0 + (d.layer h s.scenes.oids).planeGrans 1) = 0)) ∧
  (∃ (s : State) (h : Fin 4) (r : Fin 16) (d : Desc) (x : Txn),
    (s.ready h r 0x06 d) ∧ (swf (fun _ => none) s.scenes.txns = true) ∧ (s.txn h d.txn = some x) ∧ (s.joins h d = true) ∧ (s.layerChecked h d = true) ∧ (s.allocState ((d.layer h s.scenes.oids).planeGrans 0 + (d.layer h s.scenes.oids).planeGrans 1) = 1)) ∧
  (∃ (s : State) (h : Fin 4) (r : Fin 16) (d : Desc) (x : Txn),
    (s.ready h r 0x06 d) ∧ (swf (fun _ => none) s.scenes.txns = true) ∧ (s.txn h d.txn = some x) ∧ (s.joins h d = true) ∧ (s.layerChecked h d = true) ∧ (s.allocState ((d.layer h s.scenes.oids).planeGrans 0 + (d.layer h s.scenes.oids).planeGrans 1) = 2)) ∧
  (∃ (s : State) (h : Fin 4) (r : Fin 16) (d : Desc) (x : Txn) (l : Layer),
    (s.ready h r 0x07 d) ∧ (swf (fun _ => none) s.scenes.txns = true) ∧ (s.txn h d.txn = some x) ∧ (s.joins h d = true) ∧ (d.rec_ 0 2 ≤ 49151) ∧ ((s.view h d.txn).layer (objKey h (d.rec_ 0 2)) = some l) ∧ (s.held h d .layer (objKey h (d.rec_ 0 2)) = false)) ∧
  (∃ (s : State) (h : Fin 4) (r : Fin 16) (d : Desc) (x : Txn) (l : Layer),
    (s.ready h r 0x08 d) ∧ (swf (fun _ => none) s.scenes.txns = true) ∧ (s.txn h d.txn = some x) ∧ (s.joins h d = true) ∧ (d.rec_ 0 2 ≤ 49151) ∧ (d.rec_ 6 1 ≤ 3) ∧ (d.rec_ 28 4 = 0) ∧ (d.rec_ 16 2 = 0 ∨ (l.pin = false ∧ l.kind ≠ 1)) ∧ ((s.view h d.txn).layer (objKey h (d.rec_ 0 2)) = some l) ∧ (s.held h d .layer (objKey h (d.rec_ 0 2)) = false)) ∧
  (∃ (s : State) (h : Fin 4) (r : Fin 16) (d : Desc) (x : Txn) (l : Layer),
    (s.ready h r 0x0B d) ∧ (swf (fun _ => none) s.scenes.txns = true) ∧ (s.txn h d.txn = some x) ∧ (s.joins h d = true) ∧ (d.rec_ 0 2 ≤ 49151) ∧ (d.rec_ 6 1 ≤ 3) ∧ (d.rec_ 28 4 = 0) ∧ (d.rec_ 16 2 = 0 ∨ (l.pin = false ∧ l.kind ≠ 1)) ∧ ((s.view h d.txn).layer (objKey h (d.rec_ 0 2)) = some l) ∧ (s.held h d .layer (objKey h (d.rec_ 0 2)) = false)) ∧
  (∃ (s : State) (h : Fin 4) (r : Fin 16) (d : Desc) (st : Nat),
    (s.ready h r 0x06 d) ∧ (swf (fun _ => none) s.scenes.txns = true) ∧ (firstStatus [((d.layer h s.scenes.oids).width == 0 || (d.layer h s.scenes.oids).height == 0, stNOOP), (!s.joins h d || s.held h d .ctx (d.layer h s.scenes.oids).ctx, stTXN), (decide (3 < d.rec_ 6 1) || d.rec_ 28 4 != 0 || (d.layer h s.scenes.oids).badForm, stFORMAT), (decide (49151 < d.rec_ 0 2) || decide (40959 < d.rec_ 2 2) || decide (16384 < (d.layer h s.scenes.oids).width) || decide (16384 < (d.layer h s.scenes.oids).height), stRANGE), (((s.view h d.txn).layer (objKey h (d.rec_ 0 2))).isSome || s.held h d .layer (objKey h (d.rec_ 0 2)) || ((s.view h d.txn).ctx (d.layer h s.scenes.oids).ctx).isNone, stSTATE), (!d.admitted && (!s.hasRoom 1 h 1 || !s.hasRoom 5 h ((d.layer h s.scenes.oids).planeGrans 0 + (d.layer h s.scenes.oids).planeGrans 1)), stQUOTA)] = some st)) ∧
  (∃ (s : State) (h : Fin 4) (r : Fin 16) (d : Desc) (st : Nat),
    (s.ready h r 0x07 d) ∧ (swf (fun _ => none) s.scenes.txns = true) ∧ (firstStatus [(!s.joins h d || s.held h d .layer (objKey h (d.rec_ 0 2)), stTXN), (decide (49151 < d.rec_ 0 2), stRANGE), (((s.view h d.txn).layer (objKey h (d.rec_ 0 2))).isNone, stSTATE)] = some st)) ∧
  (∃ (s : State) (h : Fin 4) (r : Fin 16) (d : Desc) (st : Nat) (c : Instr) (op : Nat),
    ((op, c) ∈ [(0x08, .layerSet h r), (0x0B, .layerMove h r)]) ∧ (s.ready h r op d) ∧ (swf (fun _ => none) s.scenes.txns = true) ∧ (firstStatus [(!s.joins h d || s.held h d .layer (objKey h (d.rec_ 0 2)), stTXN), (decide (3 < d.rec_ 6 1) || d.rec_ 28 4 != 0, stFORMAT), (decide (49151 < d.rec_ 0 2), stRANGE), ((((s.view h d.txn).layer (objKey h (d.rec_ 0 2))).map (fun l => d.rec_ 16 2 != 0 && (l.pin || l.kind == 1))).getD true, stSTATE)] = some st)) :=
  ⟨⟨(scene (desc 6 3 [0xFF, 0xBF, 0xFF, 0x9F, 0, 0, 0, 255, 0, 0, 0, 0, 32, 0, 32, 0]) [.ctx (objKey 0 40959) (some cx)] tx0), 0, 0, (desc 6 3 [0xFF, 0xBF, 0xFF, 0x9F, 0, 0, 0, 255, 0, 0, 0, 0, 32, 0, 32, 0]), { tx0 with ops := [.ctx (objKey 0 40959) (some cx)] }, by unfold State.ready; decide +kernel⟩,
  ⟨(crowded [(5, ⟨.retiring, 0, 0, 0, 0, .resident, 0⟩)] (scene (desc 6 3 [0xFF, 0xBF, 0xFF, 0x9F, 0, 0, 0, 255, 0, 0, 0, 0, 32, 0, 32, 0]) [.ctx (objKey 0 40959) (some cx)] tx0)), 0, 0, (desc 6 3 [0xFF, 0xBF, 0xFF, 0x9F, 0, 0, 0, 255, 0, 0, 0, 0, 32, 0, 32, 0]), { tx0 with ops := [.ctx (objKey 0 40959) (some cx)] }, by unfold State.ready; decide +kernel, by decide +kernel, by decide +kernel, by decide +kernel, by decide +kernel, (allocState_crowded1 _ _ (by decide +kernel))⟩,
  ⟨(crowded [] (scene (desc 6 3 [0xFF, 0xBF, 0xFF, 0x9F, 0, 0, 0, 255, 0, 0, 0, 0, 32, 0, 32, 0]) [.ctx (objKey 0 40959) (some cx)] tx0)), 0, 0, (desc 6 3 [0xFF, 0xBF, 0xFF, 0x9F, 0, 0, 0, 255, 0, 0, 0, 0, 32, 0, 32, 0]), { tx0 with ops := [.ctx (objKey 0 40959) (some cx)] }, by unfold State.ready; decide +kernel, by decide +kernel, by decide +kernel, by decide +kernel, by decide +kernel, (allocState_crowded2 _ _ (by decide +kernel))⟩,
  ⟨(scene (desc 7 3 [0xFF, 0xBF]) [.ctx (objKey 0 40959) (some cx), .layer (objKey 0 49151) (some ly)] tx0), 0, 0, (desc 7 3 [0xFF, 0xBF]), { tx0 with ops := [.ctx (objKey 0 40959) (some cx), .layer (objKey 0 49151) (some ly)] }, ly, by unfold State.ready; decide +kernel⟩,
  ⟨(scene (desc 8 3 [0xFF, 0xBF, 0, 0, 0, 0, 3]) [.ctx (objKey 0 40959) (some cx), .layer (objKey 0 49151) (some ly)] tx0), 0, 0, (desc 8 3 [0xFF, 0xBF, 0, 0, 0, 0, 3]), { tx0 with ops := [.ctx (objKey 0 40959) (some cx), .layer (objKey 0 49151) (some ly)] }, ly, by unfold State.ready; decide +kernel⟩,
  ⟨(scene (desc 11 3 [0xFF, 0xBF, 0, 0, 0, 0, 1]) [.ctx (objKey 0 40959) (some cx), .layer (objKey 0 49151) (some ly)] tx0), 0, 0, (desc 11 3 [0xFF, 0xBF, 0, 0, 0, 0, 1]), { tx0 with ops := [.ctx (objKey 0 40959) (some cx), .layer (objKey 0 49151) (some ly)] }, ly, by unfold State.ready; decide +kernel⟩,
  ⟨(scene (desc 6 3 [0x00, 0xC0, 0xFF, 0x9F, 0, 0, 0, 255, 0, 0, 0, 0, 32, 0, 32, 0]) [] tx0), 0, 0, (desc 6 3 [0x00, 0xC0, 0xFF, 0x9F, 0, 0, 0, 255, 0, 0, 0, 0, 32, 0, 32, 0]), stRANGE, by unfold State.ready; decide +kernel⟩,
  ⟨(scene (desc 7 3 [0x00, 0xC0]) [] tx0), 0, 0, (desc 7 3 [0x00, 0xC0]), stRANGE, by unfold State.ready; decide +kernel⟩,
  ⟨(scene (desc 8 3 [0x00, 0xC0, 0, 0, 0, 0, 3]) [] tx0), 0, 0, (desc 8 3 [0x00, 0xC0, 0, 0, 0, 0, 3]), stRANGE, .layerSet 0 0, 0x08, by unfold State.ready; decide +kernel⟩⟩

/-- Every hypothesis of `Obligations.RegionCommandsStageTheirChange` is met. -/
theorem wit_RegionCommandsStageTheirChange :
  (∃ (s : State) (h : Fin 4) (r : Fin 16) (d : Desc) (x : Txn) (c : Ctx) (o : Nat),
    (s.ready h r 0x0C d) ∧ (swf (fun _ => none) s.scenes.txns = true) ∧ (s.txn h d.txn = some x) ∧ (s.joins h d = true) ∧ (d.rec_ 12 2 ≠ 0) ∧ (d.rec_ 14 2 ≠ 0) ∧ (d.rec_ 6 1 ≤ 1) ∧ (d.rec_ 7 1 = 0) ∧ (d.rec_ 0 2 ≤ 4095) ∧ (d.rec_ 2 2 ≤ 40959) ∧ ((d.rec_ 4 2 = 0xFFFF ∧ o = (h : Nat)) ∨ (d.rec_ 4 2 ≤ 49151 ∧ s.regionLayer h d.txn (d.rec_ 4 2) = some o)) ∧ (d.rec_ 8 2 < s.base.get Reg.cmpSize_WIDTH) ∧ (d.rec_ 10 2 < s.base.get Reg.cmpSize_HEIGHT) ∧ (d.rec_ 6 1 = 0 ∨ s.boundZero h d.txn (objKey h (d.rec_ 2 2)) = false) ∧ ((s.view h d.txn).ctx (objKey h (d.rec_ 2 2)) = some c) ∧ (s.held h d .region (objKey h (d.rec_ 0 2)) = false) ∧ (s.held h d .ctx (objKey h (d.rec_ 2 2)) = false) ∧ (((s.view h d.txn).region (objKey h (d.rec_ 0 2))).isSome = true ∨ s.hasRoom 2 h 1 = true)) ∧
  (∃ (s : State) (h : Fin 4) (r : Fin 16) (d : Desc) (x : Txn) (g : Region),
    (s.ready h r 0x0D d) ∧ (swf (fun _ => none) s.scenes.txns = true) ∧ (s.txn h d.txn = some x) ∧ (s.joins h d = true) ∧ (d.rec_ 0 2 ≤ 4095) ∧ ((s.view h d.txn).region (objKey h (d.rec_ 0 2)) = some g) ∧ (s.held h d .region (objKey h (d.rec_ 0 2)) = false)) ∧
  (∃ (s : State) (h : Fin 4) (r : Fin 16) (d : Desc) (st : Nat),
    (s.ready h r 0x0C d) ∧ (swf (fun _ => none) s.scenes.txns = true) ∧ (firstStatus [(d.rec_ 12 2 == 0 || d.rec_ 14 2 == 0, stNOOP), (!s.joins h d || s.held h d .region (objKey h (d.rec_ 0 2)) || s.held h d .ctx (objKey h (d.rec_ 2 2)), stTXN), (decide (1 < d.rec_ 6 1) || d.rec_ 7 1 != 0, stFORMAT), (decide (4095 < d.rec_ 0 2) || decide (40959 < d.rec_ 2 2) || (decide (49151 < d.rec_ 4 2) && d.rec_ 4 2 != 0xFFFF) || decide (s.base.get Reg.cmpSize_WIDTH ≤ d.rec_ 8 2) || decide (s.base.get Reg.cmpSize_HEIGHT ≤ d.rec_ 10 2) || ((d.rec_ 6 1).testBit 0 && s.boundZero h d.txn (objKey h (d.rec_ 2 2))), stRANGE), (((s.view h d.txn).ctx (objKey h (d.rec_ 2 2))).isNone || (if d.rec_ 4 2 = 0xFFFF then false else (s.regionLayer h d.txn (d.rec_ 4 2)).isNone), stSTATE), (((s.view h d.txn).region (objKey h (d.rec_ 0 2))).isNone && !s.hasRoom 2 h 1, stQUOTA)] = some st)) ∧
  (∃ (s : State) (h : Fin 4) (r : Fin 16) (d : Desc) (st : Nat),
    (s.ready h r 0x0D d) ∧ (swf (fun _ => none) s.scenes.txns = true) ∧ (firstStatus [(!s.joins h d || s.held h d .region (objKey h (d.rec_ 0 2)), stTXN), (decide (4095 < d.rec_ 0 2), stRANGE), (((s.view h d.txn).region (objKey h (d.rec_ 0 2))).isNone, stSTATE)] = some st)) :=
  ⟨⟨(scene (desc 12 3 [0xFF, 0x0F, 0xFF, 0x9F, 0xFF, 0xFF, 0, 0, 0xFF, 0x3B, 0xBF, 0x21, 1, 0, 1, 0]) [.ctx (objKey 0 40959) (some cx)] tx0), 0, 0, (desc 12 3 [0xFF, 0x0F, 0xFF, 0x9F, 0xFF, 0xFF, 0, 0, 0xFF, 0x3B, 0xBF, 0x21, 1, 0, 1, 0]), { tx0 with ops := [.ctx (objKey 0 40959) (some cx)] }, cx, 0, by unfold State.ready; decide +kernel⟩,
  ⟨(scene (desc 13 3 [0xFF, 0x0F]) [.ctx (objKey 0 40959) (some cx), .region (objKey 0 4095) (some rg)] tx0), 0, 0, (desc 13 3 [0xFF, 0x0F]), { tx0 with ops := [.ctx (objKey 0 40959) (some cx), .region (objKey 0 4095) (some rg)] }, rg, by unfold State.ready; decide +kernel⟩,
  ⟨(scene (desc 12 3 [0x00, 0x10, 0xFF, 0x9F, 0xFF, 0xFF, 0, 0, 0xFF, 0x3B, 0xBF, 0x21, 1, 0, 1, 0]) [] tx0), 0, 0, (desc 12 3 [0x00, 0x10, 0xFF, 0x9F, 0xFF, 0xFF, 0, 0, 0xFF, 0x3B, 0xBF, 0x21, 1, 0, 1, 0]), stRANGE, by unfold State.ready; decide +kernel⟩,
  ⟨(scene (desc 13 3 [0x00, 0x10]) [] tx0), 0, 0, (desc 13 3 [0x00, 0x10]), stRANGE, by unfold State.ready; decide +kernel⟩⟩

/-- Every hypothesis of `Obligations.TxAbortRollsTheTransactionBack` is met. -/
theorem wit_TxAbortRollsTheTransactionBack :
  (∃ (s : State) (h : Fin 4) (r : Fin 16) (d : Desc) (x : Txn),
    (s.ready h r 0x03 d) ∧ (swf (fun _ => none) s.scenes.txns = true) ∧ (d.txn < 256) ∧ (s.txn h d.txn = some x)) ∧
  (∃ (s : State) (h : Fin 4) (r : Fin 16) (d : Desc),
    (s.ready h r 0x03 d) ∧ (swf (fun _ => none) s.scenes.txns = true) ∧ ((255 < d.txn ∨ s.txn h d.txn = none))) :=
  ⟨⟨(scene (desc 3 3 []) [] tx0), 0, 0, (desc 3 3 []), { tx0 with ops := [] }, by unfold State.ready; decide +kernel⟩,
  ⟨(ring (desc 3 256 []) up), 0, 0, (desc 3 256 []), by unfold State.ready; decide +kernel⟩⟩

/-- Every hypothesis of `Obligations.UploadAndDecodeStartTheirWork` is met. -/
theorem wit_UploadAndDecodeStartTheirWork :
  (∃ (s : State) (h : Fin 4) (r : Fin 16) (d : Desc) (x : Txn) (u : Upload),
    (s.ready h r 0x09 d) ∧ (s.txn h d.txn = some x) ∧ (s.joins h d = true) ∧ (d.rec_ 12 4 ≠ 0) ∧ (d.rec_ 24 8 = 0) ∧ (d.rec_ 0 4 < 65536) ∧ (s.upl h (d.rec_ 0 4) = some u) ∧ (u.txn = d.txn) ∧ (d.rec_ 8 4 + d.rec_ 12 4 ≤ u.size)) ∧
  (∃ (s : State) (h : Fin 4) (r : Fin 16) (d : Desc) (x : Txn),
    (s.ready h r 0x09 d) ∧ (s.txn h d.txn = some x) ∧ (s.joins h d = true) ∧ (d.rec_ 12 4 ≠ 0) ∧ (d.rec_ 4 4 ≠ 0) ∧ (d.rec_ 24 8 = 0) ∧ (d.rec_ 0 4 < 65536) ∧ (s.upl h (d.rec_ 0 4) = none) ∧ (d.rec_ 4 4 ≤ 0x40000000) ∧ (d.rec_ 8 4 + d.rec_ 12 4 ≤ d.rec_ 4 4) ∧ (d.admitted = true ∨ s.hasRoom 5 h (ceilDiv (d.rec_ 4 4) 65536) = true) ∧ (s.allocState (ceilDiv (d.rec_ 4 4) 65536) = 0)) ∧
  (∃ (s : State) (h : Fin 4) (r : Fin 16) (d : Desc) (x : Txn),
    (s.ready h r 0x09 d) ∧ (s.txn h d.txn = some x) ∧ (s.joins h d = true) ∧ (d.rec_ 12 4 ≠ 0) ∧ (d.rec_ 4 4 ≠ 0) ∧ (d.rec_ 24 8 = 0) ∧ (d.rec_ 0 4 < 65536) ∧ (s.upl h (d.rec_ 0 4) = none) ∧ (d.rec_ 4 4 ≤ 0x40000000) ∧ (d.rec_ 8 4 + d.rec_ 12 4 ≤ d.rec_ 4 4) ∧ (d.admitted = true ∨ s.hasRoom 5 h (ceilDiv (d.rec_ 4 4) 65536) = true) ∧ (s.allocState (ceilDiv (d.rec_ 4 4) 65536) = 1)) ∧
  (∃ (s : State) (h : Fin 4) (r : Fin 16) (d : Desc) (x : Txn),
    (s.ready h r 0x09 d) ∧ (s.txn h d.txn = some x) ∧ (s.joins h d = true) ∧ (d.rec_ 12 4 ≠ 0) ∧ (d.rec_ 4 4 ≠ 0) ∧ (d.rec_ 24 8 = 0) ∧ (d.rec_ 0 4 < 65536) ∧ (s.upl h (d.rec_ 0 4) = none) ∧ (d.rec_ 4 4 ≤ 0x40000000) ∧ (d.rec_ 8 4 + d.rec_ 12 4 ≤ d.rec_ 4 4) ∧ (d.admitted = true ∨ s.hasRoom 5 h (ceilDiv (d.rec_ 4 4) 65536) = true) ∧ (s.allocState (ceilDiv (d.rec_ 4 4) 65536) = 2) ∧ (swf (fun _ => none) s.scenes.txns = true)) ∧
  (∃ (s : State) (h : Fin 4) (r : Fin 16) (d : Desc) (n : BitVec 32) (bs : List Byte),
    ((s.ring h r).flight.find? (fun e => e.n == n.toNat && e.op == 9 && e.st == .accepted) = some d) ∧ ((s.uplGrans h (d.rec_ 0 4)).any isSpillId = false) ∧ (bs.length = d.rec_ 12 4)) ∧
  (∃ (s : State) (h : Fin 4) (r : Fin 16) (d : Desc) (n : BitVec 32) (c : Fin 4) (u : Upload),
    ((s.ring h r).flight.find? (fun e => e.n == n.toNat && e.op == 9 && e.st == .accepted) = some d) ∧ (s.upl h (d.rec_ 0 4) = some u) ∧ (u.grans.any isSpillId = false)) ∧
  (∃ (s : State) (h : Fin 4) (r : Fin 16) (d : Desc) (x : Txn) (l : Layer) (u : Upload) (need : List Nat),
    (s.ready h r 0x0A d) ∧ (s.txn h d.txn = some x) ∧ (s.joins h d = true) ∧ (d.rec_ 12 4 ≠ 0) ∧ (d.rec_ 20 2 ≠ 0) ∧ (d.rec_ 22 2 ≠ 0) ∧ (s.held h d .layer (objKey h (d.rec_ 0 2)) = false) ∧ (d.rec_ 2 1 = 0 ∨ (d.rec_ 2 1 = 1 ∧ l.kind = 1)) ∧ (d.rec_ 3 1 ≤ 1) ∧ (d.rec_ 0 2 ≤ 49151) ∧ (d.rec_ 4 4 < 65536) ∧ ((s.view h d.txn).layer (objKey h (d.rec_ 0 2)) = some l) ∧ (s.upl h (d.rec_ 4 4) = some u) ∧ (d.rec_ 16 2 + d.rec_ 20 2 ≤ l.gridW (d.rec_ 2 1)) ∧ (d.rec_ 18 2 + d.rec_ 22 2 ≤ l.gridH (d.rec_ 2 1)) ∧ (d.rec_ 8 4 + d.rec_ 12 4 ≤ u.size) ∧ (need = x.missing l (d.rec_ 2 1) (rectGrans l (d.rec_ 2 1) (d.rec_ 16 2) (d.rec_ 18 2) (d.rec_ 20 2) (d.rec_ 22 2))) ∧ (need = [] ∨ d.admitted = true ∨ s.hasRoom 5 h need.length = true) ∧ (s.copyState need.length (need.map (fun i => (l.grans (d.rec_ 2 1)).getD i 0)) = 0)) ∧
  (∃ (s : State) (h : Fin 4) (r : Fin 16) (d : Desc) (x : Txn) (l : Layer) (u : Upload) (need : List Nat),
    (s.ready h r 0x0A d) ∧ (s.txn h d.txn = some x) ∧ (s.joins h d = true) ∧ (d.rec_ 12 4 ≠ 0) ∧ (d.rec_ 20 2 ≠ 0) ∧ (d.rec_ 22 2 ≠ 0) ∧ (s.held h d .layer (objKey h (d.rec_ 0 2)) = false) ∧ (d.rec_ 2 1 = 0 ∨ (d.rec_ 2 1 = 1 ∧ l.kind = 1)) ∧ (d.rec_ 3 1 ≤ 1) ∧ (d.rec_ 0 2 ≤ 49151) ∧ (d.rec_ 4 4 < 65536) ∧ ((s.view h d.txn).layer (objKey h (d.rec_ 0 2)) = some l) ∧ (s.upl h (d.rec_ 4 4) = some u) ∧ (d.rec_ 16 2 + d.rec_ 20 2 ≤ l.gridW (d.rec_ 2 1)) ∧ (d.rec_ 18 2 + d.rec_ 22 2 ≤ l.gridH (d.rec_ 2 1)) ∧ (d.rec_ 8 4 + d.rec_ 12 4 ≤ u.size) ∧ (need = x.missing l (d.rec_ 2 1) (rectGrans l (d.rec_ 2 1) (d.rec_ 16 2) (d.rec_ 18 2) (d.rec_ 20 2) (d.rec_ 22 2))) ∧ (need = [] ∨ d.admitted = true ∨ s.hasRoom 5 h need.length = true) ∧ (s.copyState need.length (need.map (fun i => (l.grans (d.rec_ 2 1)).getD i 0)) = 1)) ∧
  (∃ (s : State) (h : Fin 4) (r : Fin 16) (d : Desc) (x : Txn) (l : Layer) (u : Upload) (need : List Nat),
    (s.ready h r 0x0A d) ∧ (s.txn h d.txn = some x) ∧ (s.joins h d = true) ∧ (d.rec_ 12 4 ≠ 0) ∧ (d.rec_ 20 2 ≠ 0) ∧ (d.rec_ 22 2 ≠ 0) ∧ (s.held h d .layer (objKey h (d.rec_ 0 2)) = false) ∧ (d.rec_ 2 1 = 0 ∨ (d.rec_ 2 1 = 1 ∧ l.kind = 1)) ∧ (d.rec_ 3 1 ≤ 1) ∧ (d.rec_ 0 2 ≤ 49151) ∧ (d.rec_ 4 4 < 65536) ∧ ((s.view h d.txn).layer (objKey h (d.rec_ 0 2)) = some l) ∧ (s.upl h (d.rec_ 4 4) = some u) ∧ (d.rec_ 16 2 + d.rec_ 20 2 ≤ l.gridW (d.rec_ 2 1)) ∧ (d.rec_ 18 2 + d.rec_ 22 2 ≤ l.gridH (d.rec_ 2 1)) ∧ (d.rec_ 8 4 + d.rec_ 12 4 ≤ u.size) ∧ (need = x.missing l (d.rec_ 2 1) (rectGrans l (d.rec_ 2 1) (d.rec_ 16 2) (d.rec_ 18 2) (d.rec_ 20 2) (d.rec_ 22 2))) ∧ (need = [] ∨ d.admitted = true ∨ s.hasRoom 5 h need.length = true) ∧ (s.copyState need.length (need.map (fun i => (l.grans (d.rec_ 2 1)).getD i 0)) = 2) ∧ (swf (fun _ => none) s.scenes.txns = true)) ∧
  (∃ (s : State) (h : Fin 4) (r : Fin 16) (d : Desc) (cur : Option Upload) (st : Nat),
    (s.ready h r 0x09 d) ∧ (swf (fun _ => none) s.scenes.txns = true) ∧ (cur = (if d.rec_ 0 4 < 65536 then s.upl h (d.rec_ 0 4) else none)) ∧ (firstStatus [(d.rec_ 12 4 == 0 || (cur.isNone && d.rec_ 4 4 == 0), stNOOP), (!s.joins h d || (cur.map (fun x => x.txn != d.txn)).getD false, stTXN), (d.rec_ 24 8 != 0, stFORMAT), (decide (65535 < d.rec_ 0 4) || (cur.isNone && decide (0x40000000 < d.rec_ 4 4)) || decide ((cur.map (·.size)).getD (d.rec_ 4 4) < d.rec_ 8 4 + d.rec_ 12 4), stRANGE), (!d.admitted && cur.isNone && !s.hasRoom 5 h (ceilDiv (d.rec_ 4 4) 65536), stQUOTA)] = some st)) ∧
  (∃ (s : State) (h : Fin 4) (r : Fin 16) (d : Desc) (cur : Option Layer) (up : Option Upload) (need : List Nat) (st : Nat),
    (s.ready h r 0x0A d) ∧ (swf (fun _ => none) s.scenes.txns = true) ∧ (cur = (s.view h d.txn).layer (objKey h (d.rec_ 0 2))) ∧ (up = (if d.rec_ 4 4 < 65536 then s.upl h (d.rec_ 4 4) else none)) ∧ (need = ((s.txn h d.txn).bind (fun x => cur.map (fun l => x.missing l (d.rec_ 2 1) (rectGrans l (d.rec_ 2 1) (d.rec_ 16 2) (d.rec_ 18 2) (d.rec_ 20 2) (d.rec_ 22 2))))).getD []) ∧ (firstStatus [(d.rec_ 12 4 == 0 || d.rec_ 20 2 == 0 || d.rec_ 22 2 == 0, stNOOP), (!s.joins h d || s.held h d .layer (objKey h (d.rec_ 0 2)), stTXN), (decide (1 < d.rec_ 2 1) || decide (1 < d.rec_ 3 1) || (d.rec_ 2 1 == 1 && (cur.map (fun l => l.kind != 1)).getD false), stFORMAT), (decide (d.rec_ 0 2 ≤ 49151) && !s.hasLayer h d.txn (objKey h (d.rec_ 0 2)), stOWNER), (decide (49151 < d.rec_ 0 2) || decide (65535 < d.rec_ 4 4) || (cur.map (fun l => decide (l.gridW (d.rec_ 2 1) < d.rec_ 16 2 + d.rec_ 20 2 ∨ l.gridH (d.rec_ 2 1) < d.rec_ 18 2 + d.rec_ 22 2))).getD false || (up.map (fun x => decide (x.size < d.rec_ 8 4 + d.rec_ 12 4))).getD false, stRANGE), (cur.isNone || up.isNone, stSTATE), (!d.admitted && !need.isEmpty && !s.hasRoom 5 h need.length, stQUOTA)] = some st)) :=
  ⟨⟨(uploads [(65535, some ⟨3, 16, [5]⟩)] (scene (desc 9 3 [0xFF, 0xFF, 0, 0, 0, 0, 0, 0, 0, 0, 0, 0, 16]) [] tx0)), 0, 0, (desc 9 3 [0xFF, 0xFF, 0, 0, 0, 0, 0, 0, 0, 0, 0, 0, 16]), { tx0 with ops := [] }, ⟨3, 16, [5]⟩, by unfold State.ready; decide +kernel⟩,
  ⟨(scene (desc 9 3 [0xFF, 0xFF, 0, 0, 0, 0, 1, 0, 0, 0, 0, 0, 0, 0, 1]) [] tx0), 0, 0, (desc 9 3 [0xFF, 0xFF, 0, 0, 0, 0, 1, 0, 0, 0, 0, 0, 0, 0, 1]), { tx0 with ops := [] }, by unfold State.ready; decide +kernel⟩,
  ⟨(crowded [(5, ⟨.retiring, 0, 0, 0, 0, .resident, 0⟩)] (scene (desc 9 3 [0xFF, 0xFF, 0, 0, 0, 0, 1, 0, 0, 0, 0, 0, 0, 0, 1]) [] tx0)), 0, 0, (desc 9 3 [0xFF, 0xFF, 0, 0, 0, 0, 1, 0, 0, 0, 0, 0, 0, 0, 1]), { tx0 with ops := [] }, by unfold State.ready; decide +kernel, by decide +kernel, by decide +kernel, by decide +kernel, by decide +kernel, by decide +kernel, by decide +kernel, by decide +kernel, by decide +kernel, by decide +kernel, by decide +kernel, (allocState_crowded1 _ _ (by decide +kernel))⟩,
  ⟨(crowded [] (scene (desc 9 3 [0xFF, 0xFF, 0, 0, 0, 0, 1, 0, 0, 0, 0, 0, 0, 0, 1]) [] tx0)), 0, 0, (desc 9 3 [0xFF, 0xFF, 0, 0, 0, 0, 1, 0, 0, 0, 0, 0, 0, 0, 1]), { tx0 with ops := [] }, by unfold State.ready; decide +kernel, by decide +kernel, by decide +kernel, by decide +kernel, by decide +kernel, by decide +kernel, by decide +kernel, by decide +kernel, by decide +kernel, by decide +kernel, by decide +kernel, (allocState_crowded2 _ _ (by decide +kernel)), by decide +kernel⟩,
  ⟨(uploads [(65535, some ⟨3, 16, [5]⟩)] (ring { (desc 9 3 [0xFF, 0xFF, 0, 0, 0, 0, 0, 0, 0, 0, 0, 0, 1]) with st := .accepted } up)), 0, 0, { (desc 9 3 [0xFF, 0xFF, 0, 0, 0, 0, 0, 0, 0, 0, 0, 0, 1]) with st := .accepted }, 0, [7], by decide +kernel⟩,
  ⟨(uploads [(65535, some ⟨3, 16, [5]⟩)] (ring { (desc 9 3 [0xFF, 0xFF, 0, 0, 0, 0, 0, 0, 0, 0, 0, 0, 1]) with st := .accepted } up)), 0, 0, { (desc 9 3 [0xFF, 0xFF, 0, 0, 0, 0, 0, 0, 0, 0, 0, 0, 1]) with st := .accepted }, 0, 2, ⟨3, 16, [5]⟩, by decide +kernel⟩,
  ⟨(uploads [(65535, some ⟨3, 16, [5]⟩)] (scene (desc 10 3 [0xFF, 0xBF, 0, 1, 0xFF, 0xFF, 0, 0, 0, 0, 0, 0, 16, 0, 0, 0, 0, 0, 0, 0, 1, 0, 1, 0]) [.ctx (objKey 0 40959) (some cx), .layer (objKey 0 49151) (some { ly with gc := [7] })] { tx0 with grans := [7] })), 0, 0, (desc 10 3 [0xFF, 0xBF, 0, 1, 0xFF, 0xFF, 0, 0, 0, 0, 0, 0, 16, 0, 0, 0, 0, 0, 0, 0, 1, 0, 1, 0]), { { tx0 with grans := [7] } with ops := [.ctx (objKey 0 40959) (some cx), .layer (objKey 0 49151) (some { ly with gc := [7] })] }, { ly with gc := [7] }, ⟨3, 16, [5]⟩, [], by unfold State.ready; decide +kernel⟩,
  ⟨(crowded [(5, ⟨.retiring, 0, 0, 0, 0, .resident, 0⟩)] (uploads [(65535, some ⟨3, 16, [5]⟩)] (scene (desc 10 3 [0xFF, 0xBF, 0, 1, 0xFF, 0xFF, 0, 0, 0, 0, 0, 0, 16, 0, 0, 0, 0, 0, 0, 0, 1, 0, 1, 0]) [.ctx (objKey 0 40959) (some cx), .layer (objKey 0 49151) (some { ly with gc := [7] })] tx0))), 0, 0, (desc 10 3 [0xFF, 0xBF, 0, 1, 0xFF, 0xFF, 0, 0, 0, 0, 0, 0, 16, 0, 0, 0, 0, 0, 0, 0, 1, 0, 1, 0]), { tx0 with ops := [.ctx (objKey 0 40959) (some cx), .layer (objKey 0 49151) (some { ly with gc := [7] })] }, { ly with gc := [7] }, ⟨3, 16, [5]⟩, [0], by unfold State.ready; decide +kernel, by decide +kernel, by decide +kernel, by decide +kernel, by decide +kernel, by decide +kernel, by decide +kernel, by decide +kernel, by decide +kernel, by decide +kernel, by decide +kernel, by decide +kernel, by decide +kernel, by decide +kernel, by decide +kernel, by decide +kernel, by decide +kernel, by decide +kernel, (copyState_crowded1 _ _ _ (by decide +kernel) (by decide +kernel))⟩,
  ⟨(crowded [] (uploads [(65535, some ⟨3, 16, [5]⟩)] (scene (desc 10 3 [0xFF, 0xBF, 0, 1, 0xFF, 0xFF, 0, 0, 0, 0, 0, 0, 16, 0, 0, 0, 0, 0, 0, 0, 1, 0, 1, 0]) [.ctx (objKey 0 40959) (some cx), .layer (objKey 0 49151) (some { ly with gc := [7] })] tx0))), 0, 0, (desc 10 3 [0xFF, 0xBF, 0, 1, 0xFF, 0xFF, 0, 0, 0, 0, 0, 0, 16, 0, 0, 0, 0, 0, 0, 0, 1, 0, 1, 0]), { tx0 with ops := [.ctx (objKey 0 40959) (some cx), .layer (objKey 0 49151) (some { ly with gc := [7] })] }, { ly with gc := [7] }, ⟨3, 16, [5]⟩, [0], by unfold State.ready; decide +kernel, by decide +kernel, by decide +kernel, by decide +kernel, by decide +kernel, by decide +kernel, by decide +kernel, by decide +kernel, by decide +kernel, by decide +kernel, by decide +kernel, by decide +kernel, by decide +kernel, by decide +kernel, by decide +kernel, by decide +kernel, by decide +kernel, by decide +kernel, (copyState_crowded2 _ _ _ (by decide +kernel) (by decide +kernel)), by decide +kernel⟩,
  ⟨(scene (desc 9 3 [0, 0, 1, 0, 1, 0, 0, 0, 0, 0, 0, 0, 1]) [] tx0), 0, 0, (desc 9 3 [0, 0, 1, 0, 1, 0, 0, 0, 0, 0, 0, 0, 1]), none, stRANGE, by unfold State.ready; decide +kernel⟩,
  ⟨(uploads [(65535, some ⟨3, 16, [5]⟩)] (scene (desc 10 3 [0, 0xC0, 0, 1, 0xFF, 0xFF, 0, 0, 0, 0, 0, 0, 16, 0, 0, 0, 0, 0, 0, 0, 1, 0, 1, 0]) [] tx0)), 0, 0, (desc 10 3 [0, 0xC0, 0, 1, 0xFF, 0xFF, 0, 0, 0, 0, 0, 0, 16, 0, 0, 0, 0, 0, 0, 0, 1, 0, 1, 0]), none, some ⟨3, 16, [5]⟩, [], stRANGE, by unfold State.ready; decide +kernel⟩⟩

/-- Every hypothesis of `Obligations.NopFenceAndReadbackComplete` is met. -/
theorem wit_NopFenceAndReadbackComplete :
  (∃ (s : State) (h : Fin 4) (r : Fin 16) (d : Desc),
    (s.ready h r 0x12 d)) ∧
  (∃ (s : State) (h : Fin 4) (r : Fin 16) (d : Desc),
    (s.ready h r 0x0E d)) ∧
  (∃ (s : State) (h : Fin 4) (r : Fin 16) (d : Desc) (top : Nat),
    (s.ready h r 0x11 d) ∧ ((d.txn = 0xFFFF ∨ s.joins h d = true)) ∧ ((d.rec_ 0 1, top) ∈ [(0, 40959), (1, 49151), (2, 4095), (3, 65535), (4, 255)]) ∧ (d.rec_ 2 2 ≤ top) ∧ (d.rec_ 1 1 = 0) ∧ (d.rec_ 4 4 = 0) ∧ (d.rec_ 8 8 % 64 = 0)) ∧
  (∃ (s : State) (h : Fin 4) (r : Fin 16) (d : Desc) (top st : Nat),
    (s.ready h r 0x11 d) ∧ (swf (fun _ => none) s.scenes.txns = true) ∧ ((d.rec_ 0 1, top) ∈ [(0, 40959), (1, 49151), (2, 4095), (3, 65535), (4, 255)] ∨ 4 < d.rec_ 0 1) ∧ (firstStatus [(d.txn != 0xFFFF && !s.joins h d, stTXN), (decide (4 < d.rec_ 0 1) || d.rec_ 1 1 != 0 || d.rec_ 4 4 != 0 || d.rec_ 8 8 % 64 != 0, stFORMAT), (decide (top < d.rec_ 2 2), stRANGE)] = some st)) :=
  ⟨⟨(ring (desc 0x12 0 []) up), 0, 0, (desc 0x12 0 []), by unfold State.ready; decide +kernel⟩,
  ⟨(ring (desc 0x0E 0 [0xFF, 0xFF]) up), 0, 0, (desc 0x0E 0 [0xFF, 0xFF]), by unfold State.ready; decide +kernel⟩,
  ⟨(ring (desc 0x11 65535 [1, 0, 0xFF, 0xBF]) up), 0, 0, (desc 0x11 65535 [1, 0, 0xFF, 0xBF]), 49151, by unfold State.ready; decide +kernel⟩,
  ⟨(ring (desc 0x11 65535 [1, 0, 0, 0xC0]) up), 0, 0, (desc 0x11 65535 [1, 0, 0, 0xC0]), 49151, stRANGE, by unfold State.ready; decide +kernel⟩⟩

/-- Every hypothesis of `Obligations.SealsTakeTheirSequencerPosition` is met. -/
theorem wit_SealsTakeTheirSequencerPosition :
  (∃ (s : State) (h : Fin 4) (k : Fin 256) (x : Txn),
    (s.txn h k = some x) ∧ (s.sealReady h k x = true) ∧ (s.waiting h < 256) ∧ (x.sched = none)) ∧
  (∃ (s : State) (h : Fin 4) (k : Fin 256) (x : Txn) (due : Nat),
    (s.txn h k = some x) ∧ (x.due = some due) ∧ (due ≤ s.base.E) ∧ (s.sealReady h k x = true) ∧ (s.waiting h < 256)) :=
  ⟨⟨(txns [(255, some { tx0 with closing := true })] up), 0, 255, { tx0 with closing := true }, by decide +kernel⟩,
  ⟨(txns [(255, some { tx0 with closing := true, due := some 0 })] up), 0, 255, { tx0 with closing := true, due := some 0 }, 0, by decide +kernel⟩⟩

/-- Every hypothesis of `Obligations.RingRegistersMoveTheRing` is met. -/
theorem wit_RingRegistersMoveTheRing :
  (∃ (s : State) (h : Fin 4) (r : Fin 16) (a : RegWr),
    (s.accepts (Reg.ringTail h r) a = true) ∧ ((s.applied (Reg.ringTail h r) a).word ≠ s.base.get (Reg.ringTail_TAIL h r)) ∧ (sub32 (s.applied (Reg.ringTail h r) a).word (s.base.get (Reg.ringTail_TAIL h r)) ≤ 2 ^ s.base.get (Reg.ringCtrl_LOG2 h r) - s.backlogOf h r)) ∧
  (∃ (s : State) (h : Fin 4) (r : Fin 16) (a : RegWr),
    (s.accepts (Reg.ringCtrl h r) a = true) ∧ (a.be.toNat.testBit 0 = true) ∧ (a.val.toNat.testBit 0 = true)) ∧
  (∃ (s : State) (h : Fin 4) (r : Fin 16) (a : RegWr),
    (s.accepts (Reg.ringCtrl h r) a = true) ∧ ((s.applied (Reg.ringCtrl h r) a).act.testBit 2 = true)) :=
  ⟨⟨(sets up [(Reg.ringCtrl_LOG2 0 15, 6)]), 0, 15, (wr 64), by decide +kernel⟩,
  ⟨up, 0, 15, (wr 0x01060001), by decide +kernel⟩,
  ⟨up, 0, 15, (wr 0x01060004), by decide +kernel⟩⟩

/-- Every hypothesis of `Obligations.FetchAndOverloadWindowAdvance` is met. -/
theorem wit_FetchAndOverloadWindowAdvance :
  (∃ (s : State) (h : Fin 4) (r : Fin 16) (bs : List Byte) (k : Nat),
    (s.creditRounds.fetchable h = true) ∧ (0 < s.creditRounds.credit h) ∧ (s.creditRounds.turn h = some r.val) ∧ (bs.length = 64 * k) ∧ (0 < k) ∧ (k ≤ s.creditRounds.fetchMost h r) ∧ (s.creditRounds.hasRoom 4 h k = true)) ∧
  (∃ (s : State) (h : Fin 4) (r : Fin 16) (c : Fin 4),
    (s.creditRounds.fetchable h = true) ∧ (0 < s.creditRounds.credit h) ∧ (s.creditRounds.turn h = some r.val)) ∧
  (∃ (s : State),
    (100 ≤ s.rings.window)) :=
  ⟨⟨(sets up [(Reg.ringCtrl_LOG2 0 15, 6), (Reg.ringCtrl_RUN 0 15, 1), (Reg.ringTail_TAIL 0 15, 64), (⟨hdr (pgCMD 0) 0x20, 0, 0⟩, 1)]), 0, 15, (List.replicate 1024 0), 16, by decide +kernel⟩,
  ⟨(sets up [(Reg.ringCtrl_LOG2 0 15, 6), (Reg.ringCtrl_RUN 0 15, 1), (Reg.ringTail_TAIL 0 15, 64), (⟨hdr (pgCMD 0) 0x20, 0, 0⟩, 1)]), 0, 15, 3, by decide +kernel⟩,
  ⟨{ up with rings := { up.rings with window := 100 } }, by decide +kernel⟩⟩

/-- Every hypothesis of `Obligations.CodecJobsAreDispatchedAndEnd` is met. -/
theorem wit_CodecJobsAreDispatchedAndEnd :
  (∃ (s : State) (e : Fin 16) (h : Nat) (j : Job),
    (s.engineFree e = true) ∧ ((List.range 4).find? (fun h => (s.jobRound.nextJob h).isSome && decide (0 < s.jobRound.jobCredit h)) = some h) ∧ (s.jobRound.nextJob h = some j)) ∧
  (∃ (s : State) (e : Fin 16) (ecc : Ecc) (j : Job) (d : Decode) (l : Layer),
    ((s.engine e).job = some j) ∧ (s.decodeOf j.dec = some d) ∧ ((s.view d.host d.txn).layer (objKey d.host d.layer) = some l) ∧ (s.engineWaits e = false) ∧ ((s.readGrans d).any isSpillId = false) ∧ ((l.grans d.plane).any isSpillId = false)) ∧
  (∃ (s : State) (e : Fin 16) (j : Job),
    ((s.engine e).job = some j) ∧ (s.base.ownState (pgENG e) ≠ uNOCLOCK)) ∧
  (∃ (s : State) (e : Fin 16),
    ((s.engine e).job = none) ∧ (s.base.ownState (pgENG e) = uREADY)) ∧
  (∃ (s : State) (e : Fin 16),
    ((s.engine e).job = none) ∧ (s.base.ownState (pgENG e) ≠ uREADY)) ∧
  (∃ (s : State) (e : Fin 16) (a : RegWr),
    (s.asksReset (pgENG e) a = true) ∧ ((s.engine e).job = none) ∧ (s.base.ownState (pgENG e) = uFAULT)) ∧
  (∃ (s : State) (e : Fin 16) (since : Nat),
    ((s.engine e).idle = some since) ∧ (since + 6250 ≤ s.base.ticks)) ∧
  (∃ (s : State) (e : Fin 16) (a : RegWr) (j : Job),
    (s.asksReset (pgENG e) a = true) ∧ ((s.engine e).job = some j)) ∧
  (∃ (s : State) (e : Fin 16) (a : RegWr),
    (s.asksEnable (pgENG e) a false = true) ∧ ((s.engine e).job = none) ∧ (s.base.ownState (pgENG e) = uREADY)) ∧
  (∃ (s : State) (e : Fin 16) (a : RegWr),
    (s.asksEnable (pgENG e) a true = true) ∧ (s.base.ownState (pgENG e) = uOFF) ∧ (5 ≤ s.base.get Reg.rstStep_STEP)) ∧
  (∃ (s : State) (a : RegWr) (on : Bool),
    (s.asksEnable pgCDC a on = true)) :=
  ⟨⟨{ (sets (sets (own (pgENG 15) uREADY up) [(⟨hdr (pgENG 15) 0x20, 0, 0⟩, 1)]) [(⟨hdr pgCDC 0x20, 0, 0⟩, 1)]) with codec := ⟨[dc], [jb], [], [], [], [], []⟩ }, 15, 0, jb, by decide +kernel⟩,
  ⟨{ uploads [] (scene (desc 0 3 []) [.ctx (objKey 0 40959) (some cx), .layer (objKey 0 49151) (some { ly with gc := [7] })] tx0) with codec := ⟨[dc], [], [(15, ⟨some jb, none⟩)], [], [], [], []⟩, adm := ⟨[], [⟨15, 0, 1, 0⟩, ⟨ridGroup, 0, 1, 0⟩]⟩ }, 15, ⟨[], []⟩, jb, dc, { ly with gc := [7] }, by decide +kernel⟩,
  ⟨{ up with codec := ⟨[dc], [], [(15, ⟨some jb, none⟩)], [], [], [], []⟩ }, 15, jb, by decide +kernel⟩,
  ⟨(own (pgENG 15) uREADY up), 15, by decide +kernel⟩,
  ⟨up, 15, by decide +kernel⟩,
  ⟨(sets (own (pgENG 15) uFAULT up) [(⟨hdr (pgENG 15) 0x20, 0, 0⟩, 1)]), 15, (wr 0x103), by decide +kernel⟩,
  ⟨{ up with codec := ⟨[], [], [(15, ⟨none, some 0⟩)], [], [], [], []⟩ }, 15, 0, by decide +kernel⟩,
  ⟨{ (sets up [(⟨hdr (pgENG 15) 0x20, 0, 0⟩, 1)]) with codec := ⟨[dc], [], [(15, ⟨some jb, none⟩)], [], [], [], []⟩ }, 15, (wr 0x103), jb, by decide +kernel⟩,
  ⟨(sets (own (pgENG 15) uREADY up) [(⟨hdr (pgENG 15) 0x20, 0, 0⟩, 1)]), 15, (wr 0x100), by decide +kernel⟩,
  ⟨(sets up [(⟨hdr (pgENG 15) 0x20, 0, 0⟩, 0)]), 15, (wr 0x101), by decide +kernel⟩,
  ⟨(sets up [(⟨hdr pgCDC 0x20, 0, 0⟩, 0)]), (wr 0x101), true, by decide +kernel⟩⟩

/-- Every hypothesis of `Obligations.TwoDOperationsRunAndEnd` is met. -/
theorem wit_TwoDOperationsRunAndEnd :
  (∃ (s : State) (h : Fin 4) (a : RegWr) (s0 : State) (o : TwdOp) (n : Nat),
    (s.accepts (Reg.twdOp h) a = true) ∧ ((s.applied (Reg.twdOp h) a).act.testBit 31 = true) ∧ (s.twdOp h = none) ∧ (s0 = (s.stored (Reg.twdOp h) a).onBase (·.put (Reg.twdStatus_ROWS h) 0)) ∧ (o = (s.stored (Reg.twdOp h) a).base.twdCapture h) ∧ (s0.twdCheck h o = none) ∧ ((s0.twdMissing h o).length ≤ s.dome.freeZero) ∧ ((∀ l, s0.twdDst h o = some l → ∀ i ∈ s0.twdMissing h o, isSpillId ((l.grans o.dKind).getD i 0) = false)) ∧ (o.op = n) ∧ (n = 1 ∨ n = 2 ∨ n = 3)) ∧
  (∃ (s : State) (h : Fin 4) (a : RegWr) (s0 : State) (o : TwdOp) (st : Nat),
    (s.accepts (Reg.twdOp h) a = true) ∧ ((s.applied (Reg.twdOp h) a).act.testBit 31 = true) ∧ (s.twdOp h = none) ∧ (s0 = (s.stored (Reg.twdOp h) a).onBase (·.put (Reg.twdStatus_ROWS h) 0)) ∧ (o = (s.stored (Reg.twdOp h) a).base.twdCapture h) ∧ (s0.twdCheck h o = some st)) ∧
  (∃ (s : State) (h : Fin 4) (a : RegWr) (o : TwdOp),
    (s.twdOp h = some o) ∧ (s.base.visible a.host.toNat (pgTWD h) = true) ∧ (s.base.mayWrite a.host.toNat (Reg.twdOp h) = true) ∧ (s.base.nhosts ≤ 4)) ∧
  (∃ (s : State) (h : Fin 4) (o : TwdOp),
    (s.twdOp h = some o) ∧ (o.writing = false) ∧ (o.staged = true) ∧ (s.twdWaitOrder h o = false) ∧ (s.twdWaitLeave h o = false) ∧ (o.sGrans.any isSpillId = false) ∧ ((s.twdDstGrans h o).any isSpillId = false)) ∧
  (∃ (s : State) (h : Fin 4) (ecc : Ecc) (o : TwdOp),
    (s.twdOp h = some o) ∧ (o.writing = true)) ∧
  (∃ (s : State) (h : Fin 4) (o : TwdOp),
    (s.twdOp h = some o) ∧ (s.base.ownState (pgTWD h) ≠ uNOCLOCK)) ∧
  (∃ (s : State) (h : Fin 4) (a : RegWr) (o : TwdOp),
    (s.asksReset (pgTWD h) a = true) ∧ (s.twdOp h = some o)) :=
  ⟨⟨(twdSet 1), 0, (wr 0x80000301), ((State.stored (twdSet 1) (Reg.twdOp 0) (wr 0x80000301)).onBase (·.put (Reg.twdStatus_ROWS 0) 0)), ((State.stored (twdSet 1) (Reg.twdOp 0) (wr 0x80000301)).base.twdCapture 0), 1, by decide +kernel, by decide +kernel, by decide +kernel, rfl, rfl, by decide +kernel, by decide +kernel, twdSet_here, by decide +kernel, by decide +kernel⟩,
  ⟨(twdSet 0), 0, (wr 0x80000301), ((State.stored (twdSet 0) (Reg.twdOp 0) (wr 0x80000301)).onBase (·.put (Reg.twdStatus_ROWS 0) 0)), ((State.stored (twdSet 0) (Reg.twdOp 0) (wr 0x80000301)).base.twdCapture 0), stNOOP, by decide +kernel⟩,
  ⟨{ up with twd := [(0, some op1)] }, 0, (wr 1), op1, by decide +kernel⟩,
  ⟨{ up with twd := [(0, some { op1 with staged := true })] }, 0, { op1 with staged := true }, by decide +kernel⟩,
  ⟨{ up with twd := [(0, some { op1 with writing := true })] }, 0, ⟨[], []⟩, { op1 with writing := true }, by decide +kernel⟩,
  ⟨{ up with twd := [(0, some op1)] }, 0, op1, by decide +kernel⟩,
  ⟨{ (sets up [(⟨hdr (pgTWD 0) 0x20, 0, 0⟩, 1)]) with twd := [(0, some op1)] }, 0, (wr 0x103), op1, by decide +kernel⟩⟩

/-- Every hypothesis of `Obligations.SubframesAdvanceTheTimelineAndCutsApply` is met. -/
theorem wit_SubframesAdvanceTheTimelineAndCutsApply :
  (∃ (s : State),
    (s.sco.armed = true) ∧ (s.nextStart ≤ (s.base.E : Int)) ∧ (s.sco.running = true) ∧ (s.sco.mode = .wall) ∧ (s.sco.leave = false) ∧ (s.sco.cutDue = false) ∧ (s.base.flag Reg.sxtCtrl_SET = false) ∧ ((s.j + 1) % 2 ^ 32 % 8 ≠ 0)) ∧
  (∃ (s : State),
    (s.sco.armed = true) ∧ (s.nextStart ≤ (s.base.E : Int)) ∧ (s.sco.running = false) ∧ (s.sco.cutDue = false) ∧ (s.base.flag Reg.sxtCtrl_SET = false)) ∧
  (∃ (s : State),
    (s.sco.cutDue = true)) :=
  ⟨⟨(sco { up.sco with armed := true, running := true } (sets late [(Reg.scoSubframe_J, 5)])), by decide +kernel⟩,
  ⟨(sco { up.sco with armed := true } late), by decide +kernel⟩,
  ⟨(sco { up.sco with cutDue := true } up), by decide +kernel⟩⟩

/-- Every hypothesis of `Obligations.ALineLeavesTheScanoutStore` is met. -/
theorem wit_ALineLeavesTheScanoutStore :
  (∃ (s : State) (y : BitVec 16) (u : LineUpset),
    (s.sco.running = true) ∧ (s.sco.dark = none) ∧ (s.pnl.linkDark = none) ∧ (y.toNat = s.sco.line) ∧ (y.toNat < s.sco.height) ∧ (s.sco.lineAt y.toNat ≤ (s.base.E : Int))) ∧
  (∃ (s : State) (a : RegWr),
    (s.accepts Reg.scoOdData a = true) ∧ (a.be = 15) ∧ (s.base.get Reg.scoOdAddr_BANK ≠ s.base.get Reg.scoCtrl_OD_BANK) ∧ (s.base.get Reg.scoOdAddr_TI < 32)) ∧
  (∃ (s : State),
    ((s.port 0).temp.isSome ∨ (s.port 1).temp.isSome) ∧ (s.panelTemp = none)) ∧
  (∃ (s : State) (a : RegWr),
    (s.asksReset pgSCO a = true)) :=
  ⟨⟨(sco { up.sco with running := true, dark := none, line := 8639 } late), 8639, ⟨[], false, 0, false, []⟩, by decide +kernel⟩,
  ⟨(sets up [(Reg.scoOdAddr_BANK, 1), (Reg.scoOdAddr_TI, 31)]), (wr 0x7FF), by decide +kernel⟩,
  ⟨(port 1 { Port.off with temp := some (20, 0) } up), by decide +kernel⟩,
  ⟨(sets up [(⟨hdr pgSCO 0x20, 0, 0⟩, 1)]), (wr 0x103), by decide +kernel⟩⟩

/-- Every hypothesis of `Obligations.SpansFinishFailAndAreReissued` is met. -/
theorem wit_SpansFinishFailAndAreReissued :
  (∃ (s : State) (c : Fin 68) (ecc : Ecc) (cp qp : Nat) (p : Span),
    (s.spanOf c = some p) ∧ (s.base.nhosts ≤ 4)) ∧
  (∃ (s : State) (c : Fin 68) (p : Span),
    (s.spanOf c = some p) ∧ (p.at_ + 40000 ≤ s.base.ticks) ∧ (s.base.nhosts ≤ 4)) ∧
  (∃ (s : State) (c : Fin 68) (k : Fin 4) (perm : Bool) (p : Span),
    (s.spanOf c = some p) ∧ (s.base.nhosts ≤ 4)) ∧
  (∃ (s : State) (a : RegWr),
    (s.accepts Reg.sprLimits a = true) ∧ ((s.base.word Reg.sprLimits).toNat.testBit 15 = true) ∧ ((s.applied Reg.sprLimits a).word.testBit 15 = false)) ∧
  (∃ (s : State) (page : BitVec 10) (a : RegWr),
    (pgSPR ≤ page.toNat) ∧ (page.toNat < 0x105) ∧ (s.asksReset page.toNat a = true)) ∧
  (∃ (s : State) (page : BitVec 10) (c : Fin 68) (a : RegWr),
    (page.toNat = pgSPC c) ∧ (s.asksReset page.toNat a = true) ∧ (s.base.ownState page.toNat = uREADY)) ∧
  (∃ (s : State) (c : Fin 68) (a : RegWr) (on : Bool),
    (s.asksEnable (pgSPC c) a on = true)) :=
  ⟨⟨{ up with spr := { up.spr with work := [(67, some ⟨5, 1, 0, none⟩)] } }, 67, ⟨[], []⟩, 1, 2, ⟨5, 1, 0, none⟩, by decide +kernel⟩,
  ⟨{ up with spr := { up.spr with work := [(67, some ⟨5, 1, 0, none⟩)] } }, 67, ⟨5, 1, 0, none⟩, by decide +kernel⟩,
  ⟨{ up with spr := { up.spr with work := [(67, some ⟨5, 1, 0, none⟩)] } }, 67, 3, false, ⟨5, 1, 0, none⟩, by decide +kernel⟩,
  ⟨(sets up [(Reg.sprLimits_AUTOCAP, 1)]), (wr 0x00008010), by decide +kernel⟩,
  ⟨(sets up [(⟨hdr 0x104 0x20, 0, 0⟩, 1)]), 0x104, (wr 0x103), by decide +kernel⟩,
  ⟨(sets (own (pgSPC 67) uREADY up) [(⟨hdr (pgSPC 67) 0x20, 0, 0⟩, 1)]), (BitVec.ofNat 10 (pgSPC 67)), 67, (wr 0x103), by decide +kernel⟩,
  ⟨(sets up [(⟨hdr (pgSPC 67) 0x20, 0, 0⟩, 0)]), 67, (wr 0x101), true, by decide +kernel⟩⟩

/-- Every hypothesis of `Obligations.TheCompassChecksResetsAndSwitches` is met. -/
theorem wit_TheCompassChecksResetsAndSwitches :
  (∃ (s : State),
    (s.cmp.checked = false)) ∧
  (∃ (s : State) (l : List (BitVec 12 × BitVec 2)),
    (s.cmp.checked = true) ∧ (s.cmp.reset = false)) ∧
  (∃ (s : State) (off : BitVec 12) (m : BitVec 2),
    (s.cmp.checked = false) ∧ (cmpWords.contains (hdr pgCMP (off.toNat / 4 * 4)) = true) ∧ (m = 1 ∨ m = 2) ∧ (sget (fun _ => 0) s.cmp.bad (off.toNat / 4 * 4) = 0) ∧ (s.base.nhosts ≤ 4)) ∧
  (∃ (s : State) (off : BitVec 12),
    (s.cmp.checked = false) ∧ (cmpWords.contains (hdr pgCMP (off.toNat / 4 * 4)) = true) ∧ (sget (fun _ => 0) s.cmp.bad (off.toNat / 4 * 4) = 0) ∧ (s.base.ownState pgCMP ≠ uNOCLOCK) ∧ (s.base.nhosts ≤ 4)) ∧
  (∃ (s : State) (a : RegWr),
    (s.asksReset pgCMP a = true)) ∧
  (∃ (s : State) (a : RegWr) (on : Bool),
    (s.asksEnable pgCMP a on = true)) :=
  ⟨⟨up, by decide +kernel⟩,
  ⟨{ up with cmp := { up.cmp with checked := true } }, [], by decide +kernel⟩,
  ⟨up, (BitVec.ofNat 12 (Reg.cmpKmax % 4096)), 2, by decide +kernel⟩,
  ⟨up, 0x100, by decide +kernel⟩,
  ⟨(sets up [(⟨hdr pgCMP 0x20, 0, 0⟩, 1)]), (wr 0x103), by decide +kernel⟩,
  ⟨(sets up [(⟨hdr pgCMP 0x20, 0, 0⟩, 1)]), (wr 0x100), false, by decide +kernel⟩⟩

/-- Every hypothesis of `Obligations.TheGuardTicksChecksAndResets` is met. -/
theorem wit_TheGuardTicksChecksAndResets :
  (∃ (s : State),
    (msAcc ≤ s.guard.accum) ∧ (s.base.flag Reg.frsStatus_TICK_LOCAL = false)) ∧
  (∃ (s : State),
    (s.base.flag Reg.frsStatus_TICK_LOCAL = false) ∧ (s.base.ownState pgFRS ≠ uOFF) ∧ (s.guard.lastAt + tickLate ≤ s.base.ticks) ∧ (s.base.nhosts ≤ 4)) ∧
  (∃ (s : State),
    (s.base.flag Reg.frsStatus_TICK_LOCAL = true) ∧ (s.guard.lastAt + tickLocal ≤ s.base.ticks)) ∧
  (∃ (s : State) (g : GuardBad),
    (g.both = false) ∧ (s.base.nhosts ≤ 4)) ∧
  (∃ (s : State) (g : GuardBad),
    (g.both = true) ∧ (g.region = true) ∧ (s.guard.reset = none) ∧ (s.guard.badRegs = [])) ∧
  (∃ (s : State) (g : GuardBad),
    (g.both = true) ∧ (g.region = true) ∧ (s.guard.reset ≠ none)) ∧
  (∃ (s : State) (g : GuardBad) (c : GCtx),
    (g.both = true) ∧ (g.region = false) ∧ (sget (fun _ => none) s.guard.ctxs (objKey g.host.toNat g.handle.toNat) = some c)) ∧
  (∃ (s : State) (a : RegWr) (ok : Bool),
    (s.asksReset pgFRS a = true)) :=
  ⟨⟨{ up with guard := { up.guard with accum := msAcc } }, by decide +kernel⟩,
  ⟨(own pgFRS uBUSY up), by decide +kernel⟩,
  ⟨(sets up [(Reg.frsStatus_TICK_LOCAL, 1)]), by decide +kernel⟩,
  ⟨up, ⟨true, 3, 4095, false⟩, by decide +kernel⟩,
  ⟨up, ⟨true, 3, 4095, true⟩, by decide +kernel⟩,
  ⟨{ up with guard := { up.guard with reset := some true } }, ⟨true, 3, 4095, true⟩, by decide +kernel⟩,
  ⟨{ up with guard := { up.guard with ctxs := [(objKey 3 40959, some ⟨1, 0, 5, 5, false, false⟩)] } }, ⟨false, 3, 40959, true⟩, ⟨1, 0, 5, 5, false, false⟩, by decide +kernel⟩,
  ⟨(sets up [(⟨hdr pgFRS 0x20, 0, 0⟩, 1)]), (wr 0x103), true, by decide +kernel⟩⟩

/-- Every hypothesis of `Obligations.PortsAndLanesAreSwitchedAndRetrained` is met. -/
theorem wit_PortsAndLanesAreSwitchedAndRetrained :
  (∃ (s : State) (p : Fin 2) (a : RegWr),
    (s.asksEnable (pgPRT p) a true = true) ∧ ((s.port p).phase = .idle)) ∧
  (∃ (s : State) (p : Fin 2) (a : RegWr),
    (s.asksEnable (pgPRT p) a false = true) ∧ ((s.port p).phase = .service)) ∧
  (∃ (s : State) (p : Fin 2) (a : RegWr),
    (s.asksReset (pgPRT p) a = true) ∧ (s.base.enabled (pgPRT p) = true) ∧ ((s.port p).phase = .service)) ∧
  (∃ (s : State) (l : Fin 44) (a : RegWr),
    (s.asksReset (pgLNK l) a = true) ∧ (s.base.enabled (pgLNK l) = true) ∧ (s.laneRetired l = false) ∧ (s.laneHome l = true) ∧ ((s.lane l).retrain = none) ∧ (s.base.nhosts ≤ 4)) ∧
  (∃ (s : State) (l : Fin 44) (a : RegWr),
    (s.asksEnable (pgLNK l) a true = true) ∧ (s.laneRetired l = false) ∧ (s.laneHome l = true) ∧ ((s.lane l).retrain = none)) ∧
  (∃ (s : State) (l : Fin 44) (a : RegWr),
    (s.asksEnable (pgLNK l) a false = true) ∧ (s.base.nhosts ≤ 4)) ∧
  (∃ (s : State) (l : Fin 44) (g : Nat),
    ((s.lane l).retrain = some (some g)) ∧ (64 ≤ (s.lane l).run)) ∧
  (∃ (s : State) (l : Fin 44) (g : Nat),
    ((s.lane l).retrain = some (some g)) ∧ (g ≤ s.base.ticks) ∧ ((s.lane l).run < 64) ∧ (s.base.nhosts ≤ 4)) ∧
  (∃ (s : State) (a : RegWr),
    (s.accepts Reg.pnlCtrl a = true) ∧ ((s.base.word Reg.pnlCtrl).toNat % 2 = 0) ∧ ((s.applied Reg.pnlCtrl a).word % 2 = 1)) ∧
  (∃ (s : State) (a : RegWr),
    (s.accepts Reg.pnlCtrl a = true) ∧ ((s.base.word Reg.pnlCtrl).toNat % 2 = 1) ∧ ((s.applied Reg.pnlCtrl a).word % 2 = 0)) ∧
  (∃ (s : State) (l : Fin 44) (a : RegWr),
    (s.accepts (Reg.lnkCtrl l) a = true) ∧ (s.loopAllowed l = true)) ∧
  (∃ (s : State) (l : Fin 44) (a : RegWr) (w : Nat),
    (w = mergeBytes (s.base.word (Reg.lnkCtrl l)).toNat a.val.toNat a.be) ∧ (s.loopAllowed l = false) ∧ (bits w 5 4 ≠ 0 ∨ bits w 11 8 ≠ 0) ∧ (s.base.visible a.host.toNat (pgLNK l) = true) ∧ (s.base.mayWrite a.host.toNat (Reg.lnkCtrl l) = true) ∧ (s.base.nhosts ≤ 4)) :=
  ⟨⟨(sets up [(⟨hdr (pgPRT 1) 0x20, 0, 0⟩, 0)]), 1, (wr 0x101), by decide +kernel⟩,
  ⟨(port 1 { Port.off with phase := .service } (sets up [(⟨hdr (pgPRT 1) 0x20, 0, 0⟩, 1)])), 1, (wr 0x100), by decide +kernel⟩,
  ⟨(port 1 { Port.off with phase := .service } (sets up [(⟨hdr (pgPRT 1) 0x20, 0, 0⟩, 1)])), 1, (wr 0x103), by decide +kernel⟩,
  ⟨(port 1 { Port.off with phase := .service } (sets up [(⟨hdr (pgLNK 31) 0x20, 0, 0⟩, 1)])), 31, (wr 0x103), by decide +kernel⟩,
  ⟨(port 1 { Port.off with phase := .service } (sets up [(⟨hdr (pgLNK 35) 0x20, 0, 0⟩, 0)])), 35, (wr 0x101), by decide +kernel⟩,
  ⟨(sets up [(⟨hdr (pgLNK 43) 0x20, 0, 0⟩, 1)]), 43, (wr 0x100), by decide +kernel⟩,
  ⟨(lane 43 { Lane.rest with retrain := some (some 0), run := 64 } up), 43, 0, by decide +kernel⟩,
  ⟨(lane 43 { Lane.rest with retrain := some (some 0), run := 63 } up), 43, 0, by decide +kernel⟩,
  ⟨up, (wr 1), by decide +kernel⟩,
  ⟨(sets up [(Reg.pnlCtrl_LINK_DARK, 1)]), (wr 0), by decide +kernel⟩,
  ⟨(sets up [(⟨hdr (pgLNK 43) 0x20, 0, 0⟩, 0)]), 43, (wr 0x00000010), by decide +kernel⟩,
  ⟨(sets up [(⟨hdr 0x00C 0x20, 0, 0⟩, 1), (Reg.lnkStatus_ROLE 43, 0)]), 43, (wr 0x00000010), 0x10, by decide +kernel⟩⟩

/-- Every hypothesis of `Obligations.BackChannelMessagesAreTaken` is met. -/
theorem wit_BackChannelMessagesAreTaken :
  (∃ (s : State) (p b : Fin 2) (m : List Byte),
    ((s.port p).sends = true) ∧ (backFormOk m = true) ∧ (leAt m 0 1 = 0x10) ∧ ((s.port p).now.bc = b) ∧ (s.recentJ (leAt m 4 4) = true)) ∧
  (∃ (s : State) (p b : Fin 2) (m : List Byte),
    ((s.port p).sends = true) ∧ (backFormOk m = true) ∧ (leAt m 0 1 = 0x11) ∧ ((s.port p).now.bc = b) ∧ (s.base.nhosts ≤ 4)) ∧
  (∃ (s : State) (p b : Fin 2) (m : List Byte),
    ((s.port p).sends = true) ∧ (backFormOk m = true) ∧ (leAt m 0 1 = 0x12) ∧ ((s.port p).now.bc = b) ∧ (s.recentJ (leAt m 4 4) = true) ∧ (s.base.nhosts ≤ 4)) ∧
  (∃ (s : State) (p b : Fin 2) (m : List Byte),
    ((s.port p).phase = .service) ∧ (backFormOk m = true) ∧ (leAt m 0 1 = 0x13) ∧ ((s.port p).now.bc = b) ∧ ((s.port p).target.has (leAt m 1 1) = true) ∧ ((s.port p).seen.contains (leAt m 1 1) = true)) ∧
  (∃ (s : State) (p b : Fin 2) (m : List Byte),
    ((s.port p).sends = true) ∧ (backFormOk m = true) ∧ (leAt m 0 1 = 0x14) ∧ ((s.port p).now.bc = b)) ∧
  (∃ (s : State) (l : Fin 44),
    (32 ≤ l.val) ∧ (l.val < 36 ∨ 40 ≤ l.val) ∧ (s.base.get (Reg.lnkStatus_ALIGN l) ≠ 2)) ∧
  (∃ (s : State) (l : Fin 44),
    (32 ≤ l.val) ∧ (l.val < 36 ∨ 40 ≤ l.val) ∧ (s.base.get (Reg.lnkStatus_ALIGN l) = 2) ∧ (s.base.nhosts ≤ 4)) :=
  ⟨⟨(port 1 { Port.off with phase := .service } up), 1, 0, (block [0x10]), by decide +kernel⟩,
  ⟨(port 1 { Port.off with phase := .service } up), 1, 0, (block [0x11]), by decide +kernel⟩,
  ⟨(port 1 { Port.off with phase := .service } up), 1, 0, (block [0x12]), by decide +kernel⟩,
  ⟨(port 1 { Port.off with phase := .service, now := ⟨[15], none, 0⟩, seen := [15] } up), 1, 0, (block [0x13, 15]), by decide +kernel⟩,
  ⟨(port 1 { Port.off with phase := .service } up), 1, 0, (block [0x14]), by decide +kernel⟩,
  ⟨up, 43, by decide +kernel⟩,
  ⟨(sets up [(Reg.lnkStatus_ALIGN 43, 2)]), 43, by decide +kernel⟩⟩

/-- Every hypothesis of `Obligations.ZonesAndStringsStartAndStop` is met. -/
theorem wit_ZonesAndStringsStartAndStop :
  (∃ (s : State) (a : RegWr),
    (s.asksEnable pgBCN a false = true)) ∧
  (∃ (s : State) (a : RegWr),
    (s.asksEnable pgBCN a true = true)) ∧
  (∃ (s : State) (z : Fin 12) (a : RegWr),
    (s.asksEnable (pgZON z) a false = true)) ∧
  (∃ (s : State) (z : Fin 12) (a : RegWr),
    (s.asksEnable (pgZON z) a true = true) ∧ (s.base.enabled pgBCN = true) ∧ (s.base.ownState pgBCN ≠ uNOCLOCK)) ∧
  (∃ (s : State) (z : Fin 12) (a : RegWr),
    (s.asksReset (pgZON z) a = true) ∧ (s.base.enabled pgBCN = true) ∧ (s.base.enabled (pgZON z) = true) ∧ (s.base.ownState pgBCN ≠ uNOCLOCK)) ∧
  (∃ (s : State) (z : Fin 12) (i : Fin 8) (a : RegWr),
    (s.accepts (Reg.strCtrl z i) a = true) ∧ ((s.base.word (Reg.strCtrl z i)).toNat.testBit 31 = true) ∧ ((s.applied (Reg.strCtrl z i) a).word.testBit 31 = false) ∧ (s.strState z i < 4) ∧ (s.base.nhosts ≤ 4)) ∧
  (∃ (s : State) (z : Fin 12) (i : Fin 8) (a : RegWr),
    (s.accepts (Reg.strCtrl z i) a = true) ∧ ((s.base.word (Reg.strCtrl z i)).toNat.testBit 31 = false) ∧ ((s.applied (Reg.strCtrl z i) a).word.testBit 31 = true) ∧ (s.strState z i < 4) ∧ ((s.zone z).on = true) ∧ (s.base.nhosts ≤ 4)) ∧
  (∃ (s : State) (z : Fin 12),
    ((s.zone z).phase = .ramp 9)) ∧
  (∃ (s : State) (z : Fin 12) (i : Fin 8) (a : RegWr),
    (s.accepts (Reg.strState z i) a = true) ∧ ((s.applied (Reg.strState z i) a).act.testBit 31 = true) ∧ (4 ≤ s.strState z i)) :=
  ⟨⟨(sets up [(⟨hdr pgBCN 0x20, 0, 0⟩, 1)]), (wr 0x100), by decide +kernel⟩,
  ⟨(sets up [(⟨hdr pgBCN 0x20, 0, 0⟩, 0)]), (wr 0x101), by decide +kernel⟩,
  ⟨(sets up [(⟨hdr (pgZON 11) 0x20, 0, 0⟩, 1)]), 11, (wr 0x100), by decide +kernel⟩,
  ⟨(sets (own pgBCN uREADY (sets up [(⟨hdr pgBCN 0x20, 0, 0⟩, 1)])) [(⟨hdr (pgZON 11) 0x20, 0, 0⟩, 0)]), 11, (wr 0x101), by decide +kernel⟩,
  ⟨(sets (own pgBCN uREADY (sets up [(⟨hdr pgBCN 0x20, 0, 0⟩, 1)])) [(⟨hdr (pgZON 11) 0x20, 0, 0⟩, 1)]), 11, (wr 0x103), by decide +kernel⟩,
  ⟨(word (Reg.strCtrl 11 7) 0x80000000 up), 11, 7, (wr 0), by decide +kernel⟩,
  ⟨(zone 11 { Zone.rest with phase := .ramp 0 } (word (Reg.strCtrl 11 7) 0 up)), 11, 7, (wr 0x80010000), by decide +kernel⟩,
  ⟨(zone 11 { Zone.rest with phase := .ramp 9 } up), 11, by decide +kernel⟩,
  ⟨(sets up [(Reg.strState_STATE 11 7, 4)]), 11, 7, (wr 0x80000000), by decide +kernel⟩⟩

/-- Every hypothesis of `Obligations.StringsFireAndAreJudged` is met. -/
theorem wit_StringsFireAndAreJudged :
  (∃ (s : State) (z : Fin 12),
    (s.sco.running = true) ∧ (s.sco.beaconDark = false) ∧ (s.pnl.linkDark = none) ∧ (s.sco.standby = false) ∧ ((s.zone z).opened = false) ∧ (s.base.get Reg.scoLw_LW_LEN ≠ 0) ∧ (s.sco.partAt (s.base.get Reg.scoLw_LW_START + z * s.base.get Reg.scoLwStep_LW_STEP) ≤ (s.base.E : Int))) ∧
  (∃ (s : State) (z : Fin 12),
    (s.sco.running = true) ∧ (s.sco.beaconDark = false) ∧ (s.pnl.linkDark = none) ∧ ((s.zone z).closed = false) ∧ (s.closedUsable z = true) ∧ ((s.closedAt z).1 ≤ (s.base.E : Int))) ∧
  (∃ (s : State) (z : Fin 12) (i : Fin 8) (len : Nat) (rise : Option (BitVec 12)) (vsns : BitVec 10) (isns : List (Nat × BitVec 10)),
    ((s.str z i).judged = false) ∧ (800 ≤ len) ∧ ((s.str z i).plan.contains len = true) ∧ (fires (s.strState z i) = true) ∧ (s.base.nhosts ≤ 4)) ∧
  (∃ (s : State) (z : Fin 12) (i : Fin 8) (ov : Bool) (k step : Nat),
    ((s.str z i).plan ≠ []) ∧ (fires (s.strState z i) = true) ∧ (s.base.nhosts ≤ 4)) ∧
  (∃ (s : State) (z : Fin 12) (i : Fin 8),
    (64 ≤ s.base.get (Reg.strState_NOVERDICT z i)) ∧ (s.strState z i = strOK ∨ s.strState z i = strPENDING)) ∧
  (∃ (s : State) (a b : Ball),
    (s.bcn.tests.contains (min (ballNum a) (ballNum b), max (ballNum a) (ballNum b)) = true) ∧ (ballNum a / 4 ≠ ballNum b / 4) ∧ (s.base.nhosts ≤ 4)) ∧
  (∃ (s : State) (a b : Ball),
    (s.bcn.tests.contains (min (ballNum a) (ballNum b), max (ballNum a) (ballNum b)) = true) ∧ ((∀ z : Fin 12, (s.zone z).phase ≠ .waits))) :=
  ⟨⟨(sco { up.sco with running := true, beaconDark := false } (sets late [(Reg.scoLw_LW_LEN, 1)])), 11, by decide +kernel⟩,
  ⟨(sco { up.sco with running := true, beaconDark := false } (sets late [(Reg.scoClosed_CL_LEN, 0x4000)])), 11, by decide +kernel⟩,
  ⟨(str 11 7 { Str.rest with plan := [800] } (sets up [(Reg.strState_STATE 11 7, 1)])), 11, 7, 800, none, 0, [], by decide +kernel⟩,
  ⟨(str 11 7 { Str.rest with plan := [800] } (sets up [(Reg.strState_STATE 11 7, 1)])), 11, 7, true, 0, 799, by decide +kernel⟩,
  ⟨(sets up [(Reg.strState_STATE 11 7, 3), (Reg.strState_NOVERDICT 11 7, 64)]), 11, 7, by decide +kernel⟩,
  ⟨{ up with bcn := { up.bcn with tests := [(0, 4)] } }, ⟨0, 1, .gate⟩, ⟨0, 0, .gate⟩, by decide +kernel⟩,
  ⟨{ up with bcn := { up.bcn with tests := [(0, 4)] } }, ⟨0, 1, .gate⟩, ⟨0, 0, .gate⟩, by decide +kernel⟩⟩

/-- Every hypothesis of `Obligations.TheBelfryCyclesSwapsAndDischarges` is met. -/
theorem wit_TheBelfryCyclesSwapsAndDischarges :
  (∃ (s : State) (a : RegWr),
    (s.asksEnable pgBLF a true = true) ∧ (s.blf.phase = .off)) ∧
  (∃ (s : State) (a : RegWr),
    (s.asksEnable pgBLF a false = true) ∧ (s.blf.phase = .run)) ∧
  (∃ (s : State) (a : RegWr),
    (s.asksReset pgBLF a = true) ∧ (s.blf.phase = .run)) ∧
  (∃ (s : State),
    (s.blf.phase = .run) ∧ (s.blf.stop = false) ∧ (s.blf.due ≤ s.base.ticks) ∧ (s.base.nhosts ≤ 4) ∧ ((s.sco.armed = false ∨ (s.base.E : Int) < s.nextStart))) ∧
  (∃ (s u : State),
    (s.cycleDue = true) ∧ (s.sco.armed = true) ∧ (s.nextStart + (((s.base.ticks - s.blf.due) * 8 / 5 : Nat) : Int) ≤ (s.base.E : Int)) ∧ (exec .subframeStart s = .next u)) ∧
  (∃ (s : State),
    (s.blf.phase = .joined) ∧ (s.blf.at_ + 62500 ≤ s.base.ticks) ∧ (s.blf.restart = false)) ∧
  (∃ (s : State) (a : RegWr),
    (s.accepts Reg.blfBank a = true) ∧ ((s.applied Reg.blfBank a).act.testBit 31 = true)) ∧
  (∃ (s : State) (a : RegWr),
    (s.accepts Reg.blfTemp a = true)) ∧
  (∃ (s : State) (mv : BitVec 16),
    (s.blf.phase = .run) ∧ (s.base.get Reg.blfStatus_VOP ≠ 0) ∧ (mv.toNat ≤ s.base.get Reg.blfStatus_VOP * 20 + 200) ∧ (s.base.nhosts ≤ 4)) :=
  ⟨⟨(sets up [(⟨hdr pgBLF 0x20, 0, 0⟩, 0)]), (wr 0x101), by decide +kernel⟩,
  ⟨{ (sets up [(⟨hdr pgBLF 0x20, 0, 0⟩, 1)]) with blf := { up.blf with phase := .run } }, (wr 0x100), by decide +kernel⟩,
  ⟨{ (sets up [(⟨hdr pgBLF 0x20, 0, 0⟩, 1)]) with blf := { up.blf with phase := .run } }, (wr 0x103), by decide +kernel⟩,
  ⟨{ up with blf := { up.blf with phase := .run } }, by decide +kernel⟩,
  ⟨sco { up.sco with armed := true } { late with blf := { up.blf with phase := .run, at_ := 999999990000, slot := 0 } }, _, by decide +kernel, by decide +kernel, by decide +kernel, rfl⟩,
  ⟨{ up with blf := { up.blf with phase := .joined } }, by decide +kernel⟩,
  ⟨up, (wr 0x80000000), by decide +kernel⟩,
  ⟨up, (wr 20), by decide +kernel⟩,
  ⟨{ (sets up [(Reg.blfStatus_VOP, 255)]) with blf := { up.blf with phase := .run } }, 5300, by decide +kernel⟩⟩

/-- Every hypothesis of `Obligations.SextantTimeIsSteeredAndLoaded` is met. -/
theorem wit_SextantTimeIsSteeredAndLoaded :
  (∃ (s : State),
    (s.sxtRuns = true) ∧ (wraps s.base.acc s.nextAcc = true)) ∧
  (∃ (s : State),
    (s.sxtRuns = true) ∧ (s.sxt.slew ≠ 0) ∧ (s.sxt.slew - slewStep s.sxt.slew = 0)) ∧
  (∃ (s : State) (a : RegWr),
    (s.accepts Reg.sxtIncHi a = true) ∧ (a.be = 15) ∧ (incLegal (a.val.toNat % 256 * 2 ^ 32 + (s.base.word Reg.sxtIncLo).toNat) = true)) ∧
  (∃ (s : State) (a : RegWr),
    (s.accepts Reg.sxtAdj a = true) ∧ (a.be = 15) ∧ ((toSigned 32 a.val.toNat).natAbs ≤ 1000000)) ∧
  (∃ (s : State) (a : RegWr),
    (s.accepts Reg.sxtCtrl a = true) ∧ ((s.applied Reg.sxtCtrl a).act.testBit 1 = true)) ∧
  (∃ (s : State) (a : RegWr),
    (s.accepts Reg.sxtCtrl a = true) ∧ ((s.applied Reg.sxtCtrl a).act.testBit 2 = true)) ∧
  (∃ (s : State) (a : RegWr),
    (s.accepts Reg.sxtCtrl a = true) ∧ ((s.applied Reg.sxtCtrl a).word.testBit 0 = true)) ∧
  (∃ (s : State),
    (s.base.flag Reg.sxtCtrl_SET = true) ∧ (s.sco.armed = true) ∧ (s.nextStart ≤ (s.base.E : Int)) ∧ (s.base.nhosts ≤ 4)) ∧
  (∃ (s : State) (offsets : List Int) (o : Int),
    (s.mayLock = true) ∧ (16 ≤ offsets.length) ∧ (offsets.getLast? = some o) ∧ ((∀ x ∈ offsets, -(s.base.get Reg.sxtServo_LOCK_NS : Int) ≤ x ∧ x ≤ (s.base.get Reg.sxtServo_LOCK_NS : Int)))) ∧
  (∃ (s : State) (why : HoldCause),
    (s.base.flag Reg.sxtStatus_LOCKED_ONCE = true) ∧ ((why = .noOffset → s.sxt.validAt + 4 * secTicks ≤ s.base.ticks)) ∧ ((why = .helmReset → s.base.flag Reg.ethStatus_HELM = false)) ∧ ((why = .linkDown → s.base.flag Reg.ethStatus_LINK = false)) ∧ ((why = .hold → s.base.flag Reg.sxtCtrl_HOLD = true))) :=
  ⟨⟨{ (own pgSXT uBUSY up) with base := { (own pgSXT uBUSY up).base with acc := 2 ^ 64 - 1 } }, by decide +kernel⟩,
  ⟨{ (own pgSXT uBUSY up) with sxt := { up.sxt with slew := 1 } }, by decide +kernel⟩,
  ⟨up, (wr 1), by decide +kernel⟩,
  ⟨up, (wr 0xFFF0BDC0), by decide +kernel⟩,
  ⟨up, (wr 2), by decide +kernel⟩,
  ⟨up, (wr 4), by decide +kernel⟩,
  ⟨up, (wr 1), by decide +kernel⟩,
  ⟨(sco { up.sco with armed := true } (sets late [(Reg.sxtCtrl_SET, 1)])), by decide +kernel⟩,
  ⟨(sets up [(Reg.ethStatus_HELM, 1), (Reg.ethStatus_LINK, 1)]), (List.replicate 16 (up.base.get Reg.sxtServo_LOCK_NS : Int)), (up.base.get Reg.sxtServo_LOCK_NS : Int), by decide +kernel⟩,
  ⟨(sets up [(Reg.sxtStatus_LOCKED_ONCE, 1)]), .noOffset, by decide +kernel⟩⟩

/-- Every hypothesis of `Obligations.TimersArmOrAreRefused` is met. -/
theorem wit_TimersArmOrAreRefused :
  (∃ (s : State) (n : Fin 4) (a : RegWr),
    (s.accepts (Reg.actCtrl n) a = true) ∧ ((s.base.word (Reg.actCtrl n)).toNat.testBit 31 = false) ∧ ((s.applied (Reg.actCtrl n) a).word.testBit 31 = true) ∧ (future32 (s.base.get (Reg.actTarget_NS n)) s.base.now = true)) ∧
  (∃ (s : State) (n : Fin 4) (a : RegWr),
    (s.accepts (Reg.actCtrl n) a = true) ∧ ((s.base.word (Reg.actCtrl n)).toNat.testBit 31 = false) ∧ ((s.applied (Reg.actCtrl n) a).word.testBit 31 = true) ∧ (future32 (s.base.get (Reg.actTarget_NS n)) s.base.now = false) ∧ ((s.applied (Reg.actCtrl n) a).word.testBit 30 = false)) ∧
  (∃ (s : State) (n : Fin 4) (a : RegWr),
    (s.accepts (Reg.actCtrl n) a = true) ∧ ((s.base.word (Reg.actCtrl n)).toNat.testBit 31 = false) ∧ ((s.applied (Reg.actCtrl n) a).word.testBit 31 = true) ∧ (future32 (s.base.get (Reg.actTarget_NS n)) s.base.now = false) ∧ ((s.applied (Reg.actCtrl n) a).word.testBit 30 = true)) ∧
  (∃ (s : State) (n : Fin 4) (a : RegWr),
    (s.accepts (Reg.actCtrl n) a = true) ∧ ((s.applied (Reg.actCtrl n) a).word.testBit 31 = false)) :=
  ⟨⟨(sets up [(Reg.actTarget_NS 3, 0x7FFFFFFF)]), 3, (wr 0x80000000), by decide +kernel⟩,
  ⟨(sets up [(Reg.actTarget_NS 3, 0x80000000)]), 3, (wr 0x80000000), by decide +kernel⟩,
  ⟨(sets up [(Reg.actTarget_NS 3, 0x80000000)]), 3, (wr 0xC0000000), by decide +kernel⟩,
  ⟨up, 3, (wr 0), by decide +kernel⟩⟩

/-- Every hypothesis of `Obligations.TimersFireWithTheirAction` is met: a timer that drives nothing, and a pulse on ball 15. -/
theorem wit_TimersFireWithTheirAction :
  (∃ (s : State) (n : Fin 4) (x : ActTimer),
    (s.timer n = some x) ∧ (x.due ≤ s.base.E) ∧ (s.base.get (Reg.actPeriod_NS n) = 0) ∧ (s.timerDrives n = false)) ∧
  (∃ (s : State) (n : Fin 4) (x : ActTimer),
    (s.timer n = some x) ∧ (x.due ≤ s.base.E) ∧ (s.timerDrives n = true) ∧ (s.base.get (Reg.actCtrl_ACTION n) = 3)) ∧
  (∃ (s : State) (n : Fin 4) (p : ActPulse),
    (sget (fun _ => none) s.sxt.pulses n = some p) ∧ (p.till ≤ s.base.ticks) ∧ (p.gpio < 16)) :=
  ⟨⟨{ up with sxt := { up.sxt with timers := [(3, some ⟨0, 0⟩)] } }, 3, ⟨0, 0⟩, by decide +kernel⟩,
  ⟨{ (sets up [(⟨Reg.gpioCfg 15, 1, 0⟩, 2), (Reg.actCtrl_GPIO 3, 15), (Reg.actCtrl_ACTION 3, 3), (Reg.actCtrl_WIDTH 3, 1)]) with sxt := { up.sxt with timers := [(3, some ⟨0, 0⟩)] } }, 3, ⟨0, 0⟩, by decide +kernel⟩,
  ⟨{ up with sxt := { up.sxt with pulses := [(3, some ⟨15, 0, true⟩)] } }, 3, ⟨15, 0, true⟩, by decide +kernel⟩⟩

/-- Every hypothesis of `Obligations.CapturesAndBallsAct` is met. -/
theorem wit_CapturesAndBallsAct :
  (∃ (s : State) (m : Fin 2) (rising : Bool),
    (s.base.flag (Reg.capCtrl_EN m) = true) ∧ ((s.base.get (Reg.capCtrl_EDGE m)).testBit (if rising then 0 else 1) = true)) ∧
  (∃ (s : State) (m : Fin 2) (rising : Bool),
    s.base.flag (Reg.capCtrl_EN m) = false ∨ (s.base.get (Reg.capCtrl_EDGE m)).testBit (if rising then 0 else 1) = false) ∧
  (∃ (s : State) (n : Fin 16) (a : RegWr),
    (s.accepts (Reg.gpioCfg n) a = true) ∧ ((s.applied (Reg.gpioCfg n) a).word % 4 = 1)) ∧
  (∃ (s : State) (n : Fin 16) (a : RegWr),
    (s.accepts (Reg.gpioCfg n) a = true) ∧ (2 ≤ (s.applied (Reg.gpioCfg n) a).word % 4) ∧ ((s.base.word (Reg.gpioCfg n)).toNat % 4 ≠ (s.applied (Reg.gpioCfg n) a).word % 4)) ∧
  (∃ (s : State) (n : Fin 16) (a : RegWr),
    (s.accepts (Reg.gpioCfg n) a = true) ∧ ((s.applied (Reg.gpioCfg n) a).word % 4 = 0)) :=
  ⟨⟨(sets up [(Reg.capCtrl_EN 1, 1), (Reg.capCtrl_EDGE 1, 1)]), 1, true, by decide +kernel⟩,
  ⟨up, 1, false, by decide +kernel⟩,
  ⟨up, 15, (wr 1), by decide +kernel⟩,
  ⟨up, 15, (wr 3), by decide +kernel⟩,
  ⟨up, 15, (wr 0), by decide +kernel⟩⟩

/-- Every hypothesis of `Obligations.OffsetsAreSlewedOrLoaded` is met. -/
theorem wit_OffsetsAreSlewedOrLoaded :
  (∃ (s : State) (offsets : List Int) (o : Int),
    (s.mayLock = true) ∧ (offsets.getLast? = some o) ∧ (s.base.get Reg.sxtServo_LOCK_NS < o.natAbs) ∧ (s.base.flag Reg.sxtStatus_LOCKED_ONCE = true) ∧ (s.base.flag Reg.sxtServo_STEP_EN = false)) ∧
  (∃ (s : State) (offsets : List Int) (o : Int),
    (s.mayLock = true) ∧ (offsets.getLast? = some o) ∧ (s.base.get Reg.sxtServo_LOCK_NS < o.natAbs) ∧ (s.base.flag Reg.sxtStatus_LOCKED_ONCE = false ∧ 1000000 < o.natAbs)) ∧
  (∃ (s : State) (offsets : List Int) (o : Int),
    (s.mayLock = true) ∧ (offsets.getLast? = some o) ∧ (s.base.get Reg.sxtServo_LOCK_NS < o.natAbs) ∧ (s.base.flag Reg.sxtStatus_LOCKED_ONCE = true) ∧ (s.base.flag Reg.sxtServo_STEP_EN = true) ∧ (16 ≤ offsets.length) ∧ (∀ x ∈ offsets.drop (offsets.length - 16), s.base.get Reg.sxtServo_STEP_MS * 1000000 ≤ x.natAbs)) :=
  ⟨⟨(sets up [(Reg.ethStatus_HELM, 1), (Reg.ethStatus_LINK, 1), (Reg.sxtStatus_LOCKED_ONCE, 1)]), (List.replicate 16 (-101)), -101, by decide +kernel⟩,
  ⟨(sets up [(Reg.ethStatus_HELM, 1), (Reg.ethStatus_LINK, 1)]), (List.replicate 16 1000001), 1000001, by decide +kernel⟩,
  ⟨(sets up [(Reg.ethStatus_HELM, 1), (Reg.ethStatus_LINK, 1), (Reg.sxtStatus_LOCKED_ONCE, 1), (Reg.sxtServo_STEP_EN, 1)]), (List.replicate 16 1000000), 1000000, by decide +kernel⟩⟩

/-- Every hypothesis of `Obligations.TheTimePortLinksAndCarriesFrames` is met. -/
theorem wit_TheTimePortLinksAndCarriesFrames :
  (∃ (s : State) (a : RegWr),
    (s.asksEnable pgETH a true = true)) ∧
  (∃ (s : State) (a : RegWr),
    (s.asksEnable pgETH a false = true)) ∧
  (∃ (s : State) (a : RegWr),
    (s.asksReset pgSXT a = true) ∧ (s.base.enabled pgETH = true)) ∧
  (∃ (s : State),
    (s.base.enabled pgETH = true) ∧ (s.base.flag Reg.ethStatus_LINK = false) ∧ (s.asks ridTime 0 = false)) ∧
  (∃ (s : State),
    (s.base.flag Reg.ethStatus_LINK = true)) ∧
  (∃ (s : State) (f : List Byte) (mac : Timestamp) (p : Nat) (udp : Bool),
    (s.base.flag Reg.ethStatus_LINK = true) ∧ (s.base.flag Reg.ethStatus_HELM = true) ∧ (s.base.ptpPlace f = some (p, udp)) ∧ (leAt f (p + 4) 1 = s.base.get Reg.ethPtp_DOMAIN)) ∧
  (∃ (s : State) (f : List Byte) (ok : Bool),
    (s.base.flag Reg.ethStatus_LINK = true) ∧ (ok = false)) ∧
  (∃ (s : State) (f : List Byte) (ok : Bool),
    (s.base.flag Reg.ethStatus_LINK = true) ∧ (ok = true) ∧ (s.base.flag Reg.ethStatus_HELM = false)) ∧
  (∃ (s : State) (f : List Byte) (ok : Bool),
    (s.base.flag Reg.ethStatus_LINK = true) ∧ (ok = true) ∧ (s.base.flag Reg.ethStatus_HELM = true) ∧ (s.base.ptpPlace f = none) ∧ (s.base.wallPlace f = none)) ∧
  (∃ (s : State) (f : List Byte) (p : Nat),
    (s.base.flag Reg.ethStatus_LINK = true) ∧ (s.base.flag Reg.ethStatus_HELM = true) ∧ (s.base.ptpPlace f = none) ∧ (s.base.wallPlace f = some p) ∧ (46 ≤ (f.drop p).length) ∧ (beAt (f.drop p) 0 4 = 0x4F535753) ∧ (leAt (f.drop p) 4 1 = 1) ∧ (leAt (f.drop p) 40 6 = 0) ∧ (leAt (f.drop p) 33 1 / 8 = 0) ∧ (leAt (f.drop p) 34 2 / 4 = 0)) ∧
  (∃ (s : State) (f : List Byte) (base mac : Timestamp) (p : Nat) (udp : Bool),
    (s.base.flag Reg.ethStatus_LINK = true) ∧ (s.base.flag Reg.ethStatus_HELM = true) ∧ (s.base.enabled pgETH = true) ∧ (s.base.ptpPlace f = some (p, udp)) ∧ (s.base.nhosts ≤ 4)) :=
  ⟨⟨(sets up [(⟨hdr pgETH 0x20, 0, 0⟩, 0)]), (wr 0x101), by decide +kernel⟩,
  ⟨(sets up [(⟨hdr pgETH 0x20, 0, 0⟩, 1)]), (wr 0x100), by decide +kernel⟩,
  ⟨(sets (sets up [(⟨hdr pgETH 0x20, 0, 0⟩, 1)]) [(⟨hdr pgSXT 0x20, 0, 0⟩, 1)]), (wr 0x103), by decide +kernel⟩,
  ⟨(sets up [(⟨hdr pgETH 0x20, 0, 0⟩, 1)]), by decide +kernel⟩,
  ⟨(sets up [(Reg.ethStatus_LINK, 1)]), by decide +kernel⟩,
  ⟨(sets up [(Reg.ethStatus_LINK, 1), (Reg.ethStatus_HELM, 1)]), ptpFrame, ⟨0, 0⟩, 14, false, by decide +kernel⟩,
  ⟨(sets up [(Reg.ethStatus_LINK, 1)]), [], false, by decide +kernel⟩,
  ⟨(sets up [(Reg.ethStatus_LINK, 1)]), [], true, by decide +kernel⟩,
  ⟨(sets up [(Reg.ethStatus_LINK, 1), (Reg.ethStatus_HELM, 1)]), [], true, by decide +kernel⟩,
  ⟨(sets up [(Reg.ethStatus_LINK, 1), (Reg.ethStatus_HELM, 1)]), wallFrame, 14, by decide +kernel⟩,
  ⟨(sets (sets up [(Reg.ethStatus_LINK, 1), (Reg.ethStatus_HELM, 1)]) [(⟨hdr pgETH 0x20, 0, 0⟩, 1)]), ptpFrame, ⟨0, 0⟩, ⟨0, 0⟩, 14, false, by decide +kernel⟩⟩

/-- Every hypothesis of `Obligations.PairMessagesInOrderAreTaken` is met. -/
theorem wit_PairMessagesInOrderAreTaken :
  (∃ (s : State) (m : List Byte),
    (s.inOrder m 0x10 = true)) ∧
  (∃ (s : State) (m : List Byte) (o : Nat × Nat × Bool),
    (s.inOrder m 0x11 = true) ∧ (s.par.own.find? (fun e => e.1 == leAt m 4 4) = some o) ∧ (o.2.2 = false) ∧ ((leAt m 12 1).testBit 0 = false) ∧ (s.base.flag Reg.parStatus_LOCK = true) ∧ (s.base.nhosts ≤ 4) ∧ (o.2.1 ≠ leAt m 8 4)) ∧
  (∃ (s : State) (m : List Byte),
    (s.inOrder m 0x13 = true)) :=
  ⟨⟨{ up with par := { up.par with up := true } }, (pairMsg [0x10]), by decide +kernel⟩,
  ⟨{ (sets up [(Reg.parStatus_LOCK, 1)]) with par := { up.par with up := true, own := [(0, 9, false)] } }, (pairMsg [0x11]), (0, 9, false), by decide +kernel⟩,
  ⟨{ up with par := { up.par with up := true } }, (pairMsg [0x13]), by decide +kernel⟩⟩

/-- Every hypothesis of `Obligations.RoleMessagesAreTaken` is met. -/
theorem wit_RoleMessagesAreTaken :
  (∃ (s : State) (m : List Byte),
    (s.inOrder m 0x12 = true) ∧ (leAt m 4 1 = 0) ∧ (s.role = 2)) ∧
  (∃ (s : State) (m : List Byte),
    (s.inOrder m 0x12 = true) ∧ (leAt m 4 1 = 1) ∧ (s.parState = parSYNC) ∧ (s.base.flag Reg.parStatus_LOCK = true) ∧ (s.par.replay.length < 256)) ∧
  (∃ (s : State) (m : List Byte) (w : RoleSwap),
    (s.inOrder m 0x12 = true) ∧ (leAt m 4 1 = 2) ∧ (s.par.swap = some w) ∧ (w.j = leAt m 8 4)) ∧
  (∃ (s : State) (m : List Byte),
    (s.inOrder m 0x14 = true) ∧ (s.role = 2) ∧ (s.okBits = 7) ∧ (s.base.nhosts ≤ 4)) :=
  ⟨⟨{ (sets up [(Reg.parStatus_ROLE, 2)]) with par := { up.par with up := true } }, (pairMsg [0x12]), by decide +kernel⟩,
  ⟨{ (sets up [(Reg.parStatus_STATE, parSYNC), (Reg.parStatus_LOCK, 1)]) with par := { up.par with up := true } }, (pairMsg [0x12, 0, 0, 0, 1]), by decide +kernel⟩,
  ⟨{ up with par := { up.par with up := true, swap := some ⟨9, false⟩ } }, (pairMsg [0x12, 0, 0, 0, 2, 0, 0, 0, 9]), ⟨9, false⟩, by decide +kernel⟩,
  ⟨{ (port 1 { Port.off with phase := .service } (sets up [(Reg.parStatus_ROLE, 2)])) with par := { up.par with up := true } }, (pairMsg [0x14]), by decide +kernel⟩⟩

/-- Every hypothesis of `Obligations.LinkControlBlocksAreTaken` is met; the ACK covers a HELLO. -/
theorem wit_LinkControlBlocksAreTaken :
  (∃ (s : State) (m : List Byte) (q e : Nat),
    (s.pairCtlOk m 0x01 = true) ∧ (s.par.hello = some (q, e)) ∧ ((s.par.replay.take (s.par.replay.findIdx (fun r => r.seq == leAt m 2 2) + 1)).any (fun r => r.seq == q) = true)) ∧
  (∃ (s : State) (m : List Byte),
    (s.pairCtlOk m 0x02 = true)) ∧
  (∃ (s : State) (m : List Byte),
    (s.pairCtlOk m 0x03 = true) ∧ (s.parState ≠ 0)) ∧
  (∃ (s : State) (m : List Byte) (msg : Bool),
    (s.par.up = true) ∧ (s.pairBad msg m = true)) :=
  ⟨⟨{ up with par := { up.par with up := true, replay := [⟨0, [], 0⟩], hello := some (0, 0) } }, (pairMsg [1]), 0, 0, by decide +kernel⟩,
  ⟨{ up with par := { up.par with up := true, replay := [⟨0, [], 0⟩] } }, (pairMsg [2]), by decide +kernel⟩,
  ⟨{ (sets up [(Reg.parStatus_STATE, parSYNC)]) with par := { up.par with up := true } }, (pairMsg [3, 0, 0, 0, 15]), by decide +kernel⟩,
  ⟨{ up with par := { up.par with up := true } }, (pairMsg [0x13]), false, by decide +kernel⟩⟩

/-- Every hypothesis of `Obligations.ThePairIsSwitchedResetAndWatched` is met. -/
theorem wit_ThePairIsSwitchedResetAndWatched :
  (∃ (s : State) (a : RegWr),
    (s.asksEnable pgPAR a true = true)) ∧
  (∃ (s : State) (a : RegWr),
    (s.asksEnable pgPAR a false = true)) ∧
  (∃ (s : State) (cause : Fin 3),
    (s.par.up = true) ∧ (s.base.nhosts ≤ 4) ∧ ((cause = 0 → 16 ≤ (s.par.viols.filter (fun t => decide (s.base.ticks < t + 625000))).length)) ∧ ((cause = 1 → s.par.replay.any (fun r => decide (8 ≤ r.again)) = true)) ∧ ((cause = 2 → ∃ n, s.par.noLane = some n ∧ n + 62500 ≤ s.base.ticks))) ∧
  (∃ (s : State),
    (s.parState ≠ 0) ∧ (s.role = 2) ∧ (s.sco.running = true) ∧ (s.par.judged = false) ∧ (s.par.hbJ ≠ some s.j) ∧ (s.sco.startAt + ((s.base.get Reg.parHb_HB_WAIT * 1000 : Nat) : Int) ≤ (s.base.E : Int)) ∧ (s.base.flag Reg.parCtrl_ALIVE_EN = false) ∧ (s.base.nhosts ≤ 4)) ∧
  (∃ (s : State) (level : Bool),
    (s.base.flag Reg.parCtrl_ALIVE_EN = true)) ∧
  (∃ (s : State) (a : RegWr),
    (s.accepts Reg.parCmd a = true) ∧ ((s.applied Reg.parCmd a).act.testBit 0 = true) ∧ (s.par.up = true)) :=
  ⟨⟨(sets up [(⟨hdr pgPAR 0x20, 0, 0⟩, 0)]), (wr 0x101), by decide +kernel⟩,
  ⟨(sets up [(⟨hdr pgPAR 0x20, 0, 0⟩, 1)]), (wr 0x100), by decide +kernel⟩,
  ⟨{ up with par := { up.par with up := true, viols := List.replicate 16 1000000000000 } }, 0, by decide +kernel, by decide +kernel, by decide +kernel, by decide +kernel, by intro h; exact absurd h (by decide)⟩,
  ⟨{ (sco { up.sco with running := true } (sets late [(Reg.parStatus_STATE, parSYNC), (Reg.parStatus_ROLE, 2)])) with par := { up.par with hbJ := none } }, by decide +kernel⟩,
  ⟨(sets up [(Reg.parCtrl_ALIVE_EN, 1)]), false, by decide +kernel⟩,
  ⟨{ up with par := { up.par with up := true } }, (wr 1), by decide +kernel⟩⟩

/-- Every hypothesis of `Obligations.LinksComeUpAndAreReset` is met. -/
theorem wit_LinksComeUpAndAreReset :
  (∃ (s : State) (h : Fin 4),
    ((h : Nat) < s.base.nhosts) ∧ ((s.base.link h).up = true)) ∧
  (∃ (s : State) (h : Fin 4) (a : RegWr),
    (s.asksReset (pgHST h) a = true)) ∧
  (∃ (s : State) (h : Fin 4),
    ((s.base.link h).resetAt.isSome = true)) ∧
  (∃ (s : State) (h : Fin 4) (speed : Fin 8) (width : Fin 17) (flit : Bool),
    ((s.base.link h).up = false) ∧ ((h : Nat) < s.base.nhosts) ∧ (7 ≤ s.base.get Reg.rstStep_STEP) ∧ (s.base.ownState (pgHST h) ≠ uNOCLOCK)) ∧
  (∃ (s : State) (h : Fin 4) (txnPage : Bool) (a : RegWr),
    (s.asksReset (if txnPage then pgTXN h else pgCMD h) a = true)) ∧
  (∃ (s : State) (h : Fin 4) (a : RegWr) (on : Bool),
    (s.asksEnable (pgCMD h) a on = true)) :=
  ⟨⟨up, 0, by decide +kernel⟩,
  ⟨(sets up [(⟨hdr (pgHST 0) 0x20, 0, 0⟩, 1)]), 0, (wr 0x103), by decide +kernel⟩,
  ⟨{ up with base := { up.base with links := [(0, ⟨true, false, true, true, [], [], some 0⟩)] } }, 0, by decide +kernel⟩,
  ⟨{ up with base := { up.base with links := [] } }, 0, 7, 16, true, by decide +kernel⟩,
  ⟨(sets up [(⟨hdr (pgTXN 0) 0x20, 0, 0⟩, 1)]), 0, true, (wr 0x103), by decide +kernel⟩,
  ⟨(sets up [(⟨hdr (pgCMD 0) 0x20, 0, 0⟩, 0)]), 0, (wr 0x101), true, by decide +kernel⟩⟩

/-- Every hypothesis of `Obligations.Bar2AndLinkErrorsAreAnswered` is met. -/
theorem wit_Bar2AndLinkErrorsAreAnswered :
  (∃ (s : State) (h : Fin 4) (off : BitVec 28) (len : Nat) (ecc : Ecc),
    (s.windowObject h (off.toNat / 2 ^ 25 % 8) = none)) ∧
  (∃ (s : State) (h : Fin 4) (off : BitVec 28) (len : Nat) (ecc : Ecc) (gs : List Nat) (size : Nat) (wr : Bool),
    (s.windowObject h (off.toNat / 2 ^ 25 % 8) = some (gs, size, wr)) ∧ (s.windowOff h off.toNat + len ≤ size) ∧ ((granRange gs (s.windowOff h off.toNat) len).filter isSpillId = [])) ∧
  (∃ (s : State) (h : Fin 4) (off : BitVec 28) (data : List Byte) (gs : List Nat) (size : Nat),
    (s.windowObject h (off.toNat / 2 ^ 25 % 8) = some (gs, size, true)) ∧ (s.windowOff h off.toNat + data.length ≤ size) ∧ ((granRange gs (s.windowOff h off.toNat) data.length).filter isSpillId = [])) ∧
  (∃ (s : State) (h : Fin 4) (off : BitVec 28) (data : List Byte) (poisoned : Bool),
    ((s.windowObject h (off.toNat / 2 ^ 25 % 8)).all (fun o => !o.2.2 || decide (o.2.1 < s.windowOff h off.toNat + data.length)) = true)) ∧
  (∃ (s : State) (h : Fin 4) (e : LinkError) (aer : Byte) (header : List Byte),
    ((h : Nat) < s.base.nhosts)) ∧
  (∃ (s : State) (h : Fin 4) (r : Fin 16),
    ((s.base.link h).up = true)) ∧
  (∃ (s : State) (h : Fin 4) (r : Fin 16) (n : BitVec 32),
    ((s.base.link h).up = true)) ∧
  (∃ (s : State) (h : Fin 4) (g : Nat),
    ((s.base.link h).up = true) ∧ (g / 2 ^ 21 = (h : Nat) + 1)) ∧
  (∃ (s : State) (h : Fin 4) (who : Requester),
    ((s.base.link h).up = true) ∧ ((h : Nat) < s.base.nhosts) ∧ (who = .readback ∨ who = .log)) :=
  ⟨⟨up, 0, 0xFFFFFFF, 1, ⟨[], []⟩, by decide +kernel⟩,
  ⟨{ (sets up [(Reg.domWinObj_KIND 0 7, 3), (Reg.domWinObj_HANDLE 0 7, 65535)]) with scenes := (scene (desc 0 3 []) [] tx0).scenes, dome := (uploads [(65535, some ⟨3, 65536, [5]⟩)] up).dome }, 0, 0xE00FFFF, 1, ⟨[], []⟩, [5], 65536, true, by decide +kernel⟩,
  ⟨{ (sets up [(Reg.domWinObj_KIND 0 7, 3), (Reg.domWinObj_HANDLE 0 7, 65535)]) with scenes := (scene (desc 0 3 []) [] tx0).scenes, dome := (uploads [(65535, some ⟨3, 65536, [5]⟩)] up).dome }, 0, 0xE00FFFF, [7], [5], 65536, by decide +kernel⟩,
  ⟨{ (sets up [(Reg.domWinObj_KIND 0 7, 3), (Reg.domWinObj_HANDLE 0 7, 65535)]) with scenes := (scene (desc 0 3 []) [] tx0).scenes, dome := (uploads [(65535, some ⟨3, 65536, [5]⟩)] up).dome }, 0, 0xE00FFFF, [7, 7], false, by decide +kernel⟩,
  ⟨up, 0, .malformed, 3, [], by decide +kernel⟩,
  ⟨up, 0, 15, by decide +kernel⟩,
  ⟨up, 0, 15, 0, by decide +kernel⟩,
  ⟨up, 0, 2 ^ 21, by decide +kernel⟩,
  ⟨up, 0, .log, by decide +kernel⟩⟩

/-- Every hypothesis of `Obligations.MasteringInterruptsAndLogsWork` is met. -/
theorem wit_MasteringInterruptsAndLogsWork :
  (∃ (s : State) (h : Fin 4),
    ((s.base.link h).up = true)) ∧
  (∃ (s : State) (h : Fin 4) (vec : BitVec 8),
    ((s.base.link h).up = true)) ∧
  (∃ (s : State) (h : Fin 4) (viol : Bool) (e : LogEntry) (r : List LogEntry) (i : Nat),
    (i = 2 * (h : Nat) + (if viol then 1 else 0)) ∧ ((s.base.logq i).waiting = e :: r) ∧ (s.base.logEn i = true) ∧ (s.base.canSend h = true) ∧ (sub32 (s.base.get (logWr i)) (s.base.get (logRd i)) < 2 ^ s.base.get (logLog2 i))) ∧
  (∃ (s : State) (h : Fin 4) (viol : Bool) (a : RegWr) (i key : Nat),
    (i = 2 * (h : Nat) + (if viol then 1 else 0)) ∧ (key = (if viol then Reg.hstVlogCtrl h else Reg.hstFlogCtrl h)) ∧ (s.accepts key a = true) ∧ ((s.base.word key).toNat.testBit 31 = false) ∧ ((s.applied key a).word.testBit 31 = true)) ∧
  (∃ (s : State) (h : Fin 4) (w : Fin 8) (a : RegWr),
    (s.accepts (Reg.domWinObj h w) a = true) ∧ (s.mayName h (mergeBytes (s.base.word (Reg.domWinObj h w)).toNat a.val.toNat a.be) = true)) ∧
  (∃ (s : State) (h : Fin 4) (w : Fin 8) (a : RegWr),
    (s.accepts (Reg.domWinObj h w) a = true) ∧ (s.mayName h (mergeBytes (s.base.word (Reg.domWinObj h w)).toNat a.val.toNat a.be) = false)) :=
  ⟨⟨up, 0, by decide +kernel⟩,
  ⟨up, 0, 255, by decide +kernel⟩,
  ⟨{ (sets up [(Reg.hstVlogCtrl_EN 0, 1)]) with base := { (sets up [(Reg.hstVlogCtrl_EN 0, 1)]).base with logs := [(1, ⟨[⟨0, 3, 1, 2, 0, []⟩], 1⟩)] } }, 0, true, ⟨0, 3, 1, 2, 0, []⟩, [], 1, by decide +kernel⟩,
  ⟨up, 0, true, (wr 0x80000007), 1, (Reg.hstVlogCtrl 0), by decide +kernel⟩,
  ⟨(uploads [(255, some ⟨3, 16, [5]⟩)] up), 0, 7, (wr 0xC0FF00FF), by decide +kernel⟩,
  ⟨{ up with base := { up.base with nhosts := 2, owner := 1 } }, 0, 7, (wr 0xD0000000), by decide +kernel⟩⟩

/-- Every hypothesis of `Obligations.RailsWarnRecoverAndFault` is met. -/
theorem wit_RailsWarnRecoverAndFault :
  (∃ (s : State) (r : Fin 8) (m1 m2 : BitVec 16),
    (m1.toNat ≤ railWarnLevel r) ∧ (m2.toNat ≤ railWarnLevel r) ∧ (s.inWarning r = false)) ∧
  (∃ (s : State) (r : Fin 8) (m1 m2 : BitVec 16),
    (railWarnLevel r < m1.toNat) ∧ (railWarnLevel r < m2.toNat) ∧ (s.inWarning r = true)) ∧
  (∃ (s : State) (n : Nat),
    (s.pwr.holdoff = some n) ∧ (n ≤ s.base.ticks)) ∧
  (∃ (s : State) (r : Fin 8) (mv : BitVec 16),
    (railOvLevel r ≤ mv.toNat) ∧ (s.base.ownState pgPWR ≠ uNOCLOCK)) ∧
  (∃ (s : State) (r : Fin 8) (mv : BitVec 16),
    (mv.toNat < railOvLevel r) ∧ (s.pwr.ovs.contains r = true) ∧ (s.base.ownState pgPWR ≠ uNOCLOCK)) ∧
  (∃ (s : State) (mv : BitVec 16),
    (s.pwr.held = false) ∧ (s.pwr.dark = none)) ∧
  (∃ (s : State) (a : RegWr),
    (s.accepts Reg.pwrCtrl a = true) ∧ ((s.applied Reg.pwrCtrl a).act.testBit 0 = true)) :=
  ⟨⟨up, 7, 807, 807, by decide +kernel⟩,
  ⟨(sets up [(Reg.pwrStatus_RAILS, 0x80)]), 7, 808, 808, by decide +kernel⟩,
  ⟨(pwr { up.pwr with holdoff := some 5 } up), 5, by decide +kernel⟩,
  ⟨up, 7, 892, by decide +kernel⟩,
  ⟨(pwr { up.pwr with ovs := [7] } up), 7, 891, by decide +kernel⟩,
  ⟨up, 0, by decide +kernel⟩,
  ⟨up, (wr 1), by decide +kernel⟩⟩

/-- Every hypothesis of `Obligations.TheDarkSequenceStartsAndEnds` is met (clauses 1 to 4). -/
theorem wit_TheDarkSequenceStartsAndEnds :
  (∃ (s : State) (r : Fin 8) (m1 m2 m3 m4 : BitVec 16),
    (s.pwr.dark = none) ∧ (s.pwr.held = false) ∧ ((∀ m ∈ [m1, m2, m3, m4], m.toNat ≤ railResetAt r))) ∧
  (∃ (s : State) (m1 m2 : BitVec 16),
    (s.pwr.dark = none) ∧ (s.pwr.held = false) ∧ (m1.toNat ≤ 10800) ∧ (m2.toNat ≤ 10800)) ∧
  (∃ (s : State),
    (s.pwr.dark = none) ∧ (s.pwr.held = false) ∧ (s.base.flag Reg.clkStatus_REF_OK = true)) ∧
  (∃ (s : State),
    (s.pwr.dark = none) ∧ (s.pwr.held = false)) :=
  ⟨⟨up, 7, 765, 765, 765, 765, by decide +kernel, by decide +kernel, fun m hm => by (simp only [List.mem_cons, List.not_mem_nil, or_false, or_self] at hm); subst hm; decide +kernel⟩,
  ⟨up, 10800, 10800, by decide +kernel⟩,
  ⟨(sets up [(Reg.clkStatus_REF_OK, 1)]), by decide +kernel⟩,
  ⟨up, by decide +kernel⟩⟩

/-- Every hypothesis of `Obligations.TheDarkSequenceStartsAndEnds` is met (clauses 5 to 6). -/
theorem wit_TheDarkSequenceStartsAndEnds_2 :
  (∃ (s : State),
    (s.base.flag Reg.clkStatus_REF_OK = true) ∧ (s.pwr.held = true)) ∧
  (∃ (s : State) (d : Dark),
    (s.pwr.dark = some d) ∧ (d.at_ + 156250 ≤ s.base.ticks)) :=
  ⟨⟨(pwr State.reset.pwr (sets up [(Reg.clkStatus_REF_OK, 1)])), by decide +kernel⟩,
  ⟨(pwr { up.pwr with dark := some ⟨0, some 1, 0⟩ } up), ⟨0, some 1, 0⟩, by decide +kernel⟩⟩

/-- Every hypothesis of `Obligations.TheReleaseStepsAndClocksAreFollowed` is met (clauses 1 to 4). -/
theorem wit_TheReleaseStepsAndClocksAreFollowed :
  (∃ (s : State) (bifurStrap sbAddr : BitVec 2),
    (s.pwr.held = true) ∧ (s.pwr.dark = none) ∧ (s.base.flag Reg.thmLatch_LATCH = false) ∧ (s.pwr.por = true) ∧ (s.pwr.resetN = true) ∧ (s.pwr.pwrfail = true) ∧ (s.pwr.goodAt + 6250000 ≤ s.base.ticks)) ∧
  (∃ (s : State) (good : BitVec 214) (k : Nat),
    (k = s.base.get Reg.rstStep_STEP + 1) ∧ (k ≤ 8) ∧ (s.pwr.held = false) ∧ (s.pwr.dark = none) ∧ (s.base.flag Reg.rstStep_HALTED = false) ∧ (s.pwr.stepAt + 4 * stepGap k ≤ s.base.ticks) ∧ ((∀ u ∈ s.stepUnits k, ∀ d ∈ u.2, good.toNat.testBit d = true ∨ s.pwr.noclk.contains d = true))) ∧
  (∃ (s : State) (page : BitVec 10) (dom : BitVec 8) (k : Nat),
    (k = s.base.get Reg.rstStep_STEP + 1) ∧ (2 ≤ k) ∧ (k ≤ 8) ∧ (s.pwr.held = false) ∧ (s.pwr.dark = none) ∧ (s.base.flag Reg.rstStep_HALTED = false) ∧ (s.pwr.stepAt + 4 * (stepGap k + stepTimeout k) ≤ s.base.ticks) ∧ (s.pwr.noclk.contains dom.toNat = false) ∧ (((s.stepUnits k).any (fun u => u.1 == page.toNat && u.2.contains dom.toNat)) = true)) ∧
  (∃ (s : State) (n : Nat),
    (s.pwr.outAt = some n) ∧ (n ≤ s.base.ticks) ∧ (s.pwr.held = false) ∧ (s.pwr.dark = none)) :=
  ⟨⟨(pwr { State.reset.pwr with por := true } up), 3, 3, by decide +kernel⟩,
  ⟨(sets up [(Reg.rstStep_STEP, 7)]), (BitVec.allOnes 214), 8, by decide +kernel⟩,
  ⟨(sets up [(Reg.rstStep_STEP, 1)]), 2, 8, 2, by decide +kernel⟩,
  ⟨(pwr { up.pwr with outAt := some 5 } up), 5, by decide +kernel⟩⟩

/-- Every hypothesis of `Obligations.TheReleaseStepsAndClocksAreFollowed` is met (clauses 5 to 8). -/
theorem wit_TheReleaseStepsAndClocksAreFollowed_2 :
  (∃ (s : State) (dom : BitVec 8),
    (s.base.flag (clkGoodBit dom.toNat) = false)) ∧
  (∃ (s : State) (dom : BitVec 8) (p : Nat),
    (s.base.flag (clkGoodBit dom.toNat) = true) ∧ (s.domainPage dom.toNat = some p) ∧ (p ∈ [pgSCO, pgCMP, pgFRS, pgKEP, pgCDC, pgSPR, pgPRT 0, pgPRT 1, pgPAR, pgETH, pgBCN, pgBLF, pgCAL, pgWCH]) ∧ (s.base.ownState p ≠ uOFF) ∧ (s.base.ownState p ≠ uNOCLOCK) ∧ (s.base.ownState pgCLK ≠ uNOCLOCK)) ∧
  (∃ (s : State) (a : RegWr),
    (s.accepts Reg.clkMeasSel a = true)) ∧
  (∃ (s : State) (khz : BitVec 24) (n : Nat),
    (s.pwr.meas = some n) ∧ (n + 625000 ≤ s.base.ticks)) :=
  ⟨⟨up, 213, by decide +kernel⟩,
  ⟨(own pgSPR uBUSY (sets up [(clkGoodBit 10, 1)])), 10, pgSPR, by decide +kernel⟩,
  ⟨up, (wr 213), by decide +kernel⟩,
  ⟨(pwr { up.pwr with meas := some 0 } up), 1, 0, by decide +kernel⟩⟩

/-- Every hypothesis of `Obligations.WarmResetsAndTheWatchdog` is met. -/
theorem wit_WarmResetsAndTheWatchdog :
  (∃ (s : State),
    (s.pwr.held = false) ∧ (s.pwr.dark = none) ∧ (s.pwr.warm = none) ∧ (8 ≤ s.base.get Reg.rstStep_STEP) ∧ (s.pwr.warmN = true) ∧ (s.pwr.warmUp + 625 ≤ s.base.ticks)) ∧
  (∃ (s : State) (a : RegWr),
    (s.pwr.held = false) ∧ (s.pwr.dark = none) ∧ (s.pwr.warm = none) ∧ (8 ≤ s.base.get Reg.rstStep_STEP) ∧ (s.accepts Reg.rstCtrl a = true) ∧ ((s.applied Reg.rstCtrl a).act.testBit 0 = true) ∧ (a.host.toNat = s.base.owner)) ∧
  (∃ (s : State),
    (s.pwr.held = false) ∧ (s.pwr.dark = none) ∧ (s.pwr.warm = none) ∧ (8 ≤ s.base.get Reg.rstStep_STEP) ∧ (s.base.flag Reg.rstWdog_EN = true) ∧ (s.helmRuns = true) ∧ (s.pwr.wdogAt + s.base.get Reg.rstWdog_TIMEOUT * msTicks ≤ s.base.ticks) ∧ (s.warms10.length < 2)) ∧
  (∃ (s : State),
    (s.pwr.held = false) ∧ (s.pwr.dark = none) ∧ (s.pwr.warm = none) ∧ (8 ≤ s.base.get Reg.rstStep_STEP) ∧ (s.base.flag Reg.rstWdog_EN = true) ∧ (s.helmRuns = true) ∧ (s.pwr.wdogAt + s.base.get Reg.rstWdog_TIMEOUT * msTicks ≤ s.base.ticks) ∧ (2 ≤ s.warms10.length)) ∧
  (∃ (s : State) (a : RegWr),
    (s.accepts Reg.rstCtrl a = true) ∧ ((s.applied Reg.rstCtrl a).act.testBit 0 = true) ∧ (a.host.toNat ≠ s.base.owner)) ∧
  (∃ (s : State) (v : BitVec 32),
    (v.toNat % 65536 = 0x6B6B) ∧ (s.helmRuns = true)) ∧
  (∃ (s : State), s.base.ticks < s.pwr.warmUp + 625) ∧
  (∃ (s : State) (h : Fin 4) (v : BitVec 32),
    (s.base.visible h pgRST = true)) ∧
  (∃ (s : State) (n : Nat),
    (s.pwr.warm = some n) ∧ (n + 1024 ≤ s.base.ticks)) :=
  ⟨⟨up, by decide +kernel⟩,
  ⟨up, (wr 1), by decide +kernel⟩,
  ⟨(pwr { up.pwr with warms := [999999999999] } (sets up [(Reg.hlmStatus_STATE, 2), (Reg.rstWdog_EN, 1), (Reg.rstWdog_TIMEOUT, 1)])), by decide +kernel⟩,
  ⟨(pwr { up.pwr with warms := [999999999998, 999999999999] } (sets up [(Reg.hlmStatus_STATE, 2), (Reg.rstWdog_EN, 1), (Reg.rstWdog_TIMEOUT, 1)])), by decide +kernel⟩,
  ⟨{ (word (hdr pgRST 0x2C) 0xF up) with base := { (word (hdr pgRST 0x2C) 0xF up).base with nhosts := 2 } }, ⟨1, 1, 15⟩, by decide +kernel⟩,
  ⟨(sets up [(Reg.hlmStatus_STATE, 2)]), 0x6B6B, by decide +kernel⟩,
  ⟨(pwr { up.pwr with warmUp := 1000000000000 } up), by decide +kernel⟩,
  ⟨up, 0, 0, by decide +kernel⟩,
  ⟨(pwr { up.pwr with warm := some 0 } up), 0, by decide +kernel⟩⟩

/-- Every hypothesis of `Obligations.LeaveHeatAndCalibrationAreManaged` is met. -/
theorem wit_LeaveHeatAndCalibrationAreManaged :
  (∃ (s : State) (l : Leave) (q : List Leave),
    (s.adm.queue = l :: q) ∧ (s.blocked = false) ∧ (s.adm.inUse + l.units ≤ s.effective) ∧ (l.rid ∉ [28, 29, 30, 31, 33, 34, 35])) ∧
  (∃ (s : State) (l : Leave) (q : List Leave) (r : CalRun),
    (s.adm.queue = l :: q) ∧ (s.blocked = false) ∧ (s.adm.inUse + l.units ≤ s.effective) ∧ (l.rid = ridCal) ∧ (s.cal.run = some r)) ∧
  (∃ (s : State) (l : Leave) (q : List Leave),
    (s.adm.queue = l :: q) ∧ (s.blocked = true ∨ s.effective < s.adm.inUse + l.units)) ∧
  (∃ (s : State) (a : RegWr),
    (s.accepts Reg.admBudget a = true)) ∧
  (∃ (s : State) (stack : Bool) (a : RegWr),
    (s.accepts (if stack then Reg.thmThrStk else Reg.thmThrDie) a = true)) ∧
  (∃ (s : State) (samples : List Sample),
    (samples.length = 64) ∧ (s.pwr.held = false) ∧ (s.pwr.dark = none) ∧ ((∀ n, n < 64 → s.sensorFailed n = false ∧ ∃ v : BitVec 16, samples[n]? = some (.reading v) ∧ -640 ≤ toSigned 16 v.toNat ∧ toSigned 16 v.toNat < 1680))) ∧
  (∃ (s : State) (samples : List Sample) (z : Nat) (v : BitVec 16),
    (samples.length = 64) ∧ (s.pwr.held = false) ∧ (s.pwr.dark = none) ∧ (z < 32) ∧ (s.sensorFailed (2 * z) = false) ∧ (samples[2 * z]? = some (.reading v)) ∧ (shutdownAt z ≤ toSigned 16 v.toNat) ∧ (toSigned 16 v.toNat ≤ 2400) ∧ (2 ≤ sget (fun _ => 0) s.thm.shut z)) ∧
  (∃ (s : State) (a : RegWr) (retest : List Sample),
    (s.asksReset pgTHM a = true) ∧ (retest.length = 64)) ∧
  (∃ (s : State) (a : RegWr),
    (s.accepts Reg.calCtrl a = true) ∧ ((s.applied Reg.calCtrl a).act.testBit 31 = true) ∧ (a.host.toNat = s.base.owner) ∧ (s.cal.run = none) ∧ ((s.stored Reg.calCtrl a).base.get Reg.calCtrl_TARGETS ≠ 0)) ∧
  (∃ (s : State) (a : RegWr),
    (s.accepts Reg.calCtrl a = true) ∧ ((s.applied Reg.calCtrl a).act.testBit 31 = true) ∧ (a.host.toNat = s.base.owner) ∧ (s.cal.run = none) ∧ ((s.stored Reg.calCtrl a).base.get Reg.calCtrl_TARGETS = 0)) ∧
  (∃ (s : State) (m : CalResult) (r : CalRun) (n : Nat),
    (s.cal.run = some r) ∧ (r.granted = some n) ∧ (n + calTicks r.targets s.sco.rate ≤ s.base.ticks) ∧ (2000 < (toSigned 16 m.devPpm.toNat).natAbs)) ∧
  (∃ (s : State) (m : CalResult) (r : CalRun) (n : Nat),
    (s.cal.run = some r) ∧ (r.granted = some n) ∧ (n + calTicks r.targets s.sco.rate ≤ s.base.ticks) ∧ ((toSigned 16 m.devPpm.toNat).natAbs ≤ 2000) ∧ ((∀ x ∈ m.trims, -128 ≤ x.2.2 ∧ x.2.2 ≤ 127))) ∧
  (∃ (s : State) (a : RegWr),
    (s.asksReset pgCAL a = true) ∧ (s.cal.run.isSome = true)) :=
  ⟨⟨{ up with adm := ⟨[⟨0, 0, 0, 0⟩], []⟩ }, ⟨0, 0, 0, 0⟩, [], by decide +kernel⟩,
  ⟨{ up with adm := ⟨[⟨ridCal, 0, 0, 0⟩], []⟩, cal := ⟨some ⟨15, false, some 0⟩, [], [], [], 0⟩ }, ⟨ridCal, 0, 0, 0⟩, [], ⟨15, false, some 0⟩, by decide +kernel⟩,
  ⟨{ up with adm := ⟨[⟨0, 0, 1000000, 0⟩], []⟩ }, ⟨0, 0, 1000000, 0⟩, [], by decide +kernel⟩,
  ⟨up, (wr 24), by decide +kernel⟩,
  ⟨up, true, (wr 0x5F5A55), by decide +kernel⟩,
  ⟨up, (List.replicate 64 (.reading 0)), by decide +kernel, by decide +kernel, by decide +kernel, fun n hn => ⟨(by decide +kernel : ∀ m : Fin 64, up.sensorFailed m = false) ⟨n, hn⟩, 0, by rw [List.getElem?_replicate]; simp [hn], by decide, by decide⟩⟩,
  ⟨{ up with thm := { up.thm with shut := [(23, 2)] } }, (List.replicate 64 (.reading 2000)), 23, 2000, by decide +kernel⟩,
  ⟨(sets up [(⟨hdr pgTHM 0x20, 0, 0⟩, 1)]), (wr 0x103), (List.replicate 64 (.reading 0)), by decide +kernel⟩,
  ⟨up, (wr 0x8000000F), by decide +kernel⟩,
  ⟨up, (wr 0x80000000), by decide +kernel⟩,
  ⟨{ up with cal := ⟨some ⟨15, false, some 0⟩, [], [], [], 0⟩ }, ⟨2001, []⟩, ⟨15, false, some 0⟩, 0, by decide +kernel⟩,
  ⟨{ up with cal := ⟨some ⟨15, false, some 0⟩, [], [], [], 0⟩ }, ⟨2000, [(3, 0, 127), (3, 1, -128)]⟩, ⟨15, false, some 0⟩, 0, by decide +kernel⟩,
  ⟨{ (sets up [(⟨hdr pgCAL 0x20, 0, 0⟩, 1)]) with cal := ⟨some ⟨15, false, some 0⟩, [], [], [], 0⟩ }, (wr 0x103), by decide +kernel⟩⟩

/-- Every hypothesis of `Obligations.SceneMemoryIsCleanedScrubbedAndPaged` is met. -/
theorem wit_SceneMemoryIsCleanedScrubbedAndPaged :
  (∃ (s : State) (g : Nat),
    ((s.dome.gran g).st = .freeDirty)) ∧
  (∃ (s : State) (ecc : Ecc),
    (s.dome.spilling = false) ∧ (s.dome.freeCount < s.base.get Reg.domLow_LOW * 64) ∧ (s.spillOrder ≠ []) ∧ (s.holds ridPaging 0 = false)) ∧
  (∃ (s : State) (ecc : Ecc) (g k : Nat) (gs : List Nat),
    (s.dome.spilling = true) ∧ (s.holds ridPaging 0 = true) ∧ (s.spillOrder = g :: gs) ∧ (s.dome.freeCount < s.base.get Reg.domLow_HIGH * 64) ∧ (s.freeSlot (s.spillArea g) = some k)) ∧
  (∃ (s : State) (g : Nat) (reply : HostRead),
    (s.wanted g = true) ∧ (s.dome.gran g ≠ Granule.free0) ∧ (s.holds ridPaging 0 = false)) ∧
  (∃ (s : State) (ecc : Ecc),
    (s.base.get Reg.domScrub_PERIOD ≠ 0) ∧ (s.dome.scrubTick + scrubGap (s.base.get Reg.domScrub_PERIOD) ≤ s.base.ticks) ∧ (s.holds ridScrub 0 = false)) ∧
  (∃ (s : State) (ecc : Ecc),
    (s.base.get Reg.domScrub_PERIOD ≠ 0) ∧ (s.dome.scrubTick + scrubGap (s.base.get Reg.domScrub_PERIOD) ≤ s.base.ticks) ∧ (s.holds ridScrub 0 = true)) ∧
  (∃ (s : State) (ecc : Ecc) (r : Retirement) (p : Nat),
    (s.dome.retire.find? (fun q => !q.copied && s.holds ridRetire q.frame) = some r) ∧ (r.spare = some p)) ∧
  (∃ (s : State) (k : Fin 8),
    (s.dome.downStack.contains k = true)) ∧
  (∃ (s : State) (k : Fin 8),
    (s.dome.downStack.contains k = false) ∧ (s.base.ownState (pgSTK k) ≠ uNOCLOCK)) ∧
  (∃ (s : State) (page : BitVec 10) (a : RegWr),
    (0x020 ≤ page.toNat) ∧ (page.toNat ≤ 0x028) ∧ (s.asksReset page.toNat a = true)) :=
  ⟨⟨{ up with dome := { up.dome with grans := [(5, { Granule.free0 with st := .freeDirty })] } }, 5, by decide +kernel⟩,
  ⟨{ (sets up [(Reg.domSpillSize_SLOTS 0, 1), (Reg.domLow_LOW, 0x7FFF), (Reg.domLow_HIGH, 0xFFFF)]) with dome := { up.dome with grans := [(5, { Granule.free0 with st := .held, kind := 2 })] } }, ⟨[], []⟩, rfl, by decide +kernel, by rw [spillOrder_single _ 5 (by decide +kernel) (by decide +kernel)]; decide, by decide +kernel⟩,
  ⟨{ { (sets up [(Reg.domSpillSize_SLOTS 0, 1), (Reg.domLow_LOW, 0x7FFF), (Reg.domLow_HIGH, 0xFFFF)]) with dome := { up.dome with grans := [(5, { Granule.free0 with st := .held, kind := 2 })], spilling := true } } with adm := ⟨[], [⟨ridPaging, 0, 1, 0⟩]⟩ }, ⟨[80], [5 * 4096]⟩, 5, 0, [], rfl, by decide +kernel, spillOrder_single _ 5 (by decide +kernel) (by decide +kernel), by decide +kernel, by decide +kernel⟩,
  ⟨{ up with dome := { up.dome with grans := [((spillId 0 0), { Granule.free0 with st := .held, res := .resident })], want := [(spillId 0 0)] } }, (spillId 0 0), .fail 3, by decide +kernel⟩,
  ⟨{ up with dome := up.dome }, ⟨[], []⟩, by decide +kernel⟩,
  ⟨{ up with adm := ⟨[], [⟨ridScrub, 0, 1, 0⟩]⟩ }, ⟨[], []⟩, by decide +kernel⟩,
  ⟨{ { up with dome := { up.dome with retire := [⟨5, 0, 0, some 64512, [], false, []⟩] } } with adm := ⟨[], [⟨ridRetire, 5, 1, 0⟩]⟩ }, ⟨[], []⟩, ⟨5, 0, 0, some 64512, [], false, []⟩, 64512, by decide +kernel⟩,
  ⟨{ up with dome := { up.dome with downStack := [7] } }, 7, by decide +kernel⟩,
  ⟨up, 7, by decide +kernel⟩,
  ⟨(sets up [(⟨hdr 0x028 0x20, 0, 0⟩, 1)]), 0x028, (wr 0x103), by decide +kernel⟩⟩

/-- Every hypothesis of `Obligations.MailboxCommandsCompleteWithTheirEffects` is met. -/
theorem wit_MailboxCommandsCompleteWithTheirEffects :
  (∃ (s : State) (h : Fin 4) (a : RegWr),
    (s.mailbox h a 1 = true)) ∧
  (∃ (s : State) (h : Fin 4) (a : RegWr),
    (s.mailbox h a 2 = true)) ∧
  (∃ (s : State) (h : Fin 4) (m : List Byte),
    (sget (fun _ => 0) s.hlm.busy h = 2) ∧ (m.length = s.mbxArg h 2)) ∧
  (∃ (s : State) (h : Fin 4) (c : Fin 4),
    (sget (fun _ => 0) s.hlm.busy h = 2)) ∧
  (∃ (s : State) (h : Fin 4) (a : RegWr) (k : Nat),
    (s.mailbox h a 3 = true) ∧ (s.slotIn 1 = some k) ∧ (s.mbxArg h 0 % 2 = 0)) ∧
  (∃ (s : State) (h : Fin 4) (a : RegWr) (k : Nat),
    (s.mailbox h a 3 = true) ∧ (s.slotIn 1 = some k) ∧ (s.mbxArg h 0 % 2 = 1) ∧ (s.pwr.held = false) ∧ (s.pwr.dark = none) ∧ (s.pwr.warm = none) ∧ (8 ≤ s.base.get Reg.rstStep_STEP)) ∧
  (∃ (s : State) (h : Fin 4) (a : RegWr) (k : Nat),
    (s.mailbox h a 4 = true) ∧ (s.slotIn 2 = some k)) ∧
  (∃ (s : State) (h : Fin 4) (a : RegWr) (k : Nat),
    (s.mailbox h a 5 = true) ∧ (s.slotIn 1 = some k)) ∧
  (∃ (s : State) (h : Fin 4) (a : RegWr) (m : Nat) (v : List Byte),
    (s.mailbox h a 6 = true) ∧ (m = (s.stored (Reg.mbxCmd h) a).base.get (Reg.mbxCmd_PARAM h)) ∧ (v = sha3 (s.mr m ++ s.mbxBytes h 16))) ∧
  (∃ (s : State) (h : Fin 4) (a : RegWr),
    (s.mailbox h a 7 = true)) ∧
  (∃ (s : State) (h : Fin 4) (a : RegWr),
    (s.mailbox h a 8 = true)) :=
  ⟨⟨(sets up [(Reg.hlmStatus_STATE, 2)]), 0, (wr 0x80000101), by decide +kernel⟩,
  ⟨(sets up [(Reg.hlmStatus_STATE, 2), (⟨Reg.mbxArg 0 2, 31, 0⟩, 1)]), 0, (wr 0x80000102), by decide +kernel⟩,
  ⟨{ up with hlm := { up.hlm with busy := [(0, 2)] } }, 0, [], by decide +kernel⟩,
  ⟨{ up with hlm := { up.hlm with busy := [(0, 2)] } }, 0, 3, by decide +kernel⟩,
  ⟨(sets up [(Reg.hlmStatus_STATE, 2), (Reg.hlmSlot_STATE 1, 1)]), 0, (wr 0x80000103), 1, by decide +kernel⟩,
  ⟨(sets up [(Reg.hlmStatus_STATE, 2), (Reg.hlmSlot_STATE 1, 1), (⟨Reg.mbxArg 0 0, 31, 0⟩, 1)]), 0, (wr 0x80000103), 1, by decide +kernel⟩,
  ⟨(sets up [(Reg.hlmStatus_STATE, 2), (Reg.hlmSlot_STATE 1, 2)]), 0, (wr 0x80000104), 1, by decide +kernel⟩,
  ⟨(sets up [(Reg.hlmStatus_STATE, 2), (Reg.hlmSlot_STATE 1, 1)]), 0, (wr 0x80000105), 1, by decide +kernel⟩,
  ⟨(sets up [(Reg.hlmStatus_STATE, 2)]), 0, (wr 0x80070106), 7, _, by decide +kernel, by decide +kernel, rfl⟩,
  ⟨(sets up [(Reg.hlmStatus_STATE, 2)]), 0, (wr 0x80000107), by decide +kernel⟩,
  ⟨{ (sets up [(Reg.hlmStatus_STATE, 2)]) with hlm := { up.hlm with record := some [] } }, 0, (wr 0x80000108), by decide +kernel⟩⟩

/-- Every hypothesis of `Obligations.HelmBootsAndAnswers` is met. -/
theorem wit_HelmBootsAndAnswers :
  (∃ (s : State) (k : Nat),
    (s.base.get Reg.hlmStatus_STATE = 1) ∧ (s.hlm.warm = false) ∧ (s.slotIn 3 = some k) ∧ (s.bootBad k = none) ∧ (s.base.ownState pgHLM ≠ uNOCLOCK)) ∧
  (∃ (s : State) (k : Nat),
    (s.base.get Reg.hlmStatus_STATE = 1) ∧ (s.hlm.warm = true) ∧ ((List.range 2).find? (fun k => s.slotState k == 1 && s.base.flag (Reg.hlmSlot_PENDING k)) = some k) ∧ (s.bootBad k = none)) ∧
  (∃ (s : State),
    (s.base.get Reg.hlmStatus_STATE = 1) ∧ ((s.bootBad 0).isSome = true) ∧ ((s.bootBad 1).isSome = true) ∧ (¬ (s.slotState 0 = 3 ∧ s.slotState 1 = 3)) ∧ (s.base.ownState pgHLM ≠ uNOCLOCK)) ∧
  (∃ (s : State),
    (s.helmRuns = true) ∧ (s.hlm.fwAt + 100 * msTicks ≤ s.base.ticks)) ∧
  (∃ (s : State) (h : Fin 4) (msg : List Byte),
    (s.helmRuns = true) ∧ ((h : Nat) < s.base.nhosts) ∧ ((s.doeOf h).error = false) ∧ (doeWhole msg = false)) ∧
  (∃ (s : State) (h : Fin 4) (msg : List Byte),
    (s.helmRuns = true) ∧ ((h : Nat) < s.base.nhosts) ∧ ((s.doeOf h).error = false) ∧ (doeWhole msg = true) ∧ (leAt msg 0 2 = 0xC0D7) ∧ (leAt msg 2 1 = 1) ∧ (krydoBad (msg.drop 8) = none) ∧ (leAt msg 9 1 = 1)) ∧
  (∃ (s : State) (h : Fin 4) (msg : List Byte),
    (s.helmRuns = true) ∧ ((h : Nat) < s.base.nhosts) ∧ ((s.doeOf h).error = false) ∧ (doeWhole msg = true) ∧ (leAt msg 0 2 = 0xC0D7) ∧ (leAt msg 2 1 = 1) ∧ (krydoBad (msg.drop 8) = none) ∧ (leAt msg 9 1 = 3)) ∧
  (∃ (s : State) (h : Fin 4) (msg : List Byte) (off n : Nat),
    (s.helmRuns = true) ∧ ((h : Nat) < s.base.nhosts) ∧ ((s.doeOf h).error = false) ∧ (doeWhole msg = true) ∧ (leAt msg 0 2 = 0xC0D7) ∧ (leAt msg 2 1 = 1) ∧ ((msg.drop 8).length = 16) ∧ (leAt msg 8 1 = 1) ∧ (leAt msg 9 1 = 2) ∧ (leAt msg 10 2 = 0) ∧ (leAt msg 12 4 = 16) ∧ (leAt msg 16 4 = off) ∧ (leAt msg 20 4 = n) ∧ (n ≠ 0) ∧ (n ≤ 65512)) ∧
  (∃ (s : State) (h : Fin 4) (msg : List Byte) (e : Nat),
    (s.helmRuns = true) ∧ ((h : Nat) < s.base.nhosts) ∧ ((s.doeOf h).error = false) ∧ (doeWhole msg = true) ∧ (leAt msg 0 2 = 0xC0D7) ∧ (leAt msg 2 1 = 1) ∧ (krydoBad (msg.drop 8) = some e)) ∧
  (∃ (s : State) (h : Fin 4) (msg : List Byte),
    (s.helmRuns = true) ∧ ((h : Nat) < s.base.nhosts) ∧ ((s.doeOf h).error = false) ∧ (doeWhole msg = true) ∧ (msg.length = 12) ∧ (leAt msg 0 2 = 1) ∧ (leAt msg 2 1 = 0)) :=
  ⟨⟨(sets up [(Reg.hlmStatus_STATE, 1), (Reg.hlmSlot_STATE 0, 3)]), 0, by decide +kernel⟩,
  ⟨{ (sets up [(Reg.hlmStatus_STATE, 1), (Reg.hlmSlot_STATE 1, 1), (Reg.hlmSlot_PENDING 1, 1)]) with hlm := { up.hlm with warm := true, images := [(1, some ⟨1, 0, true, []⟩)] } }, 1, by decide +kernel⟩,
  ⟨{ (sets up [(Reg.hlmStatus_STATE, 1), (Reg.hlmSlot_STATE 0, 3)]) with hlm := { up.hlm with images := [] } }, by decide +kernel⟩,
  ⟨(sets up [(Reg.hlmStatus_STATE, 2)]), by decide +kernel⟩,
  ⟨(sets up [(Reg.hlmStatus_STATE, 2)]), 0, [], by decide +kernel⟩,
  ⟨(sets up [(Reg.hlmStatus_STATE, 2)]), 0, [0xD7, 0xC0, 1, 0, 4, 0, 0, 0, 1, 1, 0, 0, 8, 0, 0, 0], by decide +kernel⟩,
  ⟨(sets up [(Reg.hlmStatus_STATE, 2)]), 0, ([0xD7, 0xC0, 1, 0, 13, 0, 0, 0, 1, 3, 0, 0, 44, 0, 0, 0] ++ List.replicate 32 0 ++ [1, 0, 0, 0]), by decide +kernel⟩,
  ⟨(sets up [(Reg.hlmStatus_STATE, 2)]), 0, [0xD7, 0xC0, 1, 0, 6, 0, 0, 0, 1, 2, 0, 0, 16, 0, 0, 0, 0, 0, 0, 0, 232, 255, 0, 0], 0, 65512, by decide +kernel⟩,
  ⟨(sets up [(Reg.hlmStatus_STATE, 2)]), 0, [0xD7, 0xC0, 1, 0, 4, 0, 0, 0, 2, 1, 0, 0, 8, 0, 0, 0], 1, by decide +kernel⟩,
  ⟨(sets up [(Reg.hlmStatus_STATE, 2)]), 0, [1, 0, 0, 0, 3, 0, 0, 0, 0, 0, 0, 0], by decide +kernel⟩⟩

/-- Every hypothesis of `Obligations.TheWatchTestsAndSweeps` is met. -/
theorem wit_TheWatchTestsAndSweeps :
  (∃ (s : State) (cls : Fin 7) (target : Nat),
    (s.wch.test = none) ∧ (s.bcn.watch = none) ∧ (s.base.ownState pgWCH = uREADY) ∧ (s.base.enabled pgWCH = true) ∧ (s.spr.sweep ≠ 1) ∧ (s.spr.sweep ≠ 4) ∧ (s.pwr.warm = none) ∧ (sget (fun _ => 0) s.wch.last cls + s.watchPeriod cls ≤ s.base.ticks) ∧ ((s.base.get Reg.wchCtrl_EN).testBit cls = true) ∧ (s.watchHeld cls = false) ∧ (s.watchNext cls target = true) ∧ ((cls : Nat) = 4)) ∧
  (∃ (s : State) (cls : Fin 7) (target : Nat),
    (s.wch.test = none) ∧ (s.bcn.watch = none) ∧ (s.base.ownState pgWCH = uREADY) ∧ (s.base.enabled pgWCH = true) ∧ (s.spr.sweep ≠ 1) ∧ (s.spr.sweep ≠ 4) ∧ (s.pwr.warm = none) ∧ (sget (fun _ => 0) s.wch.last cls + s.watchPeriod cls ≤ s.base.ticks) ∧ ((s.base.get Reg.wchCtrl_EN).testBit cls = true) ∧ (s.watchHeld cls = false) ∧ (s.watchNext cls target = true) ∧ ((cls : Nat) = 5)) ∧
  (∃ (s : State) (cls : Fin 7) (target : Nat),
    (s.wch.test = none) ∧ (s.bcn.watch = none) ∧ (s.base.ownState pgWCH = uREADY) ∧ (s.base.enabled pgWCH = true) ∧ (s.spr.sweep ≠ 1) ∧ (s.spr.sweep ≠ 4) ∧ (s.pwr.warm = none) ∧ (sget (fun _ => 0) s.wch.last cls + s.watchPeriod cls ≤ s.base.ticks) ∧ ((s.base.get Reg.wchCtrl_EN).testBit cls = true) ∧ (s.watchHeld cls = false) ∧ (s.watchNext cls target = true) ∧ ((cls : Nat) ≠ 4) ∧ ((cls : Nat) ≠ 5)) ∧
  (∃ (s : State) (x : WatchTest),
    (s.wch.test = some x) ∧ (x.runs = true) ∧ (x.done = none) ∧ (x.cls ∈ [0, 1, 2, 3, 6]) ∧ (s.watchHeldOut x = true)) ∧
  (∃ (s : State) (x : WatchTest) (ecc : Ecc),
    (s.wch.test = some x) ∧ (x.runs = true) ∧ (x.done = none) ∧ (x.cls = 6) ∧ (((ecc.ce ++ ecc.ue).map (· / 16)).any x.reads = true)) ∧
  (∃ (s : State) (x : WatchTest) (e : Fin 16),
    (s.wch.test = some x) ∧ (x.runs = true) ∧ (x.done = none) ∧ (x.cls = 2) ∧ (x.target = pgENG e) ∧ (s.base.ownState (pgENG e) = uTEST)) ∧
  (∃ (s : State) (failed : List (Fin 68)),
    (s.spr.sweep = 1) ∧ (s.base.ownState pgWCH ≠ uNOCLOCK) ∧ (s.base.ownState pgWCH ≠ uOFF) ∧ ((∀ c ∈ failed, s.renders c = false))) ∧
  (∃ (s : State) (failed : List (Fin 68)) (c : Fin 68),
    (s.spr.sweep = 1) ∧ (s.base.ownState pgWCH ≠ uNOCLOCK) ∧ (s.base.ownState pgWCH ≠ uOFF) ∧ (failed = [c]) ∧ (s.renders c = true)) :=
  ⟨⟨(lane 43 { Lane.rest with dead := true } (sets (sets (sets (own pgWCH uREADY (sets up [(Reg.wchCtrl_EN, 0x7F)])) [(⟨hdr pgWCH 0x20, 0, 0⟩, 1)]) [(⟨hdr pgPAR 0x20, 0, 0⟩, 1)]) [(⟨hdr (pgLNK 43) 0x20, 0, 0⟩, 1)])), 4, 0x07B, by decide +kernel⟩,
  ⟨(zone 0 { Zone.rest with phase := .started } (sets (own pgWCH uREADY (sets up [(Reg.wchCtrl_EN, 0x7F)])) [(⟨hdr pgWCH 0x20, 0, 0⟩, 1)])), 5, 1, by decide +kernel⟩,
  ⟨(sets (own pgWCH uREADY (sets up [(Reg.wchCtrl_EN, 0x7F)])) [(⟨hdr pgWCH 0x20, 0, 0⟩, 1)]), 6, 64512, by decide +kernel⟩,
  ⟨{ up with wch := { up.wch with test := some ⟨3, 0x05F, 0, true, 0, none⟩ } }, ⟨3, 0x05F, 0, true, 0, none⟩, by decide +kernel⟩,
  ⟨{ up with wch := { up.wch with test := some ⟨6, 65535, 0, true, 0, none⟩ } }, ⟨6, 65535, 0, true, 0, none⟩, ⟨[65535 * 131072 * 16], []⟩, by decide +kernel⟩,
  ⟨{ (own (pgENG 15) uTEST up) with wch := { up.wch with test := some ⟨2, 0x040, 0, true, 0, none⟩ } }, ⟨2, 0x040, 0, true, 0, none⟩, 15, by decide +kernel⟩,
  ⟨{ (own pgWCH uREADY up) with spr := { up.spr with sweep := 1 } }, [67], by decide +kernel⟩,
  ⟨{ (own pgWCH uREADY (sets up [(Reg.spqMap_ACTIVE 3, 0x10000)])) with spr := { up.spr with sweep := 1 } }, [67], 67, by decide +kernel⟩⟩

/-- Every hypothesis of `Obligations.TheConfigurationTransactionOpensSealsAndEnds` is met. -/
theorem wit_TheConfigurationTransactionOpensSealsAndEnds :
  (∃ (s : State) (a : RegWr),
    (s.accepts Reg.cfgCtrl a = true) ∧ (bits (s.applied Reg.cfgCtrl a).act 1 0 = 1) ∧ (s.base.flag Reg.cfgStatus_OPEN = false) ∧ (s.base.flag Reg.cfgStatus_SEALED = false)) ∧
  (∃ (s : State) (a : RegWr),
    (s.accepts Reg.cfgCtrl a = true) ∧ (bits (s.applied Reg.cfgCtrl a).act 1 0 = 1) ∧ (s.base.flag Reg.cfgStatus_OPEN = true ∨ s.base.flag Reg.cfgStatus_SEALED = true)) ∧
  (∃ (s : State) (a : RegWr),
    (s.accepts Reg.cfgCtrl a = true) ∧ (bits (s.applied Reg.cfgCtrl a).act 1 0 = 2) ∧ (s.holdsCfg a.host.toNat = true) ∧ (s.cfg.staged = [])) ∧
  (∃ (s : State) (a : RegWr),
    (s.accepts Reg.cfgCtrl a = true) ∧ (bits (s.applied Reg.cfgCtrl a).act 1 0 = 2) ∧ (s.holdsCfg a.host.toNat = true) ∧ (s.cfg.staged ≠ []) ∧ ((s.stored Reg.cfgCtrl a).sealStatus = none)) ∧
  (∃ (s : State) (a : RegWr) (st : Nat),
    (s.accepts Reg.cfgCtrl a = true) ∧ (bits (s.applied Reg.cfgCtrl a).act 1 0 = 2) ∧ (s.holdsCfg a.host.toNat = true) ∧ (s.cfg.staged ≠ []) ∧ ((s.stored Reg.cfgCtrl a).sealStatus = some st)) ∧
  (∃ (s : State) (a : RegWr),
    (s.accepts Reg.cfgCtrl a = true) ∧ (bits (s.applied Reg.cfgCtrl a).act 1 0 = 3) ∧ (s.base.flag Reg.cfgStatus_OPEN = true) ∧ (s.base.get Reg.cfgStatus_HOLDER = a.host.toNat ∨ a.host.toNat = s.base.owner)) ∧
  (∃ (s : State) (page : BitVec 10) (off : BitVec 12) (a : RegWr) (d : RegDesc),
    (plainKey (regKey page off) = true) ∧ (s.accepts (regKey page off) a = true) ∧ (descAt (regKey page off) = some d) ∧ (d.touchesRws a.be = true) ∧ (s.holdsCfg a.host.toNat = true)) ∧
  (∃ (s : State) (page : BitVec 10) (off : BitVec 12) (a : RegWr) (d : RegDesc),
    (plainKey (regKey page off) = true) ∧ (s.accepts (regKey page off) a = true) ∧ (descAt (regKey page off) = some d) ∧ (d.touchesRws a.be = true) ∧ (s.holdsCfg a.host.toNat = false)) :=
  ⟨⟨up, (wr 1), by decide +kernel⟩,
  ⟨(sets up [(Reg.cfgStatus_OPEN, 1)]), (wr 1), by decide +kernel⟩,
  ⟨(sets up [(Reg.cfgStatus_OPEN, 1)]), (wr 2), by decide +kernel⟩,
  ⟨{ (sets up [(Reg.cfgStatus_OPEN, 1)]) with cfg := { up.cfg with staged := [(Reg.scoLw, some 0)] } }, (wr 2), by decide +kernel⟩,
  ⟨{ (sets up [(Reg.cfgStatus_OPEN, 1)]) with cfg := { up.cfg with staged := [(Reg.cmpSize, some 0)] } }, (wr 2), stRANGE, by decide +kernel⟩,
  ⟨(sets up [(Reg.cfgStatus_OPEN, 1)]), (wr 3), by decide +kernel⟩,
  ⟨(sets up [(Reg.cfgStatus_OPEN, 1)]), (BitVec.ofNat 10 pgCMP), (BitVec.ofNat 12 (Reg.cmpSize % 4096)), (wr 0x21C03C00), ((descAt Reg.cmpSize).get (by decide)), by decide +kernel⟩,
  ⟨up, (BitVec.ofNat 10 pgCMP), (BitVec.ofNat 12 (Reg.cmpSize % 4096)), (wr 0x21C03C00), ((descAt Reg.cmpSize).get (by decide)), by decide +kernel⟩⟩

/-- Every hypothesis of `Obligations.RegistersAreWrittenReadAndRefused` is met. -/
theorem wit_RegistersAreWrittenReadAndRefused :
  (∃ (s : State) (page : BitVec 10) (off : BitVec 12) (a : RegWr),
    (plainKey (regKey page off) = true) ∧ (s.accepts (regKey page off) a = true) ∧ (unstaged (regKey page off) = true)) ∧
  (∃ (s : State) (page : BitVec 10) (off : BitVec 12) (a : RegWr),
    (plainKey (regKey page off) = true) ∧ (s.base.visible a.host.toNat page.toNat = true) ∧ (((descAt (regKey page off)).map RegDesc.writable).getD false = true) ∧ (s.base.mayWrite a.host.toNat (regKey page off) = false)) ∧
  (∃ (s : State) (page : BitVec 10) (off : BitVec 12) (a : RegWr),
    (0x300 ≤ page.toNat) ∧ (pageInfo page.toNat = none) ∧ (0x40 ≤ off.toNat) ∧ (a.host.toNat < s.base.nhosts)) ∧
  (∃ (s : State) (h : Fin 4) (off : BitVec 12) (a : RegWr) (r : Nat),
    (quotaOf (off.toNat / 4 * 4) = some r) ∧ (s.accepts (hdr (pgCMD h) (off.toNat / 4 * 4)) a = true) ∧ ((s.stored (hdr (pgCMD h) (off.toNat / 4 * 4)) a).quotaBad r = false)) ∧
  (∃ (s : State) (h : Fin 4) (off : BitVec 12) (a : RegWr) (r : Nat),
    (quotaOf (off.toNat / 4 * 4) = some r) ∧ (s.accepts (hdr (pgCMD h) (off.toNat / 4 * 4)) a = true) ∧ ((s.stored (hdr (pgCMD h) (off.toNat / 4 * 4)) a).quotaBad r = true)) ∧
  (∃ (s : State) (page : BitVec 10) (a : RegWr),
    (s.accepts (hdr page.toNat 0x18) a = true)) ∧
  (∃ (s : State) (page : BitVec 10) (a : RegWr),
    (s.accepts (hdr page.toNat 0x24) a = true) ∧ ((s.base.word (hdr page.toNat 0x24)).toNat.testBit 31 = true) ∧ ((s.applied (hdr page.toNat 0x24) a).word.testBit 31 = false)) ∧
  (∃ (s : State) (a : RegWr),
    (s.accepts Reg.cmpProbeXy a = true)) ∧
  (∃ (s : State) (a : RegWr),
    (s.accepts Reg.frsQuery a = true)) ∧
  (∃ (s : State) (a : RegWr),
    (s.accepts Reg.domMapQuery a = true)) ∧
  (∃ (s : State) (a : RegWr),
    (s.accepts Reg.calQuery a = true)) ∧
  (∃ (s : State) (h : Fin 4) (q : Query),
    (s.queries.contains (4 * (h : Nat) + queryNum q) = true)) ∧
  (∃ (s : State) (page : BitVec 10) (off : BitVec 12),
    (s.pwr.off = true)) ∧
  (∃ (s : State) (page : BitVec 10) (off : BitVec 12),
    (s.pwr.off = false) ∧ (s.pageOn page.toNat = false)) ∧
  (∃ (s : State) (page : BitVec 10) (off : BitVec 12),
    (s.pwr.off = false) ∧ (s.pageOn page.toNat = true)) :=
  ⟨⟨up, (BitVec.ofNat 10 pgSCO), (BitVec.ofNat 12 (Reg.scoOdAddr % 4096)), (wr 1), by decide +kernel⟩,
  ⟨{ up with base := { up.base with nhosts := 2 } }, (BitVec.ofNat 10 pgSCO), (BitVec.ofNat 12 (Reg.scoOdAddr % 4096)), ⟨1, 1, 15⟩, by decide +kernel⟩,
  ⟨up, 0x3FF, 0xFFC, (wr 1), by decide +kernel⟩,
  ⟨up, 0, 0x103, (wr 0x00010000), 0, by decide +kernel⟩,
  ⟨up, 0, 0x103, (wr 0x00000001), 0, by decide +kernel⟩,
  ⟨up, (BitVec.ofNat 10 pgSPR), (wr 0xFFFFFFFF), by decide +kernel⟩,
  ⟨(word (hdr pgSPR 0x24) 0x80000000 up), (BitVec.ofNat 10 pgSPR), (wr 0x80000000), by decide +kernel⟩,
  ⟨up, (wr 0x21BF3BFF), by decide +kernel⟩,
  ⟨up, (wr 0), by decide +kernel⟩,
  ⟨up, (wr 0), by decide +kernel⟩,
  ⟨up, (wr 0), by decide +kernel⟩,
  ⟨{ up with queries := [3] }, 0, .cal, by decide +kernel⟩,
  ⟨pwr { up.pwr with vaon := false, por := false } up, 0, 0, by decide +kernel⟩,
  ⟨State.reset, (BitVec.ofNat 10 pgSPR), 0, by decide +kernel⟩,
  ⟨up, 0, 0, by decide +kernel⟩⟩

/-- Every hypothesis of `Obligations.OnlyTheNamedRegistersChange` is met. -/
theorem wit_OnlyTheNamedRegistersChange :
  (∃ t, State.reset.base.nhosts ≤ 4 ∧ exec (.railWarn 0 0 0) State.reset = .next t) ∧
  (∃ t, State.reset.base.nhosts ≤ 4 ∧ exec (.railRecover 0 0 0) State.reset = .next t) ∧
  (∃ t, State.reset.base.nhosts ≤ 4 ∧ exec (.overvolt 0 0) State.reset = .next t) ∧
  (∃ t, State.reset.base.nhosts ≤ 4 ∧ exec (.overvoltClear 0 0) State.reset = .next t) ∧
  (∃ t, State.reset.base.nhosts ≤ 4 ∧ exec (.vholdLow 0) State.reset = .next t) ∧
  (∃ t, State.reset.base.nhosts ≤ 4 ∧ exec .holdoffEnd State.reset = .next t) ∧
  (∃ t, State.reset.base.nhosts ≤ 4 ∧ exec .resetOutRelease State.reset = .next t) ∧
  (∃ t, State.reset.base.nhosts ≤ 4 ∧ exec (.clkMeasSel (wr 0)) State.reset = .next t) ∧
  (∃ t, State.reset.base.nhosts ≤ 4 ∧ exec (.clkMeasDone 0) State.reset = .next t) ∧
  (∃ t, State.reset.base.nhosts ≤ 4 ∧ exec (.linkUp 0 0 0 false) State.reset = .next t) ∧
  (∃ t, State.reset.base.nhosts ≤ 4 ∧ exec (.linkResetDone 0) State.reset = .next t) ∧
  (∃ t, State.reset.base.nhosts ≤ 4 ∧ exec (.msixUnmask 0 0) State.reset = .next t) ∧
  (∃ t, State.reset.base.nhosts ≤ 4 ∧ exec (.logWrite 0 false) State.reset = .next t) ∧
  (∃ t, State.reset.base.nhosts ≤ 4 ∧ exec (.tlpError 0 .malformed 0 []) State.reset = .next t) ∧
  (∃ t, State.reset.base.nhosts ≤ 4 ∧ exec (.bar2Write 0 0 [] false) State.reset = .next t) ∧
  (∃ t, State.reset.base.nhosts ≤ 4 ∧ exec (.zeroFill 0) State.reset = .next t) ∧
  (∃ t, State.reset.base.nhosts ≤ 4 ∧ exec .spill State.reset = .next t) ∧
  (∃ t, State.reset.base.nhosts ≤ 4 ∧ exec .retire State.reset = .next t) ∧
  (∃ t, State.reset.base.nhosts ≤ 4 ∧ exec (.stackDown 0) State.reset = .next t) ∧
  (∃ t, State.reset.base.nhosts ≤ 4 ∧ exec (.domUnitReset 0 (wr 0)) State.reset = .next t) ∧
  (∃ t, State.reset.base.nhosts ≤ 4 ∧ exec (.cfgOpen (wr 0)) State.reset = .next t) ∧
  (∃ t, State.reset.base.nhosts ≤ 4 ∧ exec (.cfgCommit (wr 0)) State.reset = .next t) ∧
  (∃ t, State.reset.base.nhosts ≤ 4 ∧ exec (.cfgAbort (wr 0)) State.reset = .next t) ∧
  (∃ t, State.reset.base.nhosts ≤ 4 ∧ exec (.unitEventClear 0 (wr 0)) State.reset = .next t) ∧
  (∃ t, State.reset.base.nhosts ≤ 4 ∧ exec (.unitFaultClear 0 (wr 0)) State.reset = .next t) ∧
  (∃ t, State.reset.base.nhosts ≤ 4 ∧ exec (.rcRead 0 0 0 0) State.reset = .next t) ∧
  (∃ t, State.reset.base.nhosts ≤ 4 ∧ exec (.sidebandRead 0 0) State.reset = .next t) ∧
  (∃ t, State.reset.base.nhosts ≤ 4 ∧ exec (.queryResult 0 .cal) State.reset = .next t) ∧
  (∃ t, State.reset.base.nhosts ≤ 4 ∧ exec (.calStart (wr 0)) State.reset = .next t) ∧
  (∃ t, State.reset.base.nhosts ≤ 4 ∧ exec (.calDone ⟨0, []⟩) State.reset = .next t) ∧
  (∃ t, State.reset.base.nhosts ≤ 4 ∧ exec (.doeDiscovery 0 []) State.reset = .next t) ∧
  (∃ t, State.reset.base.nhosts ≤ 4 ∧ exec (.getMeas 0 []) State.reset = .next t) :=
  ⟨⟨_, by decide, rfl⟩, ⟨_, by decide, rfl⟩, ⟨_, by decide, rfl⟩, ⟨_, by decide, rfl⟩, ⟨_, by decide, rfl⟩, ⟨_, by decide, rfl⟩, ⟨_, by decide, rfl⟩, ⟨_, by decide, rfl⟩, ⟨_, by decide, rfl⟩, ⟨_, by decide, rfl⟩, ⟨_, by decide, rfl⟩, ⟨_, by decide, rfl⟩, ⟨_, by decide, rfl⟩, ⟨_, by decide, rfl⟩, ⟨_, by decide, rfl⟩, ⟨_, by decide, rfl⟩, ⟨_, by decide, rfl⟩, ⟨_, by decide, rfl⟩, ⟨_, by decide, rfl⟩, ⟨_, by decide, rfl⟩, ⟨_, by decide, rfl⟩, ⟨_, by decide, rfl⟩, ⟨_, by decide, rfl⟩, ⟨_, by decide, rfl⟩, ⟨_, by decide, rfl⟩, ⟨_, by decide, rfl⟩, ⟨_, by decide, rfl⟩, ⟨_, by decide, rfl⟩, ⟨_, by decide, rfl⟩, ⟨_, by decide, rfl⟩, ⟨_, by decide, rfl⟩, ⟨_, by decide, rfl⟩⟩

/-- Every hypothesis of `Obligations.HostCommandsKeepToTheirHostsPages` is met. -/
theorem wit_HostCommandsKeepToTheirHostsPages :
  (∃ t, State.reset.base.nhosts ≤ 4 ∧ exec (.nop 3 15) State.reset = .next t) ∧
  (∃ t, State.reset.base.nhosts ≤ 4 ∧ exec (.twdSelfCheck 3) State.reset = .next t) ∧
  (∃ t, State.reset.base.nhosts ≤ 4 ∧ exec (.layerMove 0 0) State.reset = .next t) ∧
  (∃ t, State.reset.base.nhosts ≤ 4 ∧ exec .cmdOverload State.reset = .next t) :=
  ⟨⟨_, by decide, rfl⟩, ⟨_, by decide, rfl⟩, ⟨_, by decide, rfl⟩, ⟨_, by decide, rfl⟩⟩

/-- Every hypothesis of `Obligations.UnitCommandsKeepToTheirPages` is met. -/
theorem wit_UnitCommandsKeepToTheirPages :
  (∃ t, State.reset.base.nhosts ≤ 4 ∧ exec .freshnessTick State.reset = .next t) ∧
  (∃ t, State.reset.base.nhosts ≤ 4 ∧ exec (.compassCopyCheck []) State.reset = .next t) ∧
  (∃ t, State.reset.base.nhosts ≤ 4 ∧ exec (.ethOther [] false) State.reset = .next t) ∧
  (∃ t, State.reset.base.nhosts ≤ 4 ∧ exec .timeLinkDown State.reset = .next t) ∧
  (∃ t, State.reset.base.nhosts ≤ 4 ∧ exec (.actDone 3) State.reset = .next t) ∧
  (∃ t, State.reset.base.nhosts ≤ 4 ∧ exec (.parAck ⟨3, .control []⟩) State.reset = .next t) ∧
  (∃ t, State.reset.base.nhosts ≤ 4 ∧ exec .partnerLost State.reset = .next t) ∧
  (∃ t, State.reset.base.nhosts ≤ 4 ∧ exec (.crcReport 1 1 (.control [])) State.reset = .next t) ∧
  (∃ t, State.reset.base.nhosts ≤ 4 ∧ exec (.zoneStarted 11) State.reset = .next t) ∧
  (∃ t, State.reset.base.nhosts ≤ 4 ∧ exec .dischargeEnd State.reset = .next t) ∧
  (∃ t, State.reset.base.nhosts ≤ 4 ∧ exec (.spanStall 67) State.reset = .next t) ∧
  (∃ t, State.reset.base.nhosts ≤ 4 ∧ exec (.spanDatapath 67 3 true) State.reset = .next t) ∧
  (∃ t, State.reset.base.nhosts ≤ 4 ∧ exec (.mbxDone 3 (.data [])) State.reset = .next t) ∧
  (∃ t, State.reset.base.nhosts ≤ 4 ∧ exec .firmwareBoot State.reset = .next t) ∧
  (∃ t, State.reset.base.nhosts ≤ 4 ∧ exec (.jobDispatch 15) State.reset = .next t) ∧
  (∃ t, State.reset.base.nhosts ≤ 4 ∧ exec (.bar2Read 3 0 0 ⟨[], []⟩) State.reset = .next t) :=
  ⟨⟨_, by decide, rfl⟩, ⟨_, by decide, rfl⟩, ⟨_, by decide, rfl⟩, ⟨_, by decide, rfl⟩, ⟨_, by decide, rfl⟩, ⟨_, by decide, rfl⟩, ⟨_, by decide, rfl⟩, ⟨_, by decide, rfl⟩, ⟨_, by decide, rfl⟩, ⟨_, by decide, rfl⟩, ⟨_, by decide, rfl⟩, ⟨_, by decide, rfl⟩, ⟨_, by decide, rfl⟩, ⟨_, by decide, rfl⟩, ⟨_, by decide, rfl⟩, ⟨_, by decide, rfl⟩⟩

/-- Every hypothesis of `Obligations.DescramblingUndoesScrambling` is met, at the last bit. -/
theorem wit_DescramblingUndoesScrambling :
  (∃ (sc : Nat) (bits : List Nat) (k : Nat) (raw : List Nat),
    (∀ b ∈ bits, b < 2) ∧ (k < bits.length) ∧ (raw = msbBits 58 sc ++ (scrambleAll sc bits).1)) :=
  ⟨2 ^ 64 - 1, List.replicate 64 1, 63, _, by decide +kernel, by decide +kernel, rfl⟩

/-! ## Ill-formed commands are refused by WellFormed, one term for each check -/

theorem test_short_back_channel_block_is_ill_formed :
    Instr.wellFormed (.bcStatus 0 0 (.control [0x10])) = false ∧ Instr.wellFormed (.bcStatus 0 0 (.codeword [0] [0] 0)) = false ∧ Instr.wellFormed (.bcStatus 0 0 (.control (block [0x10]))) = true := by
  decide +kernel

theorem test_short_pair_block_is_ill_formed : Instr.wellFormed (.parHello ⟨0, .dataBlock [0x13]⟩) = false ∧
    Instr.wellFormed (.parHello ⟨0, .dataBlock (pairMsg [0x13])⟩) = true := by
  decide +kernel

theorem test_odd_doe_object_is_ill_formed :
    Instr.wellFormed (.getId 0 [0xD7, 0xC0, 1, 0, 2, 0, 0, 0, 0]) = false ∧ Instr.wellFormed (.getId 0 [0xD7, 0xC0, 1, 0]) = false := by
  decide +kernel

theorem test_63_samples_are_ill_formed : Instr.wellFormed (.thermalSample (List.replicate 63 (.failed 0))) = false := by decide +kernel

theorem test_15_offsets_are_ill_formed : Instr.wellFormed (.sxtLocked (List.replicate 15 0)) = false := by decide +kernel

theorem test_short_tlp_header_is_ill_formed : Instr.wellFormed (.tlpError 0 .malformed 0 [0, 1]) = false := by decide +kernel

theorem test_bar2_lengths_are_checked :
    Instr.wellFormed (.bar2Read 0 0 0 ⟨[], []⟩) = false ∧ Instr.wellFormed (.bar2Read 0 0 4097 ⟨[], []⟩) = false ∧
      Instr.wellFormed (.bar2Write 0 0 [] false) = false := by decide +kernel

/-! ## Worked examples of the spec -/

/-- The check value of R206. -/
theorem test_crc32c_check_value : crc32c [0x31, 0x32, 0x33, 0x34, 0x35, 0x36, 0x37, 0x38, 0x39] = 0xE3069283 := by decide +kernel

/-- The geometry of Table 3.3. -/
def northmarch : Sparse (BitVec 32) :=
  (sets up [(⟨Reg.cmpCtrl, 31, 0⟩, 3), (⟨Reg.cmpPitch, 31, 0⟩, 0x0A800000), (⟨Reg.cmpSlant, 31, 0⟩, 0x00C00000), (⟨Reg.cmpOffset, 31, 0⟩, 0x00400000),
    (⟨Reg.cmpDmax, 31, 0⟩, 3000), (⟨Reg.cmpK 0, 31, 0⟩, 5259), (⟨Reg.cmpK 18, 31, 0⟩, 2088 * 65536), (⟨Reg.cmpK 63, 31, 0⟩, (65536 - 5259) * 65536), (⟨Reg.cmpLct 47, 31, 0⟩, 56 * 65536 + 40), (⟨Reg.cmpLct 62, 31, 0⟩, 24 * 65536),
    (⟨Reg.cmpLct 63, 31, 0⟩, 48)]).base.geometry

/-- Table 3.4: the view coordinates of pixel (1,000, 2,000). -/
theorem test_compass_example :
    compassW northmarch 1000 2000 0 = 0x6755 ∧ compassW northmarch 1000 2000 1 = 0x4EF4 ∧ compassW northmarch 1000 2000 2 = 0x3692 := by
  decide +kernel

/-- Table 3.5, and KMAX of Table 3.3 from the K values it lists. -/
theorem test_disparity_example :
    geoKmax northmarch = 5259 ∧ geoK northmarch 37 = 2088 ∧ disparity 3000 2088 1200 = 9787 ∧ disparity 3000 2088 (-600) = -4893 := by
  decide +kernel

/-- Tables 5.8 and 5.9: rows 12 to 19, columns 4 to 27 hold FF, everything else 0. -/
theorem test_codec_example :
    ((decodeTile 2 [0x40, 0x10, 0x0F, 0xF0, 0x06, 0x12, 0x18, 0x08, 0x86, 0x02, 0x21, 0x80, 0x88, 0x60, 0x22, 0x18, 0x08, 0x86, 0x02, 0x21, 0x80,
        0x88, 0x60, 0x01, 0x84]).toOption ==
      some ((List.range 1024).map (fun i => if 12 ≤ i / 32 ∧ i / 32 ≤ 19 ∧ 4 ≤ i % 32 ∧ i % 32 ≤ 27 then 0xFF else 0))) = true := by
  decide +kernel

/-- Z00S5 of the example of chapter 13: the pulse lengths, and the first pulse 129,594 steps after the subframe start (323,985.0 ns, Table 13.5). -/
theorem test_pulse_plan_example :
    (planPulses 119998 207736 0x2000 4).map (·.2) = [2741, 2742, 2742, 2742] ∧ ((planPulses 119998 207736 0x2000 4).map (·.1)).head? = some 129594 := by
  decide +kernel

/-- Table 15.4. -/
theorem test_insertion_example : insertCorrection ⟨4294966911, 0xC000⟩ ⟨1871, 0xC000⟩ 0 = some 0x8D00000 := by decide +kernel

/-- Table 7.4: subframes 14 to 16 of the Northmarch timeline. -/
theorem test_timeline_example :
    let s := sets up [(⟨Reg.sxtEpochLo, 31, 0⟩, 3368750000)]
    s.wallAt 14 = 3397916666 ∧ s.wallAt 15 = 3400000000 ∧ s.wallAt 16 = 3402083333 := by decide +kernel

/-! ## Single steps -/

/-- The queue is first in, first out, and an empty queue is one tick (log 1). -/
theorem test_queue_order :
    (match step { up with pending := [.msixUnmask 0 5, .msixUnmask 0 6] } with
      | .next t => t.pending == [.msixUnmask 0 6] && (t.base.link 0).unmasked.contains 5 && !(t.base.link 0).unmasked.contains 6
      | _ => false) = true := by decide +kernel

theorem test_idle_step_is_one_tick :
    (match step up with | .next t => t.base.ticks == up.base.ticks + 1 && t.pending == [] | _ => false) = true := by decide +kernel

/-- An RC register (BCN ball tests aside: CDC_TILES) answers its value and is cleared by a full read, not by a partial one (R32). -/
theorem test_rc_read_clears :
    (match exec (.rcRead 0 (BitVec.ofNat 10 pgCDC) 0x04C 15) (word Reg.cdcTiles 7 up) with
      | .next t => t.base.word Reg.cdcTiles == 0 && t.base.out.contains (.readData 0 pgCDC 0x4C 7)
      | _ => false) = true ∧
    (match exec (.rcRead 0 (BitVec.ofNat 10 pgCDC) 0x04C 3) (word Reg.cdcTiles 7 up) with
      | .next t => t.base.word Reg.cdcTiles == 7
      | _ => false) = true := by decide +kernel

/-- A tenant's write of an owner's register changes nothing and is logged with code 0x0103 (R45). -/
theorem test_tenant_write_is_refused :
    (match exec (.admBudget ⟨1, 24, 15⟩) { up with base := { up.base with nhosts := 2 } } with
      | .next t => t.base.word Reg.admBudget == up.base.word Reg.admBudget && ((t.base.logq 3).waiting.map (·.code)) == [0x0103]
      | _ => false) = true := by decide +kernel

/-- A NOP completes at once: its 16 completion bytes go to the completion ring, and the descriptor has left the ring (R254). -/
theorem test_nop_completes :
    (match exec (.nop 0 0) (ring (desc 0x12 0 []) up) with
      | .next t => (t.ring 0 0).flight == [] && t.base.out.any (fun o => match o with | .hostWrite 0 _ bs => bs.take 2 == [0, 0x12] | _ => false)
      | _ => false) = true := by decide +kernel

/-- TX_BEGIN of an open handle is refused with REJ_STATE, and the transaction stays as it is. -/
theorem test_tx_begin_twice :
    (match exec (.txBegin 0 0) (scene (desc 1 3 []) [] tx0) with
      | .next t => t.txn 0 3 == some tx0 && t.base.get (Reg.cmdRejected_COUNT 0) == 1
      | _ => false) = true := by decide +kernel

/-- The ball groups of Table 21.2 have the sizes that it gives, 2,916 balls in all. -/
theorem test_ball_groups :
    ballCount (fun b => match b with | .gate _ _ | .dim _ _ | .isns _ _ | .vsns _ _ => true | _ => false) = 384 ∧
    ballCount (fun b => match b with | .com _ | .seg _ => true | _ => false) = 88 ∧
    ballCount (fun b => match b with | .signal _ => true | _ => false) = 35 ∧
    ballCount (fun b => match b with | .supply _ => true | _ => false) = 662 ∧
    ballCount (· == .gnd) = 1581 := by decide +kernel

end Sys2Proof.Tests
end

/-! Little-endian fields of a byte string, and the IDs in the configuration header (R5). -/

namespace Sys2Proof.Proofs

open Sys2Proof Sys2Proof.Machine

@[simp] theorem length_leBytes (n x : Nat) : (leBytes n x).length = n := by
  induction n generalizing x with
  | zero => rfl
  | succ n ih => simp [leBytes, ih]

/-- Reading back what `leBytes` wrote: the number, cut to the bytes it was given. -/
@[simp] theorem leNat_leBytes (n x : Nat) : leNat (leBytes n x) = x % 256 ^ n := by
  induction n generalizing x with
  | zero => simp [leBytes, leNat, Nat.mod_one]
  | succ n ih =>
    calc leNat (leBytes (n + 1) x)
        = x % 256 + 256 * (x / 256 % 256 ^ n) := by simp [leBytes, leNat, ih]
      _ = x % 256 ^ (n + 1) := by rw [pow_succ', Nat.mod_mul]

/-- A field that follows `pre` is read at the length of `pre`. -/
theorem leAt_append_leBytes (pre post : List Byte) {off : Nat} (n x : Nat) (hoff : pre.length = off) :
    leAt (pre ++ leBytes n x ++ post) off n = x % 256 ^ n := by
  have hfield : ((pre ++ leBytes n x ++ post).drop off).take n = leBytes n x := by
    rw [List.append_assoc, List.drop_left' hoff, List.take_left' (length_leBytes n x)]
  rw [leAt, hfield, leNat_leBytes]

/-- What follows the Revision ID in the header: Class Code, Subsystem IDs and the bytes that read 0. -/
def configHeaderTail (s : State) : List Byte :=
  leBytes 3 0x038000 ++ List.replicate 32 0 ++ leBytes 2 (s.base.get Reg.kepSubsys_SUBSYS_VID)
    ++ leBytes 2 (s.base.get Reg.kepSubsys_SUBSYS_ID) ++ List.replicate 16 0

theorem configHeader_eq (s : State) :
    s.configHeader =
      leBytes 2 0xC0D7 ++ leBytes 2 0x8128 ++ List.replicate 4 0 ++ leBytes 1 0xA1 ++ configHeaderTail s := by
  simp only [State.configHeader, configHeaderTail, List.append_assoc]

theorem configHeader_vendorId (s : State) : leAt s.configHeader 0 2 = 0xC0D7 := by
  have h := leAt_append_leBytes [] (leBytes 2 0x8128 ++ List.replicate 4 0 ++ leBytes 1 0xA1 ++ configHeaderTail s)
    2 0xC0D7 rfl
  simpa [configHeader_eq] using h

theorem configHeader_deviceId (s : State) : leAt s.configHeader 2 2 = 0x8128 := by
  have h := leAt_append_leBytes (leBytes 2 0xC0D7) (List.replicate 4 0 ++ leBytes 1 0xA1 ++ configHeaderTail s)
    2 0x8128 rfl
  simpa [configHeader_eq] using h

theorem configHeader_revisionId (s : State) : leAt s.configHeader 8 1 = 0xA1 := by
  have h := leAt_append_leBytes (leBytes 2 0xC0D7 ++ leBytes 2 0x8128 ++ List.replicate 4 0) (configHeaderTail s)
    1 0xA1 rfl
  simpa [configHeader_eq] using h

/-- Settles O58: each ID is the little-endian field at its offset in the header (R5, Table 16.3). -/
theorem theConfigurationHeaderNamesTheDevice : Obligations.TheConfigurationHeaderNamesTheDevice :=
  fun s => ⟨configHeader_vendorId s, configHeader_deviceId s, configHeader_revisionId s⟩

end Sys2Proof.Proofs

/-! A line leaves the scan-out store: what reading, checking and sending it keep (R20, R206 to R209), and the effects of OD_DATA, TEMP_LOST and the unit reset of scan-out. -/

namespace Sys2Proof.Proofs

open Sys2Proof Sys2Proof.Machine Sys2Proof.Laws

/-! ## What leaves the device is never taken back -/

section
/-! One rule per operation of the common core, stated for any register: at a register's own key the kernel would compute the register file to compare two states. -/

variable {o : List Output} {b : Base}

theorem out_of_calm {c : Base} (h : o ⊆ b.out) (hc : Calm b c) : o ⊆ c.out := fun x hx => hc.out x (h hx)

theorem out_setWord (k : Nat) (v : BitVec 32) (h : o ⊆ b.out) : o ⊆ (b.setWord k v).out := h
theorem out_put (f : FieldRef) (v : Nat) (h : o ⊆ b.out) : o ⊆ (b.put f v).out := h
theorem out_putFlag (f : FieldRef) (v : Bool) (h : o ⊆ b.out) : o ⊆ (b.putFlag f v).out := h
theorem out_count (f : FieldRef) (n : Nat) (h : o ⊆ b.out) : o ⊆ (b.count f n).out := h
theorem out_raise (p n : Nat) (h : o ⊆ b.out) : o ⊆ (b.raise p n).out := out_of_calm h (calm_raise b p n)
theorem out_fault (p c : Nat) (d : List Byte) (h : o ⊆ b.out) : o ⊆ (b.fault p c d).out := out_of_calm h (calm_fault b p c d)
theorem out_setOwn (p st : Nat) (h : o ⊆ b.out) : o ⊆ (b.setOwn p st).out := out_of_calm h (calm_setOwn b p st)
theorem out_busyIf (p : Nat) (c : Bool) (h : o ⊆ b.out) : o ⊆ (b.busyIf p c).out := out_of_calm h (calm_busyIf b p c)
theorem out_emit (x : Output) (h : o ⊆ b.out) : o ⊆ (b.emit x).out := out_of_calm h (calm_emit b x)
theorem out_placeRow (p row : Nat) (body : RowBody) (h : o ⊆ b.out) : o ⊆ (b.placeRow p row body).out := out_emit _ h
theorem out_placePair (msg : Bool) (blk : List Byte) (h : o ⊆ b.out) : o ⊆ (b.placePair msg blk).out := out_emit _ h

theorem out_foldl {β : Type} (f : Base → β → Base) (hf : ∀ b e, b.out ⊆ (f b e).out) (l : List β) (h : o ⊆ b.out) :
    o ⊆ (l.foldl f b).out := by
  induction l generalizing b with
  | nil => exact h
  | cons e l ih => exact ih (List.Subset.trans h (hf b e))

end

/-! ## The work that goes with a line -/

/-- The work of scan-out, guard, renderer and pair unit that goes with a line: it leaves the next line, the scenes and scene memory, and takes back nothing that was sent. -/
structure LineKept (s t : State) : Prop where
  line : t.sco.line = s.sco.line
  scenes : t.scenes = s.scenes
  dome : t.dome = s.dome
  out : s.base.out ⊆ t.base.out

theorem LineKept.refl (s : State) : LineKept s s := ⟨rfl, rfl, rfl, List.Subset.refl _⟩

theorem LineKept.trans {s t u : State} (h1 : LineKept s t) (h2 : LineKept t u) : LineKept s u :=
  ⟨h2.line.trans h1.line, h2.scenes.trans h1.scenes, h2.dome.trans h1.dome, List.Subset.trans h1.out h2.out⟩

theorem kept_foldl {β : Type} (f : State → β → State) (hf : ∀ s e, LineKept s (f s e)) (l : List β) (s : State) :
    LineKept s (l.foldl f s) := by
  induction l generalizing s with
  | nil => exact .refl s
  | cons e l ih => exact (hf s e).trans (ih (f s e))

section
variable {s t : State}

theorem kept_onBase (f : Base → Base) (h : LineKept s t) (hf : t.base.out ⊆ (f t.base).out) : LineKept s (t.onBase f) :=
  ⟨h.line, h.scenes, h.dome, List.Subset.trans h.out hf⟩

theorem kept_ite (c : Prop) [Decidable c] {u : State} (ht : LineKept s t) (hu : LineKept s u) : LineKept s (if c then t else u) := by
  split
  · exact ht
  · exact hu

theorem kept_guard (g : Guard) (h : LineKept s t) : LineKept s { t with guard := g } := ⟨h.line, h.scenes, h.dome, h.out⟩
theorem kept_spr (x : Spire) (h : LineKept s t) : LineKept s { t with spr := x } := ⟨h.line, h.scenes, h.dome, h.out⟩
theorem kept_putPar (p : Pair) (h : LineKept s t) : LineKept s (t.putPar p) := ⟨h.line, h.scenes, h.dome, h.out⟩

theorem kept_sco (c : Sco) (hc : c.line = t.sco.line) (h : LineKept s t) : LineKept s { t with sco := c } :=
  ⟨hc.trans h.line, h.scenes, h.dome, h.out⟩

/-! ## The guard's checks (R238, R239) -/

theorem kept_guardRegs (h : LineKept s t) : LineKept s t.guardRegs := by
  unfold State.guardRegs
  extract_lets
  refine kept_onBase _ h ?_
  extract_lets b1
  have hb1 : t.base.out ⊆ b1.out := out_put _ _ (out_put _ _ (out_putFlag _ _ (List.Subset.refl _)))
  exact out_put _ _ (out_put _ _ (out_putFlag _ _ (out_putFlag _ _ (out_putFlag _ _ hb1))))

theorem kept_guardBad (s : State) (g : GuardBad) : LineKept s (s.guardBad g) := by
  have hfault (v : Guard) (c : Nat) : LineKept s (({ s with guard := v } : State).onBase (·.fault pgFRS c (guardDetail g))) :=
    kept_onBase _ (kept_guard v (.refl s)) (out_fault _ _ _ (List.Subset.refl _))
  unfold State.guardBad
  refine kept_ite _ ?repaired (kept_ite _ (kept_guardRegs (hfault _ 3)) (kept_ite _ ?hatched (hfault _ 2)))
  case repaired => exact kept_onBase _ (.refl s) (out_raise _ _ (out_fault _ _ _ (out_count _ _ (List.Subset.refl _))))
  case hatched => exact kept_guardRegs (kept_ite _ (kept_onBase _ (hfault _ 3) (out_raise _ _ (List.Subset.refl _))) (hfault _ 3))

theorem kept_veilDisagree (j y : Nat) (h : LineKept s t) : LineKept s (t.veilDisagree j y) := by
  unfold State.veilDisagree
  extract_lets n _ s1
  have hcounted : LineKept s s1 := kept_onBase _ (kept_guard _ h) (out_fault _ _ _ (out_count _ _ (List.Subset.refl _)))
  refine kept_ite _ hcounted (kept_guardRegs (kept_onBase _ hcounted ?_))
  exact out_setOwn _ _ (out_putFlag _ _ (List.Subset.refl _))

/-! ## Reading and checking the line (R208) -/

theorem kept_upset (y : Nat) (flips : List (Nat × BitVec 32)) (h : LineKept s t) : LineKept s (t.upset y flips) := kept_spr _ h

theorem kept_lineFails (y : Nat) (fs : List (Nat × Nat)) (h : LineKept s t) : LineKept s (t.lineFails y fs) := by
  unfold State.lineFails
  refine kept_ite _ h ?_
  extract_lets s1
  have hcounted : LineKept s s1 := kept_onBase _ h (out_raise _ _ (out_count _ _ (List.Subset.refl _)))
  refine kept_ite _ hcounted (kept_onBase _ (kept_sco _ rfl hcounted) ?_)
  exact out_foldl _ (fun b f => out_fault _ _ _ (List.Subset.refl _)) fs (List.Subset.refl _)

/-! ## The renderer goes on (R174, R175, R196) -/

theorem kept_writeLines (q n : Nat) (h : LineKept s t) : LineKept s (State.writeLines q n t) := by
  induction n generalizing t with
  | zero => exact h
  | succ n ih =>
    simp only [State.writeLines]
    exact kept_ite _ h (kept_ite _ (kept_ite _ h (kept_onBase _ (kept_spr _ h) (out_count _ _ (List.Subset.refl _)))) (ih (kept_spr _ h)))

theorem kept_spireStates (h : LineKept s t) : LineKept s t.spireStates := by
  unfold State.spireStates State.cmpState
  extract_lets r pages
  clear_value pages
  refine kept_onBase _ (kept_onBase _ h ?_) (out_busyIf _ _ (List.Subset.refl _))
  exact out_foldl _ (fun b p => out_busyIf _ _ (List.Subset.refl _)) _ (List.Subset.refl _)

theorem kept_judgeDemand (d : Nat) (h : LineKept s t) : LineKept s (t.judgeDemand d) :=
  kept_ite _ h (kept_onBase _ (kept_spr _ h) (out_raise _ _ (List.Subset.refl _)))

theorem kept_renderDone (h : LineKept s t) : LineKept s t.renderDone := by
  unfold State.renderDone
  refine kept_ite _ h ?_
  extract_lets d s1
  have hjudged : LineKept s s1 := kept_judgeDemand _ (kept_onBase _ h (out_put _ _ (out_put _ _ (List.Subset.refl _))))
  exact kept_spireStates (kept_spr _ hjudged)

theorem kept_giveSpan (q c : Nat) (s : State) : LineKept s (State.giveSpan q s c) := by
  simp only [State.giveSpan]
  refine kept_ite _ (.refl s) ?_
  split
  · exact kept_spr _ (kept_spr _ (.refl s))
  · exact kept_ite _ (.refl s) (kept_spr _ (kept_spr _ (.refl s)))

theorem kept_advanceQuadrant (s : State) (q : Nat) : LineKept s (s.advanceQuadrant q) :=
  (kept_renderDone (kept_writeLines q _ (.refl s))).trans (kept_foldl _ (fun s c => kept_giveSpan q c s) _ _)

theorem kept_advanceRender (h : LineKept s t) : LineKept s t.advanceRender := h.trans (kept_foldl _ kept_advanceQuadrant _ t)

/-! ## Rows on the ports (R333 to R335, R338) -/

theorem kept_sendLineRow (p : Nat) (body : List Byte) (h : LineKept s t) : LineKept s (t.sendLineRow p body) :=
  kept_onBase _ h (out_placeRow _ _ _ (List.Subset.refl _))

theorem kept_sendLine (s : State) (p y : Nat) (veiled : Bool) (words : List Nat) : LineKept s (s.sendLine p y veiled words) := by
  simp only [State.sendLine]
  refine kept_ite _ (.refl s) ((kept_sendLineRow p _ (.refl s)).trans (kept_foldl _ (fun x row => ?_) _ _))
  exact kept_onBase _ (.refl x) (out_placeRow _ _ _ (List.Subset.refl _))

theorem kept_repeatLoops (p : Nat) (h : LineKept s t) : LineKept s (t.repeatLoops p) := by
  refine h.trans (kept_foldl _ (fun x l => ?_) _ t)
  split
  · split
    · exact kept_ite _ (kept_sendLineRow _ _ (.refl x)) (.refl x)
    · exact .refl x
  · exact .refl x

theorem kept_sendTiming (h : LineKept s t) : LineKept s t.sendTiming := by
  simp only [State.sendTiming]
  refine kept_ite _ h (.trans (kept_sco _ ?_ h) (kept_foldl _ (fun x p => ?_) _ _))
  · rfl
  · exact kept_ite _ (kept_repeatLoops p (kept_sendLineRow p _ (.refl x))) (.refl x)

/-! ## The pair unit hears the signature (R477) -/

theorem kept_sendMsg (type : Nat) (body : List Byte) (h : LineKept s t) : LineKept s (t.sendMsg type body) :=
  kept_ite _ h (kept_onBase _ (kept_putPar _ h) (out_placePair _ _ (List.Subset.refl _)))

theorem kept_compareOne (j own peer : Nat) (h : LineKept s t) : LineKept s (t.compareOne j own peer) := by
  have hstate {u : State} (hu : LineKept s u) (st n : Nat) :
      LineKept s (u.onBase (fun b => (b.put Reg.parStatus_STATE st).raise pgPAR n)) :=
    kept_onBase _ hu (out_raise _ _ (out_put _ _ (List.Subset.refl _)))
  unfold State.compareOne
  extract_lets s1 good _ sGood bad recent sBad _ s3 s4
  have h1 : LineKept s s1 := kept_onBase _ h (out_put _ _ (out_put _ _ (out_count _ _ (List.Subset.refl _))))
  refine kept_ite _ ?agree ?differ
  case agree =>
    have hGood : LineKept s sGood := kept_putPar _ h1
    exact kept_ite _ hGood (kept_ite _ (hstate hGood _ _) (kept_ite _ (hstate hGood _ _) hGood))
  case differ =>
    have hBad : LineKept s sBad := kept_onBase _ (kept_putPar _ h1) (out_count _ _ (List.Subset.refl _))
    have h3 : LineKept s s3 := kept_ite _ (kept_putPar _ hBad) (kept_onBase _ (kept_putPar _ hBad) (out_fault _ _ _ (List.Subset.refl _)))
    have h4 : LineKept s s4 := kept_ite _ (kept_onBase _ h3 (out_raise _ _ (List.Subset.refl _))) h3
    exact kept_ite _ (kept_onBase _ h4 (out_put _ _ (List.Subset.refl _))) h4

theorem kept_compareJ (j : Nat) (h : LineKept s t) : LineKept s (t.compareJ j) := by
  simp only [State.compareJ]
  split
  · exact kept_ite _ (kept_putPar _ h) (kept_compareOne _ _ _ (kept_putPar _ h))
  · exact h

theorem kept_ownSignature (j rsig : Nat) (aborted : Bool) (h : LineKept s t) : LineKept s (t.ownSignature j rsig aborted) :=
  kept_ite _ h (kept_compareJ j (kept_sendMsg _ _ (kept_putPar _ h)))

theorem kept_subframeSent (h : LineKept s t) : LineKept s t.subframeSent := by
  unfold State.subframeSent
  extract_lets buf rsig tsig _ s1 s2
  have h1 : LineKept s s1 := kept_onBase _ (kept_sco _ rfl h) (out_setWord _ _ (out_setWord _ _ (out_setWord _ _ (List.Subset.refl _))))
  have h2 : LineKept s s2 := kept_ite _ h1 (h1.trans (kept_foldl _ (fun x p => kept_ite _ (kept_sendLineRow _ _ (.refl x)) (.refl x)) _ _))
  exact kept_ownSignature _ _ _ (kept_sendTiming h2)

end

/-! ## The whole line -/

/-- What LINE_SCANOUT of `s` does from `r` on, the state in which line y is read, checked and written back: it sends the words, the renderer goes on, and the last line ends the subframe. -/
def lineOut (s r : State) (y : Nat) (veiled : Bool) (words : List Nat) : State :=
  let sent := if s.sco.standby || !(s.serves 0 || s.serves 1) then r else
    (List.range 2).foldl (fun (x : State) p => x.sendLine p y veiled words) (r.onBase (·.emit (.line y (words.map (BitVec.ofNat 32)))))
  if y + 1 = s.sco.height then sent.advanceRender.subframeSent else sent.advanceRender

/-- A line that is due is read, checked and written back, and then it goes out. -/
theorem lineRowScan_due (s : State) (y : Nat) (u : LineUpset) (hrun : s.sco.running = true) (hlit : s.sco.dark = none)
    (hlink : s.pnl.linkDark = none) (hy : y = s.sco.line) (hh : y < s.sco.height) (hE : s.sco.lineAt y ≤ (s.base.E : Int)) :
    ∃ r veiled words, s.lineRowScan y u = lineOut s r y veiled words ∧ words.length = s.sco.width ∧
      r.sco.line = y + 1 ∧ r.scenes = s.scenes ∧ r.dome = s.dome := by
  have hdue : ¬ (!s.sco.running || s.sco.dark.isSome || s.pnl.linkDark.isSome || y != s.sco.line || decide (s.sco.height ≤ y)
      || decide ((s.base.E : Int) < s.sco.lineAt y)) = true := by
    simp [hrun, hlit, hlink, ← hy, Nat.not_le.mpr hh, not_lt.mpr hE]
  unfold State.lineRowScan
  rw [if_neg hdue]
  extract_lets s1 ws fs s2 grey px out s3 stale back _ _ s4 words s5 s6
  have h1 : LineKept s s1 := kept_upset y _ (kept_foldl _ kept_guardBad _ s)
  have h2 : LineKept s s2 := kept_onBase _ (kept_lineFails y fs h1) (out_count _ _ (List.Subset.refl _))
  have h3 : LineKept s s3 := kept_ite _ (kept_veilDisagree _ y h2) h2
  have hpx : px.length = s.sco.width := by simp [px, ws]
  have hout : out.length = s.sco.width := by
    simp only [out]
    split <;> simp [hpx]
  exact ⟨s4, _, words, rfl, by simp [words, hout], rfl, h3.scenes, h3.dome⟩

section
variable (s r : State) (y : Nat) (veiled : Bool) (words : List Nat)

theorem kept_sendLines : LineKept r ((List.range 2).foldl (fun (x : State) p => x.sendLine p y veiled words) r) :=
  kept_foldl _ (fun x p => kept_sendLine x p y veiled words) _ r

theorem kept_lineOut : LineKept r (lineOut s r y veiled words) := by
  have hsent := kept_onBase (·.emit (.line y (words.map (BitVec.ofNat 32)))) (.refl r) (out_emit _ (List.Subset.refl _))
  have hrendered := kept_advanceRender
    (kept_ite (s.sco.standby || !(s.serves 0 || s.serves 1)) (.refl r) (hsent.trans (kept_sendLines _ y veiled words)))
  exact kept_ite _ (kept_subframeSent hrendered) hrendered

/-- A device that is not standby, with a port in service, sends the line (R20). -/
theorem line_mem_lineOut (hactive : s.sco.standby = false) (hport : s.serves 0 = true ∨ s.serves 1 = true) :
    Output.line y (words.map (BitVec.ofNat 32)) ∈ (lineOut s r y veiled words).base.out := by
  have hsends : (s.sco.standby || !(s.serves 0 || s.serves 1)) = false := by
    rcases hport with h | h <;> simp [hactive, h]
  simp only [lineOut, hsends, Bool.false_eq_true, if_false]
  have hrendered := kept_advanceRender (kept_sendLines (r.onBase (·.emit (.line y (words.map (BitVec.ofNat 32))))) y veiled words)
  exact (kept_ite _ (kept_subframeSent hrendered) hrendered).out List.mem_cons_self

end

/-- LINE_SCANOUT of the next line, at or after its start in a lit subframe. -/
theorem lineScanout_next (s : State) (y : BitVec 16) (u : LineUpset) (hrun : s.sco.running = true) (hlit : s.sco.dark = none)
    (hlink : s.pnl.linkDark = none) (hy : y.toNat = s.sco.line) (hh : y.toNat < s.sco.height)
    (hE : s.sco.lineAt y.toNat ≤ (s.base.E : Int)) :
    ∃ t, exec (.lineScanout y u) s = .next t ∧ t.sco.line = s.sco.line + 1 ∧ t.scenes = s.scenes ∧ t.dome = s.dome ∧
      (s.sco.standby = false → s.serves 0 = true ∨ s.serves 1 = true →
        ∃ ws, Output.line y.toNat ws ∈ t.base.out ∧ ws.length = s.sco.width) := by
  obtain ⟨r, veiled, words, hrow, hwidth, hline, hscenes, hdome⟩ := lineRowScan_due s y.toNat u hrun hlit hlink hy hh hE
  have hkept := kept_lineOut s r y.toNat veiled words
  refine ⟨lineOut s r y.toNat veiled words, congrArg _ hrow, ?_, hkept.scenes.trans hscenes, hkept.dome.trans hdome, fun hactive hport => ?_⟩
  · rw [hkept.line, hline, hy]
  · exact ⟨_, line_mem_lineOut s r y.toNat veiled words hactive hport, by simp [hwidth]⟩

/-! ## OD_DATA (R214) -/

theorem descAt_odData : descAt Reg.scoOdData = some ⟨"SCO_OD_DATA", 0x06C, 4, 1, 4, 1, [⟨"NODE", 10, 0, .rw, 0, .kept, []⟩]⟩ := by
  decide +kernel

/-- A write of all four bytes replaces the word. -/
theorem mergeBytes_full (old : Nat) (val : BitVec 32) : mergeBytes old val.toNat 15 = val.toNat := by
  have hmask : beMask 15 = 2 ^ 32 - 1 := by decide
  simp only [mergeBytes, hmask, Nat.and_two_pow_sub_one_eq_mod]
  simpa using val.isLt

/-- A full write of SCO_OD_DATA is never a reserved encoding, whatever the register held, and stores the node. -/
theorem applied_odData (s : State) (a : RegWr) (hbe : a.be = 15) :
    (s.applied Reg.scoOdData a).bad = false ∧ (s.applied Reg.scoOdData a).rwsBad = false ∧
      (s.applied Reg.scoOdData a).word % 2048 = a.val.toNat % 2048 := by
  have hmask : ¬ Fld.mask ⟨"NODE", 10, 0, .rw, 0, .kept, []⟩ &&& beMask 15 = 0 := by decide
  simp only [State.applied, descAt_odData, applyWrite, List.foldl, hbe, applyField, if_neg hmask, mergeBytes_full, Fld.allows,
    List.isEmpty_nil, Bool.true_or, if_true, bits_eq, true_and]
  omega

theorem get_setWord_ne (b : Base) {k : Nat} (v : BitVec 32) (f : FieldRef) (h : k ≠ f.key) : (b.setWord k v).get f = b.get f := by
  simp only [Base.get, word_setWord_ne b v h]

theorem visible_setWord (b : Base) (k : Nat) (v : BitVec 32) (h p : Nat) : (b.setWord k v).visible h p = b.visible h p := rfl

theorem mayWrite_setWord (b : Base) {k key : Nat} (v : BitVec 32) (h : Nat) (hk : k ≠ hdr (key / 4096) 0x2C) :
    (b.setWord k v).mayWrite h key = b.mayWrite h key := by
  simp only [Base.mayWrite, word_setWord_ne b v hk, setWord_owner]

theorem comboLegal_odData (w : Nat) : comboLegal Reg.scoOdData w = true := by
  have hdom : Reg.scoOdData ≠ Reg.domLow := by decide
  have hdie : Reg.scoOdData ≠ Reg.thmThrDie := by decide
  have hstk : Reg.scoOdData ≠ Reg.thmThrStk := by decide
  have hcal : Reg.scoOdData ≠ Reg.calQuery := by decide
  simp only [comboLegal, if_neg hdom, if_neg hdie, if_neg hstk, if_neg hcal]

/-- The word that the register holds does not matter to a full write of it. -/
theorem accepts_odData_setWord (s : State) (a : RegWr) (w : BitVec 32) (hbe : a.be = 15) (ha : s.accepts Reg.scoOdData a = true) :
    (s.onBase (·.setWord Reg.scoOdData w)).accepts Reg.scoOdData a = true := by
  obtain ⟨hbad, hrws, _⟩ := applied_odData (s.onBase (·.setWord Reg.scoOdData w)) a hbe
  simp only [State.accepts, Bool.and_eq_true] at ha ⊢
  obtain ⟨⟨⟨⟨⟨hvis, hwr⟩, hmay⟩, _⟩, _⟩, _⟩ := ha
  simp only [onBase_base, visible_setWord, mayWrite_setWord s.base w a.host.toNat (show Reg.scoOdData ≠ hdr (Reg.scoOdData / 4096) 0x2C by decide),
    hvis, hwr, hmay, hbad, hrws, comboLegal_odData]
  decide

theorem odData_unstaged (be : BitVec 4) : ∀ d, descAt Reg.scoOdData = some d → d.touchesRws be = false := by
  intro d hd
  rw [descAt_odData] at hd
  cases hd
  rfl

/-- OD_DATA of a bank not in force, before the end of a row of nodes. -/
theorem odData_taken (s : State) (a : RegWr) (ha : s.accepts Reg.scoOdData a = true) (hbe : a.be = 15)
    (hbank : s.base.get Reg.scoOdAddr_BANK ≠ s.base.get Reg.scoCtrl_OD_BANK) (hti : s.base.get Reg.scoOdAddr_TI < 32) :
    ∃ t, exec (.odData a) s = .next t ∧ t.base.get Reg.scoOdAddr_TI = s.base.get Reg.scoOdAddr_TI + 1 ∧
      t.sco.odt = sput odDefault s.sco.odt (odKey (s.base.get Reg.scoOdAddr_BANK) (s.base.get Reg.scoOdAddr_BAND) (s.base.get Reg.scoOdAddr_CH)
        (s.base.get Reg.scoOdAddr_PI) (s.base.get Reg.scoOdAddr_TI)) (a.val.toNat % 2048) ∧
      t = { s with sco := t.sco, base := t.base } := by
  refine ⟨s.odDataWrite a, rfl, ?_⟩
  unfold State.odDataWrite State.guardedWrite
  extract_lets b bank pi ti k
  have hfree : (bank == b.get Reg.scoCtrl_OD_BANK) = false := beq_false_of_ne hbank
  rw [hfree, Bool.false_and, Bool.false_and, if_neg Bool.false_ne_true,
    write_accepted _ _ _ _ (accepts_odData_setWord s a _ hbe ha) (odData_unstaged a.be), (applied_odData _ a hbe).2.2]
  obtain ⟨c, hc⟩ : ∃ c, (s.onBase (·.setWord Reg.scoOdData (BitVec.ofNat 32 (s.sco.node k)))).stored Reg.scoOdData a = { s with base := c } :=
    ⟨_, rfl⟩
  rw [hc]
  have hroom : ti < 32 := hti
  refine ⟨?_, rfl, rfl⟩
  simp only [onBase_base, if_pos hroom]
  rw [get_setWord_ne _ _ _ (by decide), get_put_same _ _ _ ⟨by decide, by decide⟩]
  exact Nat.mod_eq_of_lt (show ti + 1 < 64 by omega)

/-! ## TEMP_LOST (R213) -/

theorem port_setPort (s : State) (p q : Nat) (x : Port) : (s.setPort p x).port q = if p = q then x else s.port q := by
  simp only [State.port, State.setPort, sget_sput]

/-- Two states that differ in their panel group and their common core only. -/
def PnlOnly (s t : State) : Prop := t = { s with pnl := t.pnl, base := t.base }

theorem PnlOnly.trans {s t u : State} (h1 : PnlOnly s t) (h2 : PnlOnly t u) : PnlOnly s u := by
  unfold PnlOnly at *; rw [h2, h1]

theorem pnlOnly_onBase (s : State) (f : Base → Base) : PnlOnly s (s.onBase f) := rfl
theorem pnlOnly_pnl (s : State) (x : Panel) : PnlOnly s { s with pnl := x } := rfl

/-- The report of a port is forgotten. -/
def forgetTemp (s : State) (p : Nat) : State := s.setPort p { s.port p with temp := none }

/-- What the device knows of the panel's temperature is forgotten: both reports, and since when there is none. -/
def forgetTemps (s : State) : State :=
  { forgetTemp (forgetTemp s 0) 1 with pnl := { (forgetTemp (forgetTemp s 0) 1).pnl with noTemp := none } }

theorem temp_forgetTemp (s : State) (p q : Nat) : ((forgetTemp s p).port q).temp = if p = q then none else (s.port q).temp := by
  simp only [forgetTemp, port_setPort]
  split <;> rfl

theorem temp_forgetTemps (s : State) {q : Nat} (hq : q < 2) : ((forgetTemps s).port q).temp = none := by
  have h : (forgetTemps s).port q = (forgetTemp (forgetTemp s 0) 1).port q := rfl
  rw [h, temp_forgetTemp, temp_forgetTemp]
  split
  · rfl
  · exact if_pos (by omega)

theorem pnlOnly_forgetTemps (s : State) : PnlOnly s (forgetTemps s) :=
  ((pnlOnly_pnl s _).trans (pnlOnly_pnl (forgetTemp s 0) _)).trans (pnlOnly_pnl (forgetTemp (forgetTemp s 0) 1) _)

/-- What TEMP_LOST comes to when a report stood and none is valid. -/
theorem tempLostRow_due (s : State) (hhad : (s.port 0).temp.isSome ∨ (s.port 1).temp.isSome) (hnone : s.panelTemp = none) :
    s.tempLostRow = (forgetTemps s).onBase (·.raise pgSCO 20) := by
  have hany : (List.range 2).any (fun p => (s.port p).temp.isSome) = true := by
    rcases hhad with h | h <;> simp [List.range_succ, h]
  simp only [State.tempLostRow, hany, hnone, Bool.true_or, Option.isNone_none, Bool.and_self, if_true]
  rfl

theorem port_onBase (s : State) (f : Base → Base) (p : Nat) : (s.onBase f).port p = s.port p := rfl

/-- An event that is raised is pending. -/
theorem hasEvent_raise (s : State) (p n : Nat) (hn : n < 32) : (s.onBase (·.raise p n)).hasEvent p n = true := by
  have hbit : 2 ^ n % 2 ^ 32 = 2 ^ n := Nat.mod_eq_of_lt (Nat.pow_lt_pow_right (by decide) hn)
  simp only [State.hasEvent, onBase_base, word_raise, if_true, BitVec.toNat_or, BitVec.toNat_ofNat, hbit, Nat.testBit_or,
    Nat.testBit_two_pow_self, Bool.or_true]

/-- TEMP_LOST with no valid report. -/
theorem tempLost_due (s : State) (hhad : (s.port 0).temp.isSome ∨ (s.port 1).temp.isSome) (hnone : s.panelTemp = none) :
    ∃ t, exec .tempLost s = .next t ∧ (t.port 0).temp = none ∧ (t.port 1).temp = none ∧ t.hasEvent pgSCO 20 = true ∧
      t = { s with pnl := t.pnl, base := t.base } := by
  refine ⟨(forgetTemps s).onBase (·.raise pgSCO 20), congrArg _ (tempLostRow_due s hhad hnone), ?_, ?_, ?_, ?_⟩
  · rw [port_onBase, temp_forgetTemps s (by decide)]
  · rw [port_onBase, temp_forgetTemps s (by decide)]
  · exact hasEvent_raise _ pgSCO 20 (by decide)
  · show PnlOnly s _
    exact (pnlOnly_forgetTemps s).trans (pnlOnly_onBase _ _)

/-! ## The unit reset of scan-out (R220) -/

/-- Two states that differ in scan-out and their common core only. -/
def ScoOnly (s t : State) : Prop := t = { s with sco := t.sco, base := t.base }

theorem ScoOnly.trans {s t u : State} (h1 : ScoOnly s t) (h2 : ScoOnly t u) : ScoOnly s u := by
  unfold ScoOnly at *; rw [h2, h1]

theorem scoOnly_onBase (s : State) (f : Base → Base) : ScoOnly s (s.onBase f) := rfl
theorem scoOnly_sco (s : State) (c : Sco) : ScoOnly s { s with sco := c } := rfl

theorem scoOnly_scoReset (s : State) : ScoOnly s s.scoReset := by
  unfold State.scoReset State.resetBegins
  exact (scoOnly_sco s _).trans (scoOnly_onBase _ _)

theorem inReset_draw (s : State) (p : Nat) : (s.onBase Base.draw).inReset p = s.inReset p := rfl

theorem inReset_resetBegins (s : State) (p : Nat) : (s.resetBegins p).inReset p = true :=
  flag_putFlag_same s.base _ true rfl (show 1 ≤ 31 by decide)

/-- A write of UNIT_CTRL of scan-out that asks for a reset is stored, and the reset begins. -/
theorem ctrlWriteFree_scoReset (s : State) (a : RegWr) (ha : s.asksReset pgSCO a = true) :
    s.ctrlWriteFree pgSCO a = ((s.stored (hdr pgSCO 0x20) a).scoReset).onBase Base.draw := by
  rw [State.ctrlWriteFree, ctrlWrite_reset s pgSCO a s.freeBit [] ha]
  rfl

/-- SCO_UNIT_RESET. -/
theorem scoUnitReset_taken (s : State) (a : RegWr) (ha : s.asksReset pgSCO a = true) :
    ∃ t, exec (.scoUnitReset a) s = .next t ∧ t.sco = { s.sco with reset := true, refCut := true } ∧ t.inReset pgSCO = true ∧
      t = { s with sco := t.sco, base := t.base } := by
  refine ⟨((s.stored (hdr pgSCO 0x20) a).scoReset).onBase Base.draw, congrArg _ (ctrlWriteFree_scoReset s a ha), rfl, ?_, ?_⟩
  · rw [inReset_draw]
    exact inReset_resetBegins _ pgSCO
  · show ScoOnly s _
    exact ((scoOnly_onBase s _).trans (scoOnly_scoReset _)).trans (scoOnly_onBase _ _)

/-- Settles O24: the line that is due goes out with the next line set (R20, R190, R206), a node of the bank not in force is loaded (R214), the reports are forgotten (R213) and the unit reset begins (R220). -/
theorem aLineLeavesTheScanoutStore : Obligations.ALineLeavesTheScanoutStore :=
  ⟨lineScanout_next, odData_taken, tempLost_due, scoUnitReset_taken⟩

end Sys2Proof.Proofs

/-! The state after reset: one register off its cold value, everything else that is addressed like memory empty or listed in order (R34, R505, R518). -/

namespace Sys2Proof.Proofs

open Sys2Proof Sys2Proof.Machine Sys2Proof.Laws

theorem word_reset (k : Nat) : State.reset.base.word k = if k = Reg.rstCount then 0x00010000 else coldWord k := by
  show (if Reg.rstCount = k then (0x00010000 : BitVec 32) else coldWord k) = _
  simp only [eq_comm]

/-- RST_COUNT, the one register listed, is off its cold value: it counts the power-up (R518). -/
theorem reset_registers_wf : Registers.wf State.reset.base.regs = true := by decide +kernel

theorem reset_canonical : State.reset.canonical := ⟨reset_registers_wf, rfl, by decide, rfl⟩

/-- Settles O2: the only register that reset lists is RST_COUNT, and host 0 is the one host and its own owner (R441, R505, R518). -/
theorem resetIsColdAndCanonical : Obligations.ResetIsColdAndCanonical :=
  ⟨rfl, reset_canonical, ⟨by decide, by decide⟩, rfl, fun k hk => by rw [word_reset, if_neg hk]⟩

end Sys2Proof.Proofs

/-! The unit tree (R38 to R42): how deep it is, whose state a RETIRED page shows, and what the root reads. -/

namespace Sys2Proof.Proofs

open Sys2Proof Sys2Proof.Machine Sys2Proof.Laws

/-! ## The depth of the tree -/

/-- No chain of children below a page has `n` links. -/
def shallow : Nat → Nat → Bool
  | 0, _ => false
  | n + 1, p => (kidsOf p).all (shallow n)

theorem shallow_kid {n p c : Nat} (h : shallow (n + 1) p = true) (hc : c ∈ kidsOf p) : shallow n c = true :=
  List.all_eq_true.mp h c hc

theorem root_shallow : shallow 6 0 = true := by decide +kernel

/-- A deeper bound than the subtree needs changes no state. -/
theorem stateOf_shallow (b : Base) {n p : Nat} (h : shallow n p = true) : b.stateOf (n + 1) p = b.stateOf n p := by
  induction n generalizing p with
  | zero => exact absurd h Bool.false_ne_true
  | succ n ih =>
    have hkid : ∀ c ∈ (kidsOf p).filter b.present, b.stateOf (n + 1) c = b.stateOf n c := fun c hc =>
      ih (shallow_kid h (List.mem_of_mem_filter hc))
    have hkids {α : Type} (f : Nat → Nat → α) : ((kidsOf p).filter b.present).map (fun c => f c (b.stateOf (n + 1) c))
        = ((kidsOf p).filter b.present).map (fun c => f c (b.stateOf n c)) :=
      List.map_congr_left fun c hc => congrArg (f c) (hkid c hc)
    rw [Base.stateOf, Base.stateOf]
    dsimp only
    rw [hkids fun _ st => st, hkids fun c st => (((pageInfo c).map (·.inst)).getD 0, st, st == uOFF && !b.enabledChain c)]

/-! ## The root (R40) -/

/-- The states of the present children of the root. -/
def rootKids (b : Base) : List Nat := ((kidsOf 0).filter b.present).map b.unitState

theorem unitState_root (b : Base) :
    b.unitState 0 = if (rootKids b).any (fun e => e == uFAULT || e == uNOCLOCK) then uFAULT
      else if (rootKids b).contains uDEGRADED then uDEGRADED else uREADY := by
  have hkids : ((kidsOf 0).filter b.present).map (b.stateOf 5) = rootKids b :=
    List.map_congr_left fun c hc => (stateOf_shallow b (shallow_kid root_shallow (List.mem_of_mem_filter hc))).symm
  rw [Base.unitState, Base.stateOf, ← hkids]
  rfl

theorem mem_rootKids (b : Base) (st : Nat) : st ∈ rootKids b ↔ ∃ c ∈ kidsOf 0, b.present c = true ∧ b.unitState c = st := by
  simp only [rootKids, List.mem_map, List.mem_filter, and_assoc]

/-- Some child of the root is at fault. -/
theorem rootKids_any_fault (b : Base) : (rootKids b).any (fun e => e == uFAULT || e == uNOCLOCK) = true ↔
    ∃ c ∈ kidsOf 0, b.present c = true ∧ (b.unitState c = uFAULT ∨ b.unitState c = uNOCLOCK) := by
  simp only [rootKids, List.any_map, List.any_filter, List.any_eq_true, Function.comp_apply, Bool.and_eq_true, Bool.or_eq_true, beq_iff_eq]

theorem rootKids_contains_degraded (b : Base) : (rootKids b).contains uDEGRADED = true ↔
    ∃ c ∈ kidsOf 0, b.present c = true ∧ b.unitState c = uDEGRADED := by
  rw [List.contains_iff_mem, mem_rootKids]

/-- Settles O9: the three cases of the root's own rule, with its children's states as they are read (R40). -/
theorem theRootStateFollowsItsChildren : Obligations.TheRootStateFollowsItsChildren := by
  intro s
  rw [unitState_root]
  refine ⟨fun hf => ?_, fun hf hd => ?_, fun hn => ?_, ?_⟩
  · rw [if_pos ((rootKids_any_fault _).mpr hf)]
  · rw [if_neg (mt (rootKids_any_fault _).mp hf), if_pos ((rootKids_contains_degraded _).mpr hd)]
  · have hf : ¬ ∃ c ∈ kidsOf 0, s.base.present c = true ∧ (s.base.unitState c = uFAULT ∨ s.base.unitState c = uNOCLOCK) :=
      fun ⟨c, hc, hp, h⟩ => hn ⟨c, hc, hp, h.imp_right .inl⟩
    have hd : ¬ ∃ c ∈ kidsOf 0, s.base.present c = true ∧ s.base.unitState c = uDEGRADED :=
      fun ⟨c, hc, hp, h⟩ => hn ⟨c, hc, hp, .inr (.inr h)⟩
    rw [if_neg (mt (rootKids_any_fault _).mp hf), if_neg (mt (rootKids_contains_degraded _).mp hd)]
  · constructor <;> (repeat' split) <;> decide

/-! ## RETIRED reaches down the tree (R38) -/

theorem deriveState_ne_retired (own : Nat) (parts : List ((Nat → Bool) × Nat × Nat)) (kids : List (Nat × Nat × Bool)) :
    deriveState own parts kids ≠ uRETIRED := by
  unfold deriveState
  extract_lets rest judged
  have hrest : rest ≠ uRETIRED := by
    unfold rest
    split <;> decide
  split
  · exact hrest
  · split
    · decide
    · split
      · decide
      · exact hrest

theorem unitState_of_retired_ancestor (b : Base) {p q : Nat} (hq : q ∈ ancestors 5 p) (hr : b.ownState q = uRETIRED) :
    b.unitState p = uRETIRED := by
  have hany : (ancestors 5 p).any (fun q => b.ownState q == uRETIRED) = true := List.any_eq_true.mpr ⟨q, hq, beq_iff_eq.mpr hr⟩
  rw [Base.unitState, Base.stateOf, if_pos hany]

/-- A page that reads RETIRED is so itself or has an ancestor that is. -/
theorem retired_source (b : Base) {p : Nat} (h : b.unitState p = uRETIRED) : ∃ q ∈ p :: ancestors 5 p, b.ownState q = uRETIRED := by
  rw [Base.unitState, Base.stateOf] at h
  split at h
  · rename_i hany
    obtain ⟨q, hq, hr⟩ := List.any_eq_true.mp hany
    exact ⟨q, List.mem_cons_of_mem _ hq, beq_iff_eq.mp hr⟩
  · extract_lets kids es cls ks own at h
    split at h
    · (repeat' split at h) <;> exact absurd h (by decide)
    · split at h
      · refine ⟨p, List.mem_cons_self, ?_⟩
        unfold own at h
        split at h
        · exact absurd h (by decide)
        · exact h
      · exact absurd h (deriveState_ne_retired _ _ _)

/-- A finite fact of Table 2.6: no page from 0x154 on has children. -/
theorem ancestors_kid_small : ∀ p < 0x154, ∀ c ∈ kidsOf p, ancestors 5 c = p :: ancestors 5 p := by decide +kernel

theorem kidsOf_large {p : Nat} (h : 0x154 ≤ p) : kidsOf p = [] := by
  unfold kidsOf
  repeat rw [if_neg (by omega)]

/-- A child's ancestors are its parent and the parent's ancestors. -/
theorem ancestors_kid {p c : Nat} (hc : c ∈ kidsOf p) : ancestors 5 c = p :: ancestors 5 p := by
  rcases Nat.lt_or_ge p 0x154 with hp | hp
  · exact ancestors_kid_small p hp c hc
  · rw [kidsOf_large hp] at hc
    exact absurd hc List.not_mem_nil

/-- Settles O8: whatever retired the parent is an ancestor of the child (R38). -/
theorem childrenOfARetiredUnitReadRetired : Obligations.ChildrenOfARetiredUnitReadRetired := by
  intro s p c hc _ hp
  obtain ⟨q, hq, hr⟩ := retired_source s.base hp
  exact unitState_of_retired_ancestor s.base (ancestors_kid hc ▸ hq) hr

end Sys2Proof.Proofs

/-! The register tables read as a whole: where a register's descriptor comes from, its RC fields and what a read clears (R32), and the registers without a staged field (R49). -/

namespace Sys2Proof.Proofs

open Sys2Proof Sys2Proof.Machine Sys2Proof.Laws

/-! ## The registers of a page -/

/-- The registers of a page: its header and the table of its class. -/
def pageRegs (p : Nat) : List RegDesc := ((pageInfo p).map (fun i => headerRegs p i ++ classRegs p)).getD []

theorem descAt_mem {key : Nat} {d : RegDesc} (h : descAt key = some d) : d ∈ pageRegs (key / 4096) := by
  unfold descAt at h
  split at h
  · cases h
  · rename_i i hi
    simp only [pageRegs, hi, Option.map_some, Option.getD_some, List.mem_append]
    split at h
    · exact .inl (List.mem_of_find?_eq_some h)
    · exact .inr (List.mem_of_find?_eq_some h)

theorem descAt_off_le {key : Nat} {d : RegDesc} (h : descAt key = some d) : d.off ≤ key % 4096 := by
  have hits_off {l : List RegDesc} {o : Nat} (h : l.find? (·.hits o) = some d) : d.off ≤ o := by
    have hh : d.hits o = true := List.find?_some (p := fun x : RegDesc => x.hits o) h
    simp only [RegDesc.hits, Bool.and_eq_true, decide_eq_true_eq] at hh
    exact hh.1
  unfold descAt at h
  split at h
  · cases h
  · split at h <;> exact hits_off h

theorem pageInfo_large {p : Nat} (h : 0x310 ≤ p) : pageInfo p = none := by
  unfold pageInfo
  repeat rw [if_neg (by omega)]

/-- What holds of every register in the tables holds of the register at a key. -/
theorem descAt_of_pages {q : RegDesc → Prop} (hq : ∀ p < 0x310, ∀ d ∈ pageRegs p, q d) {key : Nat} {d : RegDesc} (h : descAt key = some d) : q d := by
  rcases Nat.lt_or_ge (key / 4096) 0x310 with hp | hp
  · exact hq _ hp d (descAt_mem h)
  · have hd := descAt_mem h
    simp [pageRegs, pageInfo_large hp] at hd

/-! ## RC fields -/

/-- Every RC field lies whole within the RC mask of its register. -/
def rcWhole (d : RegDesc) : Bool := d.flds.all (fun f => f.acc != .rc || f.mask &&& d.maskOf (· == .rc) == f.mask)

theorem rcWhole_pages : ∀ p < 0x310, ∀ d ∈ pageRegs p, rcWhole d = true := by decide +kernel

theorem mask_rc {key : Nat} {d : RegDesc} {f : Fld} (hd : descAt key = some d) (hf : f ∈ d.flds) (hrc : f.acc = .rc) :
    f.mask &&& d.maskOf (· == .rc) = f.mask := by
  have hw : rcWhole d = true := descAt_of_pages rcWhole_pages hd
  have hfw := List.all_eq_true.mp hw f hf
  simpa [hrc] using hfw

theorem testBit_mask (f : Fld) (i : Nat) : f.mask.testBit (f.lsb + i) = decide (i < f.msb + 1 - f.lsb) := by
  rw [Fld.mask, mul_comm, Nat.testBit_two_pow_mul, Nat.testBit_two_pow_sub_one, Nat.add_sub_cancel_left, decide_eq_true (Nat.le_add_right _ _),
    Bool.true_and]

/-- Masking out a field leaves 0 in it. -/
theorem getBits_masked_out (w : BitVec 32) (f : Fld) (m : Nat) (hm : f.mask &&& m = f.mask) :
    getBits (w &&& ~~~(BitVec.ofNat 32 m)) f.msb f.lsb = 0 := by
  refine Nat.eq_of_testBit_eq fun i => ?_
  rw [getBits, bits, Nat.zero_testBit, Nat.testBit_mod_two_pow, Nat.testBit_shiftRight, BitVec.testBit_toNat]
  by_cases hi : i < f.msb + 1 - f.lsb
  · have hbit : m.testBit (f.lsb + i) = true := by
      have hb : (f.mask &&& m).testBit (f.lsb + i) = true := by rw [hm, testBit_mask, decide_eq_true hi]
      rw [Nat.testBit_and, Bool.and_eq_true] at hb
      exact hb.2
    simp only [BitVec.getLsbD_and, BitVec.getLsbD_not, BitVec.getLsbD_ofNat, hbit]
    simp
  · rw [decide_eq_false hi, Bool.false_and]

/-- A register without its RC fields reads 0 in each of them. -/
theorem getBits_clearRc {key : Nat} {d : RegDesc} {f : Fld} (hd : descAt key = some d) (hf : f ∈ d.flds) (hrc : f.acc = .rc) (w : BitVec 32) :
    getBits (clearRc key w) f.msb f.lsb = 0 := by
  rw [clearRc, hd]
  exact getBits_masked_out w f _ (mask_rc hd hf hrc)

/-- What RC_READ makes of the common core: the answer, and on a full read of a visible page the register without its RC fields. -/
def rcReadBase (s : State) (h : Nat) (page : BitVec 10) (off : BitVec 12) (be : BitVec 4) : Base :=
  let b := s.base.emit (.readData h page.toNat off.toNat (s.readWord h (regKey page off)))
  if be = 15 ∧ s.base.visible h page.toNat = true then b.setWord (regKey page off) (clearRc (regKey page off) (s.base.word (regKey page off))) else b

theorem exec_rcRead (s : State) (h : Fin 4) (page : BitVec 10) (off : BitVec 12) (be : BitVec 4) :
    exec (.rcRead h page off be) s = .next { s with base := rcReadBase s h page off be } := rfl

theorem rcReadBase_full (s : State) {h : Nat} {page : BitVec 10} (off : BitVec 12) (hvis : s.base.visible h page.toNat = true) :
    rcReadBase s h page off 15 = (s.base.emit (.readData h page.toNat off.toNat (s.readWord h (regKey page off)))).setWord (regKey page off)
      (clearRc (regKey page off) (s.base.word (regKey page off))) := if_pos ⟨rfl, hvis⟩

theorem rcReadBase_partial (s : State) (h : Nat) (page : BitVec 10) (off : BitVec 12) {be : BitVec 4} (hbe : be ≠ 15) :
    rcReadBase s h page off be = s.base.emit (.readData h page.toNat off.toNat (s.readWord h (regKey page off))) := if_neg fun hc => hbe hc.1

theorem out_rcReadBase (s : State) (h : Nat) (page : BitVec 10) (off : BitVec 12) (be : BitVec 4) :
    (rcReadBase s h page off be).out = .readData h page.toNat off.toNat (s.readWord h (regKey page off)) :: s.base.out := by
  unfold rcReadBase
  extract_lets b
  split <;> rfl

/-- Settles O7: a full read stores the register without its RC fields; any other read only answers (R32). -/
theorem rcRegistersClearOnlyOnFullReads : Obligations.RcRegistersClearOnlyOnFullReads := by
  intro s h page off be hvis
  refine ⟨_, exec_rcRead s h page off be, ?_, ?_, ?_, rfl⟩
  · rw [out_rcReadBase]
    rfl
  · rintro rfl d f hd hf hrc
    rw [rcReadBase_full s off hvis, word_setWord_same]
    exact getBits_clearRc hd hf hrc _
  · intro hbe
    rw [rcReadBase_partial s h page off hbe]
    rfl

/-! ## Registers without a staged field -/

theorem touchesRws_of_unstaged {key : Nat} (h : unstaged key = true) (be : BitVec 4) : ∀ d, descAt key = some d → d.touchesRws be = false := by
  intro d hd
  simp only [unstaged, hd, Option.map_some, Option.getD_some, List.all_eq_true, bne_iff_ne] at h
  simp only [RegDesc.touchesRws, List.any_eq_false, Bool.and_eq_true, beq_iff_eq]
  exact fun f hf hrws => h f hf hrws.1

theorem header_fields_unstaged : ∀ p < 0x310, ∀ d ∈ pageRegs p, d.off < 0x40 → ∀ f ∈ d.flds, f.acc ≠ .rws := by decide +kernel

/-- No header register holds a field that waits for a seal. -/
theorem touchesRws_header {p off : Nat} (ho : off < 0x40) (be : BitVec 4) : ∀ d, descAt (hdr p off) = some d → d.touchesRws be = false := by
  intro d hd
  have hoff : d.off < 0x40 := by
    have := descAt_off_le hd
    unfold hdr at this
    omega
  have hf := descAt_of_pages header_fields_unstaged hd hoff
  simp only [RegDesc.touchesRws, List.any_eq_false, Bool.and_eq_true, beq_iff_eq]
  exact fun f hm hrws => hf f hm hrws.1

/-! ## Registers that every host shares -/

theorem hdr_mod {p off : Nat} (ho : off < 4096) : hdr p off % 4096 = off := by unfold hdr; omega

theorem storeKey_shared {key : Nat} (h : perHostReg key = false) (host : Nat) : storeKey host key = key := by
  simp only [storeKey, h, Bool.false_eq_true, if_false]

/-- The registers that each host has a copy of lie beyond the header. -/
theorem storeKey_header {p off : Nat} (ho : off < 0x40) (host : Nat) : storeKey host (hdr p off) = hdr p off := by
  have hper : ∀ k ∈ [Reg.cmpProbeXy, Reg.cmpProbeOut, Reg.frsQuery, Reg.frsQueryAge, Reg.frsQueryBound, Reg.domMapQuery, Reg.domMapEntry,
      Reg.calQuery, Reg.calQueryOut], 0x40 ≤ k % 4096 := by decide
  refine storeKey_shared (Bool.eq_false_iff.mpr fun hk => ?_) host
  have hge := hper _ (List.contains_iff_mem.mp hk)
  rw [hdr_mod (by omega)] at hge
  omega

end Sys2Proof.Proofs

/-! Register writes (R12, R33, R45, R49): what a refused write, a staged write and a taken write come to, and the rows that write a plain register, a quota, UNIT_EVENT, UNIT_FAULT or a query (R46, R54 to R57, R121). -/

namespace Sys2Proof.Proofs

open Sys2Proof Sys2Proof.Machine Sys2Proof.Laws

/-! ## The violation log (R271) -/

/-- The newest entry of a queue after a push is the one pushed, whether the queue was full or not (R448). -/
theorem logPush_newest (b : Base) (i : Nat) (e : LogEntry) : ((b.logPush i e).logq i).waiting.getLast? = some e := by
  simp only [Base.logPush]
  split
  · simp [Base.logq, Base.setLogq]
  · simp [Base.logq, Base.setLogq]

theorem violation_newest (b : Base) {h : Nat} (hh : h < b.nhosts) (p c : Nat) (d : List Byte) :
    ∃ x, ((b.violation h p c d).logq (2 * h + 1)).waiting.getLast? = some x ∧ x.code = c := by
  simp only [Base.violation, if_pos hh]
  exact ⟨_, logPush_newest b _ _, rfl⟩

/-- A violation of a host that is present is the newest entry of its violation log. -/
theorem lastViolation_violation (s : State) {h : Nat} (hh : h < s.base.nhosts) (p c : Nat) (d : List Byte) :
    ∃ x, (s.onBase (·.violation h p c d)).lastViolation h = some x ∧ x.code = c := violation_newest s.base hh p c d

theorem lastViolation_refuse (s : State) {h : Nat} (hh : h < s.base.nhosts) (key c : Nat) (v : BitVec 32) :
    ∃ x, (s.onBase (·.refuse h key c v)).lastViolation h = some x ∧ x.code = c := violation_newest s.base hh _ _ _

theorem host_present {b : Base} {h p : Nat} (hv : b.visible h p = true) : h < b.nhosts := by
  simp only [Base.visible, Bool.and_eq_true, decide_eq_true_eq] at hv
  exact hv.1.2

/-- A log entry touches no register but LOST and the event of the log's page. -/
theorem word_logPush_ne (b : Base) (i : Nat) (e : LogEntry) {k : Nat} (hl : (logLost i).key ≠ k) (he : k % 4096 ≠ 0x18) :
    (b.logPush i e).word k = b.word k := by
  simp only [Base.logPush]
  split
  · rfl
  · rw [word_raise_ne _ _ _ (by unfold hdr; omega), word_count_ne _ _ _ hl]
    rfl

/-! ## What a write comes to -/

theorem accepts_visible {s : State} {key : Nat} {a : RegWr} (ha : s.accepts key a = true) : s.base.visible a.host.toNat (key / 4096) = true := by
  simp only [State.accepts, Bool.and_eq_true] at ha
  obtain ⟨⟨⟨⟨⟨hv, _⟩, _⟩, _⟩, _⟩, _⟩ := ha
  exact hv

theorem accepts_mayWrite {s : State} {key : Nat} {a : RegWr} (ha : s.accepts key a = true) : s.base.mayWrite a.host.toNat key = true := by
  simp only [State.accepts, Bool.and_eq_true] at ha
  obtain ⟨⟨⟨⟨_, hm⟩, _⟩, _⟩, _⟩ := ha
  exact hm

theorem accepts_host {s : State} {key : Nat} {a : RegWr} (ha : s.accepts key a = true) : a.host.toNat < s.base.nhosts :=
  host_present (accepts_visible ha)

/-- A write of a register that the host does not see is refused as HIDDEN (R33). -/
theorem write_hidden (s : State) (key : Nat) (a : RegWr) (k : Nat → Nat → Nat → State → State)
    (hv : s.base.visible a.host.toNat (key / 4096) = false) :
    s.write key a k = s.onBase (·.violation a.host.toNat (key / 4096) vHIDDEN (leBytes 2 (key / 4096) ++ leBytes 2 (key % 4096))) := by
  simp only [State.write, Base.regWrite, hv, Bool.false_eq_true, if_false]
  rfl

/-- A write without the right is refused as NOT_PERMITTED (R45). -/
theorem write_denied (s : State) (key : Nat) (a : RegWr) (k : Nat → Nat → Nat → State → State)
    (hv : s.base.visible a.host.toNat (key / 4096) = true) (hw : ((descAt key).map RegDesc.writable).getD false = true)
    (hm : s.base.mayWrite a.host.toNat key = false) : s.write key a k = s.onBase (·.refuse a.host.toNat key vNOTPERM a.val) := by
  obtain ⟨d, hd, hdw⟩ : ∃ d, descAt key = some d ∧ d.writable = true := by
    cases hd : descAt key with
    | none => simp [hd] at hw
    | some d => exact ⟨d, rfl, by simpa [hd] using hw⟩
  simp only [State.write, Base.regWrite, hv, if_true, hd, hdw, Bool.not_true, Bool.false_eq_true, if_false, hm, Bool.not_false]
  rfl

/-- A taken write of a register with staged fields in the enabled bytes stores its plain fields, stages the others, and has its effect (R49). -/
theorem write_staged (s : State) (key : Nat) (a : RegWr) (k : Nat → Nat → Nat → State → State) (ha : s.accepts key a = true)
    {d : RegDesc} (hd : descAt key = some d) (hr : d.touchesRws a.be = true) :
    s.write key a k = k (s.applied key a).act (s.base.word (storeKey a.host.toNat key)).toNat (s.applied key a).word
      ((s.stored key a).stageRws a.host.toNat key (s.applied key a).staged) := by
  have hap : s.applied key a = applyWrite d (s.base.word (storeKey a.host.toNat key)).toNat (s.sealWord key).toNat a := by
    simp only [State.applied, hd]
  simp only [State.accepts, hd, hap, Bool.and_eq_true, Bool.not_eq_true', Option.map_some, Option.getD_some] at ha
  obtain ⟨⟨⟨⟨⟨hv, hw⟩, hm⟩, hb⟩, hrb⟩, hc⟩ := ha
  simp only [State.write, Base.regWrite, hv, if_true, hd, hw, Bool.not_true, Bool.false_eq_true, if_false, hm, hc, Bool.false_and, hb, hrb,
    Bool.or_self, hr, State.stored, hap]
  rfl

/-! ## The state with a word stored -/

theorem word_stored_same (s : State) {key : Nat} (a : RegWr) (hs : storeKey a.host.toNat key = key) :
    (s.stored key a).base.word key = BitVec.ofNat 32 (s.applied key a).word := by
  rw [State.stored, hs, onBase_base, word_setWord_same]

theorem word_stored_ne (s : State) {key : Nat} (a : RegWr) (hs : storeKey a.host.toNat key = key) {k : Nat} (hk : key ≠ k) :
    (s.stored key a).base.word k = s.base.word k := by
  rw [State.stored, hs, onBase_base, word_setWord_ne _ _ hk]

theorem get_stored_ne (s : State) {key : Nat} (a : RegWr) (hs : storeKey a.host.toNat key = key) {f : FieldRef} (hk : key ≠ f.key) :
    (s.stored key a).base.get f = s.base.get f := by
  rw [Base.get, word_stored_ne s a hs hk, ← Base.get]

theorem flag_stored_ne (s : State) {key : Nat} (a : RegWr) (hs : storeKey a.host.toNat key = key) {f : FieldRef} (hk : key ≠ f.key) :
    (s.stored key a).base.flag f = s.base.flag f := by
  rw [Base.flag, get_stored_ne s a hs hk, ← Base.flag]

/-! ## REGISTER_WRITE (R31) -/

theorem regKey_div (page : BitVec 10) (off : BitVec 12) : regKey page off / 4096 = page.toNat := by
  have := off.isLt
  unfold regKey
  omega

theorem regKey_mod (page : BitVec 10) (off : BitVec 12) : regKey page off % 4096 = off.toNat / 4 * 4 := by
  have := off.isLt
  unfold regKey
  omega

/-- The pages whose registers, but for three, have no behaviour of their own under a write, and those past the last page. -/
theorem regWriteAt_ordinary (s : State) (key : Nat) (a : RegWr) (ho : 0x40 ≤ key % 4096)
    (hp : key / 4096 = 0x041 ∨ key / 4096 = 0x042 ∨ key / 4096 = 0x043 ∨ key / 4096 = 0x080 ∨ 0x300 ≤ key / 4096)
    (hprobe : key ≠ Reg.cmpProbeXy) (hquery : key ≠ Reg.frsQuery) (hnode : key ≠ Reg.scoOdData) : s.regWriteAt key a = s.plainWrite key a := by
  have hother {k : Nat} (hk : k / 4096 = 0x048 ∨ k / 4096 = 0x090 ∨ k / 4096 = 0x100) : key ≠ k := by
    rintro rfl
    omega
  have hunit : s.writeUnit key a = s.plainWrite key a := by
    simp only [State.writeUnit, if_neg hprobe, if_neg hquery, if_neg hnode, if_neg (hother (k := Reg.pnlCtrl) (by decide)),
      if_neg (hother (k := Reg.blfBank) (by decide)), if_neg (hother (k := Reg.blfTemp) (by decide)),
      if_neg (hother (k := Reg.blfCrc0) (by decide)), if_neg (hother (k := Reg.blfCrc1) (by decide)),
      if_neg (hother (k := Reg.sprLimits) (by decide)), pgBLF]
    repeat rw [if_neg (by omega)]
  simp only [State.regWriteAt, hunit]
  repeat rw [if_neg (by omega)]

theorem plainKey_iff (key : Nat) : plainKey key = true ↔ 0x40 ≤ key % 4096 ∧
    (key / 4096 = 0x041 ∨ key / 4096 = 0x042 ∨ key / 4096 = 0x043 ∨ key / 4096 = 0x080) ∧
    key ≠ Reg.cmpProbeXy ∧ key ≠ Reg.frsQuery ∧ key ≠ Reg.scoOdData := by
  simp only [plainKey, Bool.and_eq_true, decide_eq_true_eq, Bool.not_eq_true', List.contains_eq_mem, List.mem_cons, List.not_mem_nil, or_false,
    decide_eq_false_iff_not, not_or, and_assoc]

theorem regWriteAt_plain (s : State) {key : Nat} (a : RegWr) (hk : plainKey key = true) : s.regWriteAt key a = s.plainWrite key a := by
  obtain ⟨ho, hp, hprobe, hquery, hnode⟩ := (plainKey_iff key).mp hk
  exact regWriteAt_ordinary s key a ho (by omega) hprobe hquery hnode

/-- No log's LOST counter lies in the pages of `plainKey`. -/
theorem plainKey_lost {key : Nat} (hk : plainKey key = true) (h : Fin 4) : (logLost (2 * h + 1)).key ≠ key := by
  obtain ⟨_, hp, _⟩ := (plainKey_iff key).mp hk
  have hlost : (logLost (2 * h + 1)).key / 4096 < 0x20 := by revert h; decide
  intro he
  rw [he] at hlost
  omega

theorem plainWrite_taken (s : State) {key : Nat} (a : RegWr) (ha : s.accepts key a = true) (hu : unstaged key = true) :
    s.plainWrite key a = s.stored key a := write_accepted s key a _ ha (touchesRws_of_unstaged hu a.be)

/-- A violation of a host leaves a register that is neither an event register nor a LOST counter. -/
theorem word_violation_ne (b : Base) (h p c : Nat) (d : List Byte) {k : Nat} (hl : (logLost (2 * h + 1)).key ≠ k) (he : k % 4096 ≠ 0x18) :
    (b.violation h p c d).word k = b.word k := by
  simp only [Base.violation]
  split
  · exact word_logPush_ne b _ _ hl he
  · rfl

theorem registerWrite_taken (s : State) (page : BitVec 10) (off : BitVec 12) (a : RegWr) (hk : plainKey (regKey page off) = true)
    (ha : s.accepts (regKey page off) a = true) (hu : unstaged (regKey page off) = true) :
    exec (.registerWrite page off a) s = .next (s.stored (regKey page off) a) := by
  show Host.Outcome.next (s.regWriteAt (regKey page off) a) = _
  rw [regWriteAt_plain s a hk, plainWrite_taken s a ha hu]

theorem registerWrite_denied (s : State) (page : BitVec 10) (off : BitVec 12) (a : RegWr) (hk : plainKey (regKey page off) = true)
    (hv : s.base.visible a.host.toNat page.toNat = true) (hw : ((descAt (regKey page off)).map RegDesc.writable).getD false = true)
    (hm : s.base.mayWrite a.host.toNat (regKey page off) = false) :
    ∃ t x, exec (.registerWrite page off a) s = .next t ∧ t.lastViolation a.host.toNat = some x ∧ x.code = vNOTPERM ∧
      t.base.word (regKey page off) = s.base.word (regKey page off) ∧ t = { s with base := t.base } := by
  have hrow : s.regWriteAt (regKey page off) a = s.onBase (·.refuse a.host.toNat (regKey page off) vNOTPERM a.val) := by
    rw [regWriteAt_plain s a hk]
    exact write_denied s _ a _ (by rw [regKey_div]; exact hv) hw hm
  obtain ⟨x, hx, hc⟩ := lastViolation_refuse s (host_present hv) (regKey page off) vNOTPERM a.val
  refine ⟨_, x, congrArg Host.Outcome.next hrow, hx, hc, ?_, rfl⟩
  obtain ⟨ho, _⟩ := (plainKey_iff _).mp hk
  exact word_violation_ne _ _ _ _ _ (plainKey_lost hk a.host) (by omega)

theorem registerWrite_hidden (s : State) (page : BitVec 10) (off : BitVec 12) (a : RegWr) (hp : 0x300 ≤ page.toNat) (hnone : pageInfo page.toNat = none)
    (ho : 0x40 ≤ off.toNat) (hh : a.host.toNat < s.base.nhosts) :
    ∃ t x, exec (.registerWrite page off a) s = .next t ∧ t.lastViolation a.host.toNat = some x ∧ x.code = vHIDDEN ∧ t = { s with base := t.base } := by
  have hdiv := regKey_div page off
  have hmod := regKey_mod page off
  have hv : s.base.visible a.host.toNat (regKey page off / 4096) = false := by
    rw [hdiv, Base.visible, Base.present, hnone]
    rfl
  have hrow : s.regWriteAt (regKey page off) a = s.onBase (·.violation a.host.toNat (regKey page off / 4096) vHIDDEN
      (leBytes 2 (regKey page off / 4096) ++ leBytes 2 (regKey page off % 4096))) := by
    rw [regWriteAt_ordinary s _ a (by omega) (by omega) (by unfold Reg.cmpProbeXy; omega) (by unfold Reg.frsQuery; omega) (by unfold Reg.scoOdData; omega)]
    exact write_hidden s _ a _ hv
  obtain ⟨x, hx, hc⟩ := lastViolation_violation s hh (regKey page off / 4096) vHIDDEN _
  exact ⟨_, x, congrArg Host.Outcome.next hrow, hx, hc, rfl⟩

/-! ## Quotas (R121) -/

theorem quotaOf_mem {off r : Nat} (h : quotaOf off = some r) : off ∈ [0x100, 0x104, 0x108, 0x10C, 0x110, 0x114, 0x118, 0x11C] := by
  simp only [List.mem_cons, List.not_mem_nil, or_false]
  by_contra hne
  unfold quotaOf at h
  repeat rw [if_neg (by omega)] at h
  cases h

theorem quota_registers : ∀ h : Fin 4, ∀ off ∈ [0x100, 0x104, 0x108, 0x10C, 0x110, 0x114, 0x118, 0x11C],
    unstaged (hdr (pgCMD h) off) = true ∧ ∀ g : Fin 4, (logLost (2 * g + 1)).key ≠ hdr (pgCMD h) off := by decide +kernel

theorem quotaWrite_eq (s : State) (h : Fin 4) (off : BitVec 12) (a : RegWr) {r : Nat} (hr : quotaOf (off.toNat / 4 * 4) = some r)
    (ha : s.accepts (hdr (pgCMD h) (off.toNat / 4 * 4)) a = true) :
    exec (.quotaWrite h off a) s = .next (if (s.stored (hdr (pgCMD h) (off.toNat / 4 * 4)) a).quotaBad r = true
      then s.onBase (·.refuse a.host.toNat (hdr (pgCMD h) (off.toNat / 4 * 4)) vNOTPERM a.val) else s.stored (hdr (pgCMD h) (off.toNat / 4 * 4)) a) := by
  have htaken := plainWrite_taken s a ha (quota_registers h _ (quotaOf_mem hr)).1
  show Host.Outcome.next (s.quotaWrite h.val (off.toNat / 4 * 4) a) = _
  simp only [State.quotaWrite, hr, State.guardedWrite, htaken, accepts_visible ha, accepts_mayWrite ha, Bool.and_true]
  exact congrArg _ (congrArg _ htaken)

theorem quotaWrite_refused (s : State) (h : Fin 4) (off : BitVec 12) (a : RegWr) {r : Nat} (hr : quotaOf (off.toNat / 4 * 4) = some r)
    (ha : s.accepts (hdr (pgCMD h) (off.toNat / 4 * 4)) a = true) (hbad : (s.stored (hdr (pgCMD h) (off.toNat / 4 * 4)) a).quotaBad r = true) :
    ∃ t x, exec (.quotaWrite h off a) s = .next t ∧ t.lastViolation a.host.toNat = some x ∧ x.code = vNOTPERM ∧
      t.base.word (hdr (pgCMD h) (off.toNat / 4 * 4)) = s.base.word (hdr (pgCMD h) (off.toNat / 4 * 4)) ∧ t = { s with base := t.base } := by
  obtain ⟨x, hx, hc⟩ := lastViolation_refuse s (accepts_host ha) (hdr (pgCMD h) (off.toNat / 4 * 4)) vNOTPERM a.val
  refine ⟨_, x, (quotaWrite_eq s h off a hr ha).trans (congrArg _ (if_pos hbad)), hx, hc, ?_, rfl⟩
  have hoff := off.isLt
  have hmem := quotaOf_mem hr
  refine word_violation_ne _ _ _ _ _ ((quota_registers h _ hmem).2 a.host) ?_
  rw [hdr_mod (by omega)]
  intro he
  rw [he] at hmem
  exact absurd hmem (by decide)

/-! ## UNIT_EVENT and UNIT_FAULT (R56, R57) -/

theorem link_msix_unmasked (b : Base) (h v k : Nat) : ((b.msix h v).link k).unmasked = (b.link k).unmasked := by
  unfold Base.msix
  split
  · rfl
  · simp only [Base.link, Base.setLink, sget_sput]
    split
    · rename_i hk
      rw [hk]
    · rfl

/-- A message whose link can send and whose vector is not masked is sent (R445). -/
theorem msixAll_sends {l : List (Nat × Nat)} {b : Base} {h v : Nat} (hm : (h, v) ∈ l) (hs : b.canSend h = true)
    (hu : (b.link h).unmasked.contains v = true) : .msix h v ∈ (b.msixAll l).out := by
  induction l generalizing b with
  | nil => cases hm
  | cons e r ih =>
    rcases List.mem_cons.mp hm with rfl | hm
    · refine (calm_msixAll r (b.msix h v)).out _ ?_
      simp only [Base.msix, hs, hu, Bool.and_self, if_true]
      exact List.mem_cons_self
    · exact ih hm (((calm_msix b e.1 e.2).send h).trans hs) (by rw [link_msix_unmasked]; exact hu)

/-- After a write of UNIT_EVENT, an enabled FAULT that remains is announced on vector 0 to every host of the page. -/
theorem mem_eventMsgs_fault (b : Base) {p old new h : Nat} (hh : h ∈ b.dests p) (hf : new.testBit 1 = true) : (h, 0) ∈ b.eventMsgs p old new true := by
  refine List.mem_flatMap.mpr ⟨h, hh, List.mem_append_left _ ?_⟩
  simp [onVector0, hf]

theorem dests_setWord (b : Base) {k : Nat} (v : BitVec 32) (p : Nat) (hk : k ≠ hdr p 0x2C) : (b.setWord k v).dests p = b.dests p := by
  simp only [Base.dests, setWord_nhosts, setWord_owner, word_setWord_ne b v hk]

theorem unitEventClear_taken (s : State) (page : BitVec 10) (a : RegWr) (ha : s.accepts (hdr page.toNat 0x18) a = true) :
    ∃ t, exec (.unitEventClear page a) s = .next t ∧ t.base.word (hdr page.toNat 0x18) = BitVec.ofNat 32 (s.applied (hdr page.toNat 0x18) a).word ∧
      (∀ h ∈ s.base.dests page.toNat, (t.base.active page.toNat).testBit 1 = true → s.base.canSend h = true →
        (s.base.link h).unmasked.contains 0 = true → .msix h 0 ∈ t.base.out) ∧ t = { s with base := t.base } := by
  have hs := storeKey_header (p := page.toNat) (off := 0x18) (by decide) a.host.toNat
  refine ⟨_, congrArg Host.Outcome.next (write_accepted s _ a _ ha (touchesRws_header (by decide) a.be)), ?_, ?_, rfl⟩
  · rw [onBase_base, word_msixAll, word_stored_same s a hs]
  · intro h hh hf hc hu
    rw [onBase_base] at hf ⊢
    rw [Base.active, word_msixAll, word_msixAll, ← Base.active] at hf
    refine msixAll_sends (mem_eventMsgs_fault _ ?_ hf) hc hu
    rw [State.stored, onBase_base, hs, dests_setWord _ _ _ (by unfold hdr; omega)]
    exact hh

theorem unitFaultClear_taken (s : State) (page : BitVec 10) (a : RegWr) (ha : s.accepts (hdr page.toNat 0x24) a = true)
    (hold : (s.base.word (hdr page.toNat 0x24)).toNat.testBit 31 = true) (hnew : (s.applied (hdr page.toNat 0x24) a).word.testBit 31 = false) :
    ∃ t, exec (.unitFaultClear page a) s = .next t ∧ t.base.word (hdr page.toNat 0x24) = 0 ∧ t = { s with base := t.base } := by
  have hs := storeKey_header (p := page.toNat) (off := 0x24) (by decide) a.host.toNat
  have hrow : s.faultWrite page.toNat a = (s.stored (hdr page.toNat 0x24) a).onBase (·.setWord (hdr page.toNat 0x24) 0) := by
    rw [State.faultWrite, write_accepted s _ a _ ha (touchesRws_header (by decide) a.be), hs, hold, hnew]
    rfl
  exact ⟨_, congrArg Host.Outcome.next hrow, by rw [onBase_base, word_setWord_same], rfl⟩

/-! ## Queries (R46) -/

theorem mem_setInsert (l : List Nat) (k : Nat) : k ∈ setInsert l k := by
  induction l with
  | nil => exact List.mem_singleton_self k
  | cons j r ih =>
    simp only [setInsert]
    split
    · exact List.mem_cons_self
    · split
      · rename_i hk
        exact hk ▸ List.mem_cons_self
      · exact List.mem_cons_of_mem _ ih

theorem unstaged_queryReg (q : Query) : unstaged (queryReg q) = true := by cases q <;> decide +kernel

/-- A taken write of a query register starts the query: VALID of the host's copy of the result reads 0. -/
theorem queryWrite_taken (s : State) (q : Query) (a : RegWr) (ha : s.accepts (queryReg q) a = true) :
    ∃ t, s.queryWrite q a = t ∧ 4 * a.host.toNat + queryNum q ∈ t.queries ∧
      t.base.flag ⟨hostCopy a.host.toNat (queryOut q), 31, 31⟩ = false ∧ t = { s with queries := t.queries, base := t.base } := by
  refine ⟨_, write_accepted s _ a _ ha (touchesRws_of_unstaged (unstaged_queryReg q) a.be), mem_setInsert _ _, ?_, rfl⟩
  exact flag_putFlag_same _ _ false rfl (show (31 : Nat) ≤ 31 by decide)

/-- The first result word of a query. -/
def queryWord (s : State) (h : Nat) (q : Query) : Nat :=
  match q with | .probe => s.probeWord h | .frs => (s.frsWords h).1 | .domMap => s.mapWord h | .cal => s.trimWord h

theorem frsQuery_copies_ne (h : Nat) : hostCopy h Reg.frsQueryBound ≠ hostCopy h Reg.frsQueryAge := by
  simp only [hostCopy, Reg.frsQueryBound, Reg.frsQueryAge]
  omega

/-- Stated for any two registers: at a register's own key the kernel would compare two states by computing the register file. -/
theorem onBase_onBase_setWord (s : State) (k j : Nat) (v w : BitVec 32) :
    (s.onBase (·.setWord k v)).onBase (·.setWord j w) = { s with base := (s.base.setWord k v).setWord j w } := rfl

/-- What QUERY_RESULT makes of the common core: the result in the host's copy, and VALID with it. -/
def queryBase (s : State) (h : Nat) (q : Query) : Base :=
  let b := s.base.setWord (hostCopy h (queryOut q)) (BitVec.ofNat 32 (queryWord s h q))
  match q with
  | .frs => b.setWord (hostCopy h Reg.frsQueryBound) (BitVec.ofNat 32 (s.frsWords h).2)
  | _ => b

theorem queryResultRow_eq (s : State) (h : Nat) (q : Query) (hq : s.queries.contains (4 * (h : Nat) + queryNum q) = true) :
    s.queryResultRow h q = { s with queries := setErase s.queries (4 * (h : Nat) + queryNum q), base := queryBase s h q } := by
  unfold State.queryResultRow
  rw [hq]
  cases q
  case frs => exact onBase_onBase_setWord { s with queries := setErase s.queries (4 * h + 1) } (hostCopy h Reg.frsQueryAge) (hostCopy h Reg.frsQueryBound) _ _
  all_goals rfl

theorem word_queryBase (s : State) (h : Nat) (q : Query) : (queryBase s h q).word (hostCopy h (queryOut q)) = BitVec.ofNat 32 (queryWord s h q) := by
  unfold queryBase
  extract_lets b
  have hb : b.word (hostCopy h (queryOut q)) = BitVec.ofNat 32 (queryWord s h q) := word_setWord_same _ _ _
  split
  · rw [queryOut, word_setWord_ne _ _ (frsQuery_copies_ne h)]
    exact hb
  · exact hb

theorem queryResult_next (s : State) (h : Fin 4) (q : Query) (hq : s.queries.contains (4 * (h : Nat) + queryNum q) = true) :
    ∃ t, exec (.queryResult h q) s = .next t ∧ t.queries = setErase s.queries (4 * (h : Nat) + queryNum q) ∧
      t.base.word (hostCopy h (queryOut q)) = BitVec.ofNat 32 (queryWord s h q) ∧ t = { s with queries := t.queries, base := t.base } :=
  ⟨_, congrArg Host.Outcome.next (queryResultRow_eq s h q hq), rfl, word_queryBase s h q, rfl⟩

/-! ## Reads (R32, R574) -/

theorem word_rcReadBase (s : State) (h : Nat) (page : BitVec 10) (off : BitVec 12) (be : BitVec 4) :
    (rcReadBase s h page off be).word (regKey page off) = if be = 15 ∧ s.base.visible h page.toNat = true
      then clearRc (regKey page off) (s.base.word (regKey page off)) else s.base.word (regKey page off) := by
  unfold rcReadBase
  extract_lets b
  split
  · rw [word_setWord_same]
  · rfl

theorem rcRead_next (s : State) (h : Fin 4) (page : BitVec 10) (off : BitVec 12) (be : BitVec 4) :
    ∃ t, exec (.rcRead h page off be) s = .next t ∧ t.base.out = .readData h page.toNat off.toNat (s.readWord h (regKey page off)) :: s.base.out ∧
      t.base.word (regKey page off) = (if be = 15 ∧ s.base.visible h page.toNat = true then clearRc (regKey page off) (s.base.word (regKey page off))
        else s.base.word (regKey page off)) ∧ t = { s with base := t.base } :=
  ⟨_, exec_rcRead s h page off be, out_rcReadBase s h page off be, word_rcReadBase s h page off be, rfl⟩

/-- What SIDEBAND_READ answers: nothing without power, and else what the sideband target reads, with its PEC. -/
theorem exec_sidebandRead (s : State) (page : BitVec 10) (off : BitVec 12) :
    exec (.sidebandRead page off) s = .next (s.onBase (·.emit (.sideband (if s.pwr.off = true then none
      else some (s.sidebandWord page.toNat off.toNat, s.sidebandPec page.toNat off.toNat (s.sidebandWord page.toNat off.toNat)))))) := by
  show Host.Outcome.next (s.sidebandRow page.toNat off.toNat) = _
  unfold State.sidebandRow
  split <;> rfl

theorem sidebandWord_on (s : State) {page : BitVec 10} (off : BitVec 12) (hon : s.pageOn page.toNat = true) :
    s.sidebandWord page.toNat off.toNat = s.readWord s.base.owner (regKey page off) := if_pos hon

theorem sidebandWord_off (s : State) {page : BitVec 10} (off : BitVec 12) (hoff : s.pageOn page.toNat = false) :
    s.sidebandWord page.toNat off.toNat = 0 := if_neg (ne_true_of_eq_false hoff)

theorem sidebandRead_next (s : State) (page : BitVec 10) (off : BitVec 12) :
    (s.pwr.off = true → exec (.sidebandRead page off) s = .next (s.onBase (·.emit (.sideband none)))) ∧
    (s.pwr.off = false → s.pageOn page.toNat = false →
      exec (.sidebandRead page off) s = .next (s.onBase (·.emit (.sideband (some (0, s.sidebandPec page.toNat off.toNat 0)))))) ∧
    (s.pwr.off = false → s.pageOn page.toNat = true →
      exec (.sidebandRead page off) s = .next (s.onBase (·.emit (.sideband (some (s.readWord s.base.owner (regKey page off),
        s.sidebandPec page.toNat off.toNat (s.readWord s.base.owner (regKey page off)))))))) := by
  rw [exec_sidebandRead]
  refine ⟨fun hp => ?_, fun hp hoff => ?_, fun hp hon => ?_⟩
  · rw [if_pos hp]
  · rw [if_neg (ne_true_of_eq_false hp), sidebandWord_off s off hoff]
  · rw [if_neg (ne_true_of_eq_false hp), sidebandWord_on s off hon]

/-- Settles O51: each row by what its write or read comes to (R31 to R34, R45, R46, R54 to R57, R121, R574). -/
theorem registersAreWrittenReadAndRefused : Obligations.RegistersAreWrittenReadAndRefused :=
  ⟨fun s page off a hk => ⟨registerWrite_taken s page off a hk, registerWrite_denied s page off a hk⟩,
    registerWrite_hidden,
    fun s h off a _ hr ha => ⟨fun hok => (quotaWrite_eq s h off a hr ha).trans (congrArg _ (if_neg (ne_true_of_eq_false hok))), quotaWrite_refused s h off a hr ha⟩,
    unitEventClear_taken, unitFaultClear_taken,
    fun s a => ⟨fun ha => (queryWrite_taken s .probe a ha).imp fun _ ht => ht.imp_left (congrArg _),
      fun ha => (queryWrite_taken s .frs a ha).imp fun _ ht => ht.imp_left (congrArg _),
      fun ha => (queryWrite_taken s .domMap a ha).imp fun _ ht => ht.imp_left (congrArg _),
      fun ha => (queryWrite_taken s .cal a ha).imp fun _ ht => ht.imp_left (congrArg _)⟩,
    queryResult_next, rcRead_next, sidebandRead_next⟩

end Sys2Proof.Proofs

/-! The configuration transaction (R47 to R53, R586): what OPEN, COMMIT, ABORT and a write of staged fields come to, in the fields of CFG_STATUS and the staged copy. -/

namespace Sys2Proof.Proofs

open Sys2Proof Sys2Proof.Machine Sys2Proof.Laws

/-! ## Changes of the transaction alone -/

/-- Two states that differ in the configuration transaction and their common core only. -/
def CfgOnly (s t : State) : Prop := t = { s with cfg := t.cfg, base := t.base }

theorem CfgOnly.trans {s t u : State} (h1 : CfgOnly s t) (h2 : CfgOnly t u) : CfgOnly s u := by
  unfold CfgOnly at *
  rw [h2, h1]

theorem cfgOnly_onBase (s : State) (f : Base → Base) : CfgOnly s (s.onBase f) := rfl
theorem cfgOnly_cfg (s : State) (c : Cfg) : CfgOnly s { s with cfg := c } := rfl

/-! ## The fields of CFG_STATUS -/

theorem flag_put_ne (b : Base) (f g : FieldRef) (v : Nat) (h : FieldOk f) (hg : FieldOk g) (hd : f.msb < g.lsb ∨ g.msb < f.lsb) :
    (b.put f v).flag g = b.flag g := by
  rw [Base.flag, get_put_ne b f g v h hg hd, ← Base.flag]

theorem fieldOk_open : FieldOk Reg.cfgStatus_OPEN := ⟨by decide, by decide⟩
theorem fieldOk_sealed : FieldOk Reg.cfgStatus_SEALED := ⟨by decide, by decide⟩
theorem fieldOk_holder : FieldOk Reg.cfgStatus_HOLDER := ⟨by decide, by decide⟩
theorem fieldOk_last : FieldOk Reg.cfgStatus_LAST := ⟨by decide, by decide⟩
theorem fieldOk_staged : FieldOk Reg.cfgStatus_STAGED := ⟨by decide, by decide⟩

/-- CFG_STATUS as an OPEN leaves it. -/
theorem opened_fields (b : Base) {h : Nat} (hh : h < 4) :
    (((b.putFlag Reg.cfgStatus_OPEN true).put Reg.cfgStatus_HOLDER h).put Reg.cfgStatus_STAGED 0).flag Reg.cfgStatus_OPEN = true ∧
    (((b.putFlag Reg.cfgStatus_OPEN true).put Reg.cfgStatus_HOLDER h).put Reg.cfgStatus_STAGED 0).get Reg.cfgStatus_HOLDER = h ∧
    (((b.putFlag Reg.cfgStatus_OPEN true).put Reg.cfgStatus_HOLDER h).put Reg.cfgStatus_STAGED 0).get Reg.cfgStatus_STAGED = 0 := by
  refine ⟨?_, ?_, ?_⟩
  · rw [flag_put_ne _ _ _ _ fieldOk_staged fieldOk_open (by decide), flag_put_ne _ _ _ _ fieldOk_holder fieldOk_open (by decide)]
    exact flag_putFlag_same b _ true rfl (by decide)
  · rw [get_put_ne _ _ _ _ fieldOk_staged fieldOk_holder (by decide), get_put_same _ _ _ fieldOk_holder]
    exact Nat.mod_eq_of_lt hh
  · rw [get_put_same _ _ _ fieldOk_staged]
    rfl

/-- CFG_STATUS and the root's events as the end of a transaction leaves them. -/
def endedBase (b : Base) (status : Nat) : Base :=
  ((((b.put Reg.cfgStatus_LAST status).putFlag Reg.cfgStatus_OPEN false).putFlag Reg.cfgStatus_SEALED false).put Reg.cfgStatus_STAGED 0).raise 0 16

theorem last_endedBase (b : Base) {status : Nat} (hst : status < 256) : (endedBase b status).get Reg.cfgStatus_LAST = status := by
  rw [endedBase, get_raise_unit _ _ _ _ (by decide), get_put_ne _ _ _ _ fieldOk_staged fieldOk_last (by decide), Base.putFlag,
    get_put_ne _ _ _ _ fieldOk_sealed fieldOk_last (by decide), Base.putFlag, get_put_ne _ _ _ _ fieldOk_open fieldOk_last (by decide),
    get_put_same _ _ _ fieldOk_last]
  exact Nat.mod_eq_of_lt hst

theorem open_endedBase (b : Base) (status : Nat) : (endedBase b status).flag Reg.cfgStatus_OPEN = false := by
  rw [endedBase, Base.flag, get_raise_unit _ _ _ _ (by decide), ← Base.flag, flag_put_ne _ _ _ _ fieldOk_staged fieldOk_open (by decide),
    Base.putFlag, flag_put_ne _ _ _ _ fieldOk_sealed fieldOk_open (by decide)]
  exact flag_putFlag_same _ _ false rfl (by decide)

/-- An event that is raised is pending in the page's register. -/
theorem raise_pending (b : Base) (p : Nat) {n : Nat} (hn : n < 32) : ((b.raise p n).word (hdr p 0x18)).toNat.testBit n = true := by
  have hbit : 2 ^ n % 2 ^ 32 = 2 ^ n := Nat.mod_eq_of_lt (Nat.pow_lt_pow_right (by decide) hn)
  rw [word_raise, if_pos rfl, BitVec.toNat_or, BitVec.toNat_ofNat, hbit, Nat.testBit_or, Nat.testBit_two_pow_self, Bool.or_true]

/-- What the end of a configuration transaction leaves (R47, R52, R53). -/
theorem cfgEnd_spec (s : State) {status : Nat} (hst : status < 256) :
    (s.cfgEnd status).base.get Reg.cfgStatus_LAST = status ∧ (s.cfgEnd status).base.flag Reg.cfgStatus_OPEN = false ∧
      (s.cfgEnd status).cfg.staged = [] ∧ (s.cfgEnd status).hasEvent 0 16 = true ∧
      CfgOnly s (s.cfgEnd status) := by
  have hb : (s.cfgEnd status).base = endedBase s.base status := rfl
  refine ⟨hb ▸ last_endedBase s.base hst, hb ▸ open_endedBase s.base status, rfl, ?_, rfl⟩
  rw [State.hasEvent, hb]
  exact raise_pending _ 0 (by decide)

/-! ## Writes of CFG_CTRL (R48, R50) -/

theorem storeKey_cfgCtrl (h : Nat) : storeKey h Reg.cfgCtrl = Reg.cfgCtrl := storeKey_shared (by decide) h

/-- CFG_STATUS does not feel that WHEN and STRICT are stored. -/
theorem get_cfgStatus_stored (s : State) (a : RegWr) {f : FieldRef} (hf : f.key = Reg.cfgStatus) :
    (s.stored Reg.cfgCtrl a).base.get f = s.base.get f :=
  get_stored_ne s a (storeKey_cfgCtrl _) (by rw [hf]; decide)

theorem flag_cfgStatus_stored (s : State) (a : RegWr) {f : FieldRef} (hf : f.key = Reg.cfgStatus) :
    (s.stored Reg.cfgCtrl a).base.flag f = s.base.flag f := by
  rw [Base.flag, get_cfgStatus_stored s a hf, ← Base.flag]

theorem holdsCfg_stored (s : State) (a : RegWr) (h : Nat) : (s.stored Reg.cfgCtrl a).holdsCfg h = s.holdsCfg h := by
  simp only [State.holdsCfg, Base.holdsOpen, flag_cfgStatus_stored s a (f := Reg.cfgStatus_OPEN) rfl,
    get_cfgStatus_stored s a (f := Reg.cfgStatus_HOLDER) rfl]

/-- The operation that a write of CFG_CTRL names. -/
def cfgOp (s : State) (a : RegWr) : Nat := bits (s.applied Reg.cfgCtrl a).act 1 0

/-- What an allowed operation does to the state with WHEN and STRICT stored. -/
def cfgActs (x : State) (h op : Nat) : State :=
  match op with
  | 1 => x.cfgOpens h
  | 2 => x.cfgCommits h
  | 3 => x.cfgAborts h
  | _ => x

/-- A taken write of CFG_CTRL: an operation that is not allowed now is refused and stores nothing. -/
theorem cfgCtrlWrite_taken (s : State) (a : RegWr) (ha : s.accepts Reg.cfgCtrl a = true) :
    s.cfgCtrlWrite a = if s.cfgOpBad a.host.toNat (cfgOp s a) then s.cfgRefuse a.host.toNat (cfgOp s a) 0 0
      else cfgActs (s.stored Reg.cfgCtrl a) a.host.toNat (cfgOp s a) :=
  write_accepted s Reg.cfgCtrl a _ ha (touchesRws_of_unstaged (by decide +kernel) a.be)

/-! ## OPEN -/

theorem cfgOpens_free (s : State) {h : Nat} (ho : s.base.flag Reg.cfgStatus_OPEN = false) (hs : s.base.flag Reg.cfgStatus_SEALED = false) (hh : h < 4) :
    (s.cfgOpens h).base.flag Reg.cfgStatus_OPEN = true ∧ (s.cfgOpens h).base.get Reg.cfgStatus_HOLDER = h ∧
      (s.cfgOpens h).base.get Reg.cfgStatus_STAGED = 0 ∧ (s.cfgOpens h).cfg.staged = [] ∧ (s.cfgOpens h).cfg.target = none ∧
      CfgOnly s (s.cfgOpens h) := by
  simp only [State.cfgOpens, ho, hs, Bool.or_self, Bool.false_eq_true, if_false]
  obtain ⟨hopen, hholder, hstaged⟩ := opened_fields s.base hh
  exact ⟨hopen, hholder, hstaged, rfl, rfl, rfl⟩

theorem cfgOpen_taken (s : State) (a : RegWr) (ha : s.accepts Reg.cfgCtrl a = true) (hop : cfgOp s a = 1)
    (ho : s.base.flag Reg.cfgStatus_OPEN = false) (hs : s.base.flag Reg.cfgStatus_SEALED = false) :
    ∃ t, exec (.cfgOpen a) s = .next t ∧ t.base.flag Reg.cfgStatus_OPEN = true ∧ t.base.get Reg.cfgStatus_HOLDER = a.host.toNat ∧
      t.base.get Reg.cfgStatus_STAGED = 0 ∧ t.cfg.staged = [] ∧ t.cfg.target = none ∧ t = { s with cfg := t.cfg, base := t.base } := by
  have hrow : s.cfgCtrlWrite a = (s.stored Reg.cfgCtrl a).cfgOpens a.host.toNat := by
    rw [cfgCtrlWrite_taken s a ha, hop, State.cfgOpBad, ho, hs]
    rfl
  obtain ⟨hopen, hholder, hstaged, hempty, htarget, hframe⟩ := cfgOpens_free (s.stored Reg.cfgCtrl a) (h := a.host.toNat)
    ((flag_cfgStatus_stored s a rfl).trans ho) ((flag_cfgStatus_stored s a rfl).trans hs) a.host.isLt
  exact ⟨_, congrArg Host.Outcome.next hrow, hopen, hholder, hstaged, hempty, htarget, hframe⟩

/-- CFG_REFUSED is the newest entry of the host's violation log (Table 9.9). -/
theorem cfgRefuse_logged (s : State) {h : Nat} (hh : h < s.base.nhosts) (op page off : Nat) :
    ∃ x, (s.cfgRefuse h op page off).lastViolation h = some x ∧ x.code = vCFG := lastViolation_violation s hh 0 vCFG _

theorem cfgOpen_refused (s : State) (a : RegWr) (ha : s.accepts Reg.cfgCtrl a = true) (hop : cfgOp s a = 1)
    (hbusy : s.base.flag Reg.cfgStatus_OPEN = true ∨ s.base.flag Reg.cfgStatus_SEALED = true) :
    ∃ t x, exec (.cfgOpen a) s = .next t ∧ t.lastViolation a.host.toNat = some x ∧ x.code = vCFG ∧ t = { s with base := t.base } := by
  have hbad : s.cfgOpBad a.host.toNat (cfgOp s a) = true := by
    rw [hop, State.cfgOpBad]
    exact Bool.or_eq_true_iff.mpr hbusy
  have hrow : s.cfgCtrlWrite a = s.cfgRefuse a.host.toNat (cfgOp s a) 0 0 := by rw [cfgCtrlWrite_taken s a ha, if_pos hbad]
  obtain ⟨x, hx, hc⟩ := cfgRefuse_logged s (accepts_host ha) (cfgOp s a) 0 0
  exact ⟨_, x, congrArg Host.Outcome.next hrow, hx, hc, rfl⟩

/-! ## COMMIT (R586) -/

theorem cfgCtrlWrite_commit (s : State) (a : RegWr) (ha : s.accepts Reg.cfgCtrl a = true) (hop : cfgOp s a = 2) (hh : s.holdsCfg a.host.toNat = true) :
    exec (.cfgCommit a) s = .next ((s.stored Reg.cfgCtrl a).cfgCommits a.host.toNat) := by
  have hrow : s.cfgCtrlWrite a = (s.stored Reg.cfgCtrl a).cfgCommits a.host.toNat := by
    rw [cfgCtrlWrite_taken s a ha, hop, State.cfgOpBad, hh]
    rfl
  exact congrArg Host.Outcome.next hrow

theorem firstStatus_mem {l : List (Bool × Nat)} {st : Nat} (h : firstStatus l = some st) : st ∈ l.map (·.2) := by
  induction l with
  | nil => cases h
  | cons e r ih =>
    simp only [firstStatus] at h
    split at h
    · exact List.mem_cons.mpr (.inl (Option.some.inj h).symm)
    · exact List.mem_cons_of_mem _ (ih h)

/-- A failed check of the seal answers REJ_FORMAT, REJ_RANGE or REJ_STATE. -/
theorem sealStatus_lt {s : State} {st : Nat} (h : s.sealStatus = some st) : st < 256 := by
  have hm := firstStatus_mem h
  simp only [List.map_cons, List.map_nil, List.mem_cons, List.not_mem_nil, or_false] at hm
  rcases hm with rfl | rfl | rfl <;> decide

/-- The geometry checks of a seal may raise LCT_REJECT, and change nothing else. -/
theorem cfgOnly_cmpSeal (s : State) : CfgOnly s s.cmpSeal.1 := by
  simp only [State.cmpSeal]
  split
  · exact cfgOnly_onBase s _
  · rfl

theorem cmpSeal_cfg (s : State) : s.cmpSeal.1.cfg = s.cfg := by
  simp only [State.cmpSeal]
  split <;> rfl

/-- The state with the transaction sealed at E. -/
def sealedState (s : State) : State :=
  ({ s.cmpSeal.1 with cfg := { s.cmpSeal.1.cfg with
      sealAt := s.base.E, anyCut := false, target := s.sealTarget, strict := s.base.flag Reg.cfgCtrl_STRICT
      late := s.base.flag Reg.cfgCtrl_WHEN && !future32 (s.base.word Reg.cfgAt).toNat s.base.now } } : State).onBase (fun b =>
    (b.putFlag Reg.cfgStatus_OPEN false).putFlag Reg.cfgStatus_SEALED true)

theorem cfgCommits_rejected (s : State) {h st : Nat} (hh : s.holdsCfg h = true) (hs : s.cfg.staged ≠ []) (hst : s.sealStatus = some st) :
    s.cfgCommits h = s.cmpSeal.1.cfgEnd st := by
  simp only [State.cfgCommits, hh, List.isEmpty_eq_false_iff.mpr hs, hst, Bool.not_true, Bool.false_eq_true, if_false]

theorem cfgCommits_sealed (s : State) {h : Nat} (hh : s.holdsCfg h = true) (hs : s.cfg.staged ≠ []) (hst : s.sealStatus = none) :
    s.cfgCommits h = sealedState s := by
  simp only [State.cfgCommits, hh, List.isEmpty_eq_false_iff.mpr hs, hst, Bool.not_true, Bool.false_eq_true, if_false, sealedState]

theorem sealed_sealedState (s : State) : (sealedState s).base.flag Reg.cfgStatus_SEALED = true := by
  rw [sealedState, onBase_base]
  exact flag_putFlag_same _ _ true rfl (by decide)

theorem open_sealedState (s : State) : (sealedState s).base.flag Reg.cfgStatus_OPEN = false := by
  rw [sealedState, onBase_base, Base.putFlag, flag_put_ne _ _ _ _ fieldOk_sealed fieldOk_open (by decide)]
  exact flag_putFlag_same _ _ false rfl (by decide)

theorem staged_sealedState (s : State) : (sealedState s).cfg.staged = s.cfg.staged := by
  rw [sealedState, onBase_cfg]
  show s.cmpSeal.1.cfg.staged = s.cfg.staged
  rw [cmpSeal_cfg]

theorem cfgOnly_sealedState (s : State) : CfgOnly s (sealedState s) :=
  ((cfgOnly_cmpSeal s).trans (cfgOnly_cfg _ _)).trans (cfgOnly_onBase _ _)

theorem cfgCommit_noop (s : State) (a : RegWr) (ha : s.accepts Reg.cfgCtrl a = true) (hop : cfgOp s a = 2) (hh : s.holdsCfg a.host.toNat = true)
    (hs : s.cfg.staged = []) :
    ∃ t, exec (.cfgCommit a) s = .next t ∧ t.base.get Reg.cfgStatus_LAST = stNOOP ∧ t.base.flag Reg.cfgStatus_OPEN = false ∧ t.hasEvent 0 16 = true ∧
      t = { s with cfg := t.cfg, base := t.base } := by
  have hrow : (s.stored Reg.cfgCtrl a).cfgCommits a.host.toNat = (s.stored Reg.cfgCtrl a).cfgEnd stNOOP := by
    have hempty : (s.stored Reg.cfgCtrl a).cfg.staged.isEmpty = true := List.isEmpty_iff.mpr hs
    simp only [State.cfgCommits, holdsCfg_stored, hh, hempty, Bool.not_true, Bool.false_eq_true, if_false, if_true]
  obtain ⟨hlast, hopen, _, hevent, hframe⟩ := cfgEnd_spec (s.stored Reg.cfgCtrl a) (status := stNOOP) (by decide)
  exact ⟨_, (cfgCtrlWrite_commit s a ha hop hh).trans (congrArg _ hrow), hlast, hopen, hevent, hframe⟩

theorem cfgCommit_rejected (s : State) (a : RegWr) (ha : s.accepts Reg.cfgCtrl a = true) (hop : cfgOp s a = 2) (hh : s.holdsCfg a.host.toNat = true)
    {st : Nat} (hs : s.cfg.staged ≠ []) (hst : (s.stored Reg.cfgCtrl a).sealStatus = some st) :
    ∃ t, exec (.cfgCommit a) s = .next t ∧ t.base.get Reg.cfgStatus_LAST = st ∧ t.base.flag Reg.cfgStatus_OPEN = false ∧ t.cfg.staged = [] ∧
      t.hasEvent 0 16 = true ∧ t = { s with cfg := t.cfg, base := t.base } := by
  have hrow : (s.stored Reg.cfgCtrl a).cfgCommits a.host.toNat = (s.stored Reg.cfgCtrl a).cmpSeal.1.cfgEnd st :=
    cfgCommits_rejected _ ((holdsCfg_stored s a _).trans hh) hs hst
  obtain ⟨hlast, hopen, hempty, hevent, hframe⟩ := cfgEnd_spec (s.stored Reg.cfgCtrl a).cmpSeal.1 (sealStatus_lt hst)
  exact ⟨_, (cfgCtrlWrite_commit s a ha hop hh).trans (congrArg _ hrow), hlast, hopen, hempty, hevent,
    (cfgOnly_cmpSeal (s.stored Reg.cfgCtrl a)).trans hframe⟩

theorem cfgCommit_sealed (s : State) (a : RegWr) (ha : s.accepts Reg.cfgCtrl a = true) (hop : cfgOp s a = 2) (hh : s.holdsCfg a.host.toNat = true)
    (hs : s.cfg.staged ≠ []) (hst : (s.stored Reg.cfgCtrl a).sealStatus = none) :
    ∃ t, exec (.cfgCommit a) s = .next t ∧ t.base.flag Reg.cfgStatus_SEALED = true ∧ t.base.flag Reg.cfgStatus_OPEN = false ∧ t.cfg.sealAt = s.base.E ∧
      t.cfg.staged = s.cfg.staged ∧ t = { s with cfg := t.cfg, base := t.base } := by
  have hrow := cfgCommits_sealed _ ((holdsCfg_stored s a _).trans hh) hs hst
  exact ⟨_, (cfgCtrlWrite_commit s a ha hop hh).trans (congrArg _ hrow), sealed_sealedState _, open_sealedState _, rfl, staged_sealedState (s.stored Reg.cfgCtrl a), cfgOnly_sealedState (s.stored Reg.cfgCtrl a)⟩

/-! ## ABORT -/

theorem cfgAbort_taken (s : State) (a : RegWr) (ha : s.accepts Reg.cfgCtrl a = true) (hop : cfgOp s a = 3) (ho : s.base.flag Reg.cfgStatus_OPEN = true)
    (hmay : s.base.get Reg.cfgStatus_HOLDER = a.host.toNat ∨ a.host.toNat = s.base.owner) :
    ∃ t, exec (.cfgAbort a) s = .next t ∧ t.base.get Reg.cfgStatus_LAST = stROLLBACK ∧ t.base.flag Reg.cfgStatus_OPEN = false ∧ t.cfg.staged = [] ∧
      t.hasEvent 0 16 = true ∧ t = { s with cfg := t.cfg, base := t.base } := by
  have hallowed : (s.base.flag Reg.cfgStatus_OPEN && (s.base.get Reg.cfgStatus_HOLDER == a.host.toNat || a.host.toNat == s.base.owner)) = true := by
    simpa [ho] using hmay
  have hrow : s.cfgCtrlWrite a = (s.stored Reg.cfgCtrl a).cfgEnd stROLLBACK := by
    have hbad : s.cfgOpBad a.host.toNat 3 = false := by rw [State.cfgOpBad, hallowed, Bool.not_true]
    have howner : (s.stored Reg.cfgCtrl a).base.owner = s.base.owner := rfl
    rw [cfgCtrlWrite_taken s a ha, hop, hbad, if_neg Bool.false_ne_true]
    simp only [cfgActs, State.cfgAborts, flag_cfgStatus_stored s a (f := Reg.cfgStatus_OPEN) rfl, get_cfgStatus_stored s a (f := Reg.cfgStatus_HOLDER) rfl,
      howner, hallowed, if_true]
  obtain ⟨hlast, hopen, hempty, hevent, hframe⟩ := cfgEnd_spec (s.stored Reg.cfgCtrl a) (status := stROLLBACK) (by decide)
  exact ⟨_, congrArg Host.Outcome.next hrow, hlast, hopen, hempty, hevent, hframe⟩

/-! ## Writes of staged fields (R49) -/

/-- No register of which every host has its own copy has a staged field. -/
theorem perHostReg_unstaged : ∀ k ∈ [Reg.cmpProbeXy, Reg.cmpProbeOut, Reg.frsQuery, Reg.frsQueryAge, Reg.frsQueryBound, Reg.domMapQuery, Reg.domMapEntry,
    Reg.calQuery, Reg.calQueryOut], unstaged k = true := by decide +kernel

theorem storeKey_staged {key : Nat} {d : RegDesc} {be : BitVec 4} (hd : descAt key = some d) (hr : d.touchesRws be = true) (h : Nat) :
    storeKey h key = key := by
  refine storeKey_shared (Bool.eq_false_iff.mpr fun hk => ?_) h
  have hfalse := touchesRws_of_unstaged (perHostReg_unstaged key (List.contains_iff_mem.mp hk)) be d hd
  exact absurd (hr.symm.trans hfalse) (by decide)

theorem plainKey_ne_low {key k : Nat} (hk : plainKey key = true) (hlow : k < 4096) : k ≠ key := by
  obtain ⟨_, hp, _⟩ := (plainKey_iff key).mp hk
  omega

theorem stageRws_holder (s : State) {h : Nat} (key w : Nat) (hh : s.holdsCfg h = true) :
    s.stageRws h key w = ({ s with cfg := { s.cfg with staged := sput (fun _ => none) s.cfg.staged key (some (BitVec.ofNat 32 w)) } } : State).onBase
      (·.put Reg.cfgStatus_STAGED (min 4095 (sput (fun _ => none) s.cfg.staged key (some (BitVec.ofNat 32 w))).length)) := if_pos hh

theorem stageRws_other (s : State) {h : Nat} (key w : Nat) (hh : s.holdsCfg h = false) :
    s.stageRws h key w = s.cfgRefuse h 0xFF (key / 4096) (key % 4096) := if_neg (ne_true_of_eq_false hh)

/-- CFG_STATUS does not feel that a plain register's other fields are stored. -/
theorem holdsCfg_stored_plain (s : State) {key : Nat} (a : RegWr) {d : RegDesc} (hk : plainKey key = true) (hd : descAt key = some d)
    (hr : d.touchesRws a.be = true) (h : Nat) : (s.stored key a).holdsCfg h = s.holdsCfg h := by
  have hs := storeKey_staged hd hr a.host.toNat
  have hne : key ≠ Reg.cfgStatus := (plainKey_ne_low hk (by decide)).symm
  simp only [State.holdsCfg, Base.holdsOpen, flag_stored_ne s a hs (f := Reg.cfgStatus_OPEN) hne, get_stored_ne s a hs (f := Reg.cfgStatus_HOLDER) hne]

section
variable (s : State) (page : BitVec 10) (off : BitVec 12) (a : RegWr) {d : RegDesc} (hk : plainKey (regKey page off) = true)
  (ha : s.accepts (regKey page off) a = true) (hd : descAt (regKey page off) = some d) (hr : d.touchesRws a.be = true)
include hk ha hd hr

theorem rwsWrite_eq : exec (.rwsWrite page off a) s =
    .next ((s.stored (regKey page off) a).stageRws a.host.toNat (regKey page off) (s.applied (regKey page off) a).staged) :=
  congrArg Host.Outcome.next ((regWriteAt_plain s a hk).trans (write_staged s _ a _ ha hd hr))

theorem rwsWrite_staged (hh : s.holdsCfg a.host.toNat = true) :
    ∃ t, exec (.rwsWrite page off a) s = .next t ∧ t.stagedWord (regKey page off) = some (BitVec.ofNat 32 (s.applied (regKey page off) a).staged) ∧
      t.base.get Reg.cfgStatus_STAGED = min 4095 t.cfg.staged.length ∧ t.base.word (regKey page off) = BitVec.ofNat 32 (s.applied (regKey page off) a).word ∧
      t = { s with cfg := t.cfg, base := t.base } := by
  have hrow := stageRws_holder (s.stored (regKey page off) a) (regKey page off) (s.applied (regKey page off) a).staged
    ((holdsCfg_stored_plain s a hk hd hr _).trans hh)
  refine ⟨_, (rwsWrite_eq s page off a hk ha hd hr).trans (congrArg _ hrow), by simp only [State.stagedWord, onBase_cfg, sget_sput_same], ?_, ?_, rfl⟩
  · rw [onBase_base, get_put_same _ _ _ fieldOk_staged]
    exact Nat.mod_eq_of_lt (Nat.lt_succ_of_le (Nat.min_le_left _ _))
  · rw [onBase_base, word_put_ne _ _ _ (plainKey_ne_low hk (by decide))]
    exact word_stored_same s a (storeKey_staged hd hr _)

theorem rwsWrite_refused (hh : s.holdsCfg a.host.toNat = false) :
    ∃ t x, exec (.rwsWrite page off a) s = .next t ∧ t.lastViolation a.host.toNat = some x ∧ x.code = vCFG ∧ t = { s with base := t.base } := by
  have hrow := stageRws_other (s.stored (regKey page off) a) (regKey page off) (s.applied (regKey page off) a).staged
    ((holdsCfg_stored_plain s a hk hd hr _).trans hh)
  obtain ⟨x, hx, hc⟩ := cfgRefuse_logged (s.stored (regKey page off) a) (show _ < s.base.nhosts from accepts_host ha) 0xFF (regKey page off / 4096) (regKey page off % 4096)
  exact ⟨_, x, (rwsWrite_eq s page off a hk ha hd hr).trans (congrArg _ hrow), hx, hc, rfl⟩

end

/-- Settles O50: OPEN, COMMIT, ABORT and a write of staged fields, each by what the write comes to (R47 to R53, R586). -/
theorem theConfigurationTransactionOpensSealsAndEnds : Obligations.TheConfigurationTransactionOpensSealsAndEnds :=
  ⟨fun s a ha hop => ⟨cfgOpen_taken s a ha hop, cfgOpen_refused s a ha hop⟩,
    fun s a ha hop hh => ⟨cfgCommit_noop s a ha hop hh, cfgCommit_sealed s a ha hop hh, fun _ => cfgCommit_rejected s a ha hop hh⟩,
    cfgAbort_taken,
    fun s page off a _ hk ha hd hr => ⟨rwsWrite_staged s page off a hk ha hd hr, rwsWrite_refused s page off a hk ha hd hr⟩⟩

end Sys2Proof.Proofs

/-! What a change of the common core leaves alone: every register beyond the page headers and the LOST counters but those named (R34, R56, R57). One rule per operation, each carrying the frame on from the state before it. -/

namespace Sys2Proof.Proofs

open Sys2Proof Sys2Proof.Machine Sys2Proof.Laws

/-- From `b` to `c` no unit register but the named ones has changed, and there are no more than four hosts, which is what keeps a log entry within the eight logs. -/
structure Keeps (ks : List Nat) (b c : Base) : Prop where
  few : c.nhosts ≤ 4
  word : ∀ k, unitReg k = true → k ∉ ks → c.word k = b.word k

/-- A register that the frame lets change: one that is named, or one of a page header. -/
def MayChange (ks : List Nat) (k : Nat) : Prop := k ∈ ks ∨ k % 4096 < 0x40

theorem mayChange_named {ks : List Nat} {k : Nat} (h : k ∈ ks) : MayChange ks k := .inl h

theorem mayChange_hdr (ks : List Nat) (p : Nat) {off : Nat} (h : off < 0x40) : MayChange ks (hdr p off) := .inr (by rw [hdr_mod (by omega)]; exact h)

theorem MayChange.ne {ks : List Nat} {j k : Nat} (h : MayChange ks j) (hu : unitReg k = true) (hk : k ∉ ks) : j ≠ k := by
  rintro rfl
  simp only [unitReg, Bool.and_eq_true, decide_eq_true_eq] at hu
  rcases h with h | h
  · exact hk h
  · omega

/-! ## The number of hosts -/

theorem stateEvents_nhosts (old : Base) (ps : List Nat) (b : Base) : (Base.stateEvents old b ps).nhosts = b.nhosts := by
  induction ps generalizing b with
  | nil => rfl
  | cons p r ih =>
    rw [Base.stateEvents, ih]
    split
    · rfl
    · exact raise_nhosts b p 0

theorem setOwn_nhosts (b : Base) (p st : Nat) : (b.setOwn p st).nhosts = b.nhosts := by
  unfold Base.setOwn
  split
  · rfl
  · exact stateEvents_nhosts _ _ _

theorem logPushAll_nhosts (e : LogEntry) (hs : List Nat) (b : Base) : (b.logPushAll e hs).nhosts = b.nhosts := by
  induction hs generalizing b with
  | nil => rfl
  | cons h r ih => rw [Base.logPushAll, ih, logPush_nhosts]

theorem violation_nhosts (b : Base) (h p c : Nat) (d : List Byte) : (b.violation h p c d).nhosts = b.nhosts := by
  simp only [Base.violation]
  split
  · exact logPush_nhosts _ _ _
  · rfl

theorem fault_nhosts (b : Base) (p c : Nat) (d : List Byte) : (b.fault p c d).nhosts = b.nhosts := by
  simp only [Base.fault, logPushAll_nhosts, Base.raiseMask, setEvents_nhosts]
  split <;> rfl

/-! ## One rule per operation of the common core -/

namespace Keeps

variable {ks : List Nat} {b c d : Base}

theorem refl (hb : b.nhosts ≤ 4) : Keeps ks b b := ⟨hb, fun _ _ _ => rfl⟩

/-- A change of neither registers nor hosts. -/
theorem of_regs (h : Keeps ks b c) (hr : d.regs = c.regs) (hn : d.nhosts = c.nhosts) : Keeps ks b d :=
  ⟨hn.trans_le h.few, fun k hu hk => by rw [Base.word, hr, ← Base.word, h.word k hu hk]⟩

theorem of_words (h : Keeps ks b c) (hw : ∀ k, unitReg k = true → k ∉ ks → d.word k = c.word k) (hn : d.nhosts = c.nhosts) : Keeps ks b d :=
  ⟨hn.trans_le h.few, fun k hu hk => (hw k hu hk).trans (h.word k hu hk)⟩

theorem setWord (h : Keeps ks b c) {k : Nat} (v : BitVec 32) (hk : MayChange ks k) : Keeps ks b (c.setWord k v) :=
  h.of_words (fun _ hu hj => word_setWord_ne c v (hk.ne hu hj)) rfl

theorem putMay (h : Keeps ks b c) {f : FieldRef} (v : Nat) (hf : MayChange ks f.key) : Keeps ks b (c.put f v) := h.setWord _ hf

/-- A field of a register that the list names; the default proof goes through the list. -/
theorem put (h : Keeps ks b c) (f : FieldRef) (v : Nat)
    (hf : f.key ∈ ks := by repeat constructor) : Keeps ks b (c.put f v) :=
  h.putMay v (mayChange_named hf)

theorem putFlag (h : Keeps ks b c) (f : FieldRef) (v : Bool)
    (hf : f.key ∈ ks := by repeat constructor) : Keeps ks b (c.putFlag f v) :=
  h.putMay _ (mayChange_named hf)

theorem count (h : Keeps ks b c) (f : FieldRef) (n : Nat)
    (hf : f.key ∈ ks := by repeat constructor) : Keeps ks b (c.count f n) :=
  h.putMay _ (mayChange_named hf)

theorem putHdr (h : Keeps ks b c) (p : Nat) {off m l : Nat} (v : Bool) (ho : off < 0x40) : Keeps ks b (c.putFlag ⟨hdr p off, m, l⟩ v) :=
  h.putMay _ (mayChange_hdr ks p ho)

theorem emit (h : Keeps ks b c) (o : Output) : Keeps ks b (c.emit o) := h.of_regs rfl rfl

theorem setLink (h : Keeps ks b c) (i : Nat) (l : Link) : Keeps ks b (c.setLink i l) := h.of_regs rfl rfl

theorem setLogq (h : Keeps ks b c) (i : Nat) (q : LogQ) : Keeps ks b (c.setLogq i q) := h.of_regs rfl rfl

theorem draw (h : Keeps ks b c) : Keeps ks b c.draw := h.of_regs rfl rfl

theorem msixAll (h : Keeps ks b c) (l : List (Nat × Nat)) : Keeps ks b (c.msixAll l) := h.of_regs (msixAll_regs c l) (msixAll_nhosts c l)

theorem raise (h : Keeps ks b c) (p n : Nat) : Keeps ks b (c.raise p n) := h.of_words (fun _ hu _ => word_raise_unit c p n hu) (raise_nhosts c p n)

theorem stateEvents (h : Keeps ks b c) (old : Base) (ps : List Nat) : Keeps ks b (Base.stateEvents old c ps) := by
  obtain ⟨_, _, _, _, hword⟩ := stateEvents_same old ps c
  refine h.of_words (fun k hu _ => hword k ?_) (stateEvents_nhosts old ps c)
  simp only [unitReg, Bool.and_eq_true, decide_eq_true_eq] at hu
  omega

theorem setOwn (h : Keeps ks b c) (p st : Nat) : Keeps ks b (c.setOwn p st) :=
  h.of_words (fun _ hu _ => word_setOwn_unit c p st hu) (setOwn_nhosts c p st)

theorem busyIf (h : Keeps ks b c) (p : Nat) (on : Bool) : Keeps ks b (c.busyIf p on) := by
  unfold Base.busyIf
  split
  · exact h.setOwn _ _
  · exact h

theorem violation (h : Keeps ks b c) (i p code : Nat) (bs : List Byte) : Keeps ks b (c.violation i p code bs) :=
  h.of_words (fun _ hu _ => word_violation c i p code bs h.few hu) (violation_nhosts c i p code bs)

theorem refuse (h : Keeps ks b c) (i key code : Nat) (v : BitVec 32) : Keeps ks b (c.refuse i key code v) := h.violation _ _ _ _

theorem linkViolation (h : Keeps ks b c) (i : Nat) (aer : Byte) (header : List Byte) : Keeps ks b (c.linkViolation i aer header) := h.violation _ _ _ _

theorem fault (h : Keeps ks b c) (p code : Nat) (bs : List Byte) : Keeps ks b (c.fault p code bs) :=
  h.of_words (fun _ hu _ => word_fault c p code bs h.few hu) (fault_nhosts c p code bs)

theorem ite (p : Prop) [Decidable p] (hc : Keeps ks b c) (hd : Keeps ks b d) : Keeps ks b (if p then c else d) := by
  split
  · exact hc
  · exact hd

theorem iteState (p : Prop) [Decidable p] {x y : State} (hx : Keeps ks b x.base) (hy : Keeps ks b y.base) : Keeps ks b (if p then x else y).base := by
  split
  · exact hx
  · exact hy

/-- A fold over states whose every step keeps the registers. -/
theorem foldl {β : Type} {f : State → β → State} (hf : ∀ x e, Keeps ks b x.base → Keeps ks b (f x e).base) (l : List β) {s : State}
    (h : Keeps ks b s.base) : Keeps ks b (l.foldl f s).base := by
  induction l generalizing s with
  | nil => exact h
  | cons e r ih => exact ih (hf s e h)

end Keeps

/-! ## Register writes -/

/-- At most one violation has been recorded. -/
def Noted (b c : Base) : Prop := c = b ∨ ∃ h p code bs, c = b.violation h p code bs

theorem Keeps.noted {ks : List Nat} {b c d : Base} (h : Keeps ks b c) (hd : Noted c d) : Keeps ks b d := by
  rcases hd with rfl | ⟨_, _, _, _, rfl⟩
  · exact h
  · exact h.violation _ _ _ _

theorem noted_refuse_or (b : Base) (p : Prop) [Decidable p] (h key code : Nat) (v : BitVec 32) :
    Noted b (if p then b.refuse h key code v else b) := by
  split
  · exact .inr ⟨_, _, _, _, rfl⟩
  · exact .inl rfl

/-- How a register write ends: refused, or with one word stored, and staged only where the register has staged fields; either way at most one violation. -/
theorem regWrite_cases (b : Base) (key staged : Nat) (a : RegWr) :
    (∃ c, Noted b c ∧ b.regWrite key staged a = .refused c) ∨
    ∃ d c v act old new w, descAt key = some d ∧ Noted b c ∧
      b.regWrite key staged a = .applied (c.setWord (storeKey a.host.toNat key) v) act old new (if d.touchesRws a.be then some w else none) := by
  unfold Base.regWrite
  dsimp only
  split
  · exact .inl ⟨_, .inr ⟨_, _, _, _, rfl⟩, rfl⟩
  · rename_i d hd
    have hdesc : descAt key = some d := by
      split at hd
      · exact hd
      · cases hd
    split
    · exact .inl ⟨_, .inl rfl, rfl⟩
    · split
      · exact .inl ⟨_, .inr ⟨_, _, _, _, rfl⟩, rfl⟩
      · split
        · exact .inl ⟨_, .inr ⟨_, _, _, _, rfl⟩, rfl⟩
        · exact .inr ⟨d, _, _, _, _, _, _, hdesc, noted_refuse_or _ _ _ _ _ _, rfl⟩

/-- A write of a register without staged fields keeps what its own effect keeps. -/
theorem keeps_write {ks : List Nat} {s : State} {key : Nat} {a : RegWr} {k : Nat → Nat → Nat → State → State} (hn : s.base.nhosts ≤ 4)
    (hr : ∀ d, descAt key = some d → d.touchesRws a.be = false) (hkey : MayChange ks (storeKey a.host.toNat key))
    (hk : ∀ act old new x, Keeps ks s.base x.base → Keeps ks s.base (k act old new x).base) : Keeps ks s.base (s.write key a k).base := by
  unfold State.write
  rcases regWrite_cases s.base key (s.sealWord key).toNat a with ⟨c, hc, hw⟩ | ⟨d, c, v, act, old, new, w, hd, hc, hw⟩
  · rw [hw]
    exact (Keeps.refl hn).noted hc
  · rw [hw, hr d hd]
    exact hk _ _ _ _ (((Keeps.refl hn).noted hc).setWord v hkey)

/-- What a row keeps, for the state that its command leads to. -/
theorem keepsBut_of_next {ks : List Nat} {s t u : State} (hx : Host.Outcome.next (φ := Fault) (ρ := Refusal) u = .next t) (h : Keeps ks s.base u.base) :
    s.keepsBut t ks := by
  cases hx
  exact h.word

end Sys2Proof.Proofs

/-! O6, power and clocks: what the rail samples, the hold-off and the clock measurement leave alone (chapter 18). -/

namespace Sys2Proof.Proofs

open Sys2Proof Sys2Proof.Machine Sys2Proof.Laws

theorem mayChange_stored {ks : List Nat} {key : Nat} (hp : perHostReg key = false) (hk : key ∈ ks) (host : Nat) : MayChange ks (storeKey host key) :=
  .inl (by rwa [storeKey_shared hp])

theorem mayChange_storedHdr (ks : List Nat) (p : Nat) {off : Nat} (ho : off < 0x40) (host : Nat) : MayChange ks (storeKey host (hdr p off)) := by
  rw [storeKey_header ho]
  exact mayChange_hdr ks p ho

/-! ## Rails, hold-off and clock measurement -/

section Power

variable {ks : List Nat} {s : State}

theorem keeps_railSample {b : Base} {r : Nat} (hr : Reg.pwrRail r ∈ ks) (hw : Reg.pwrWarnLast ∈ ks) (h : Keeps ks b s.base) (mv : Nat) :
    Keeps ks b (State.railSample r s mv).base := by
  have hs := (h.put (Reg.pwrRail_NOW r) mv hr).put (Reg.pwrRail_MIN r)
    (if (s.base.word (Reg.pwrRail r) == 0) = true then mv else min (s.base.get (Reg.pwrRail_MIN r)) mv) hr
  exact .ite _ (hs.put Reg.pwrWarnLast_MIN _ hw) hs

theorem keeps_railSamples {b : Base} {r : Nat} (hr : Reg.pwrRail r ∈ ks) (hw : Reg.pwrWarnLast ∈ ks) (h : Keeps ks b s.base) (l : List Nat) :
    Keeps ks b (l.foldl (State.railSample r) s).base := Keeps.foldl (fun _ e hx => keeps_railSample hr hw hx e) l h

theorem keeps_railWarn (hn : s.base.nhosts ≤ 4) (r m1 m2 : Nat) :
    Keeps [Reg.pwrStatus, Reg.pwrWarnLast, Reg.pwrWarnTime, Reg.pwrWarnDur, Reg.pwrWarns, Reg.pwrRail r] s.base (s.railWarnRow r m1 m2).base := by
  have hs := keeps_railSamples (ks := [Reg.pwrStatus, Reg.pwrWarnLast, Reg.pwrWarnTime, Reg.pwrWarnDur, Reg.pwrWarns, Reg.pwrRail r]) (r := r)
    (by simp) (by simp) (Keeps.refl hn) [m1, m2]
  unfold State.railWarnRow
  split
  · exact .refl hn
  · dsimp only
    split
    · exact hs
    · have h3 (rails now : Nat) := ((((((((hs.put Reg.pwrStatus_RAILS rails).putFlag Reg.pwrStatus_WARN true).putFlag Reg.pwrStatus_HOLDOFF false).put
        Reg.pwrWarnLast_RAIL r).put Reg.pwrWarnLast_MIN (min m1 m2)).put Reg.pwrWarnTime_TIME now).put Reg.pwrWarnDur_NS 0).count Reg.pwrWarns_COUNT 1).raise pgPWR 16
      exact .ite _ (h3 _ _) ((h3 _ _).raise pgADM 16)

theorem keeps_railRecover (hn : s.base.nhosts ≤ 4) (r m1 m2 : Nat) :
    Keeps [Reg.pwrStatus, Reg.pwrWarnLast, Reg.pwrWarnDur, Reg.pwrRail r] s.base (s.railRecoverRow r m1 m2).base := by
  have hs := keeps_railSamples (ks := [Reg.pwrStatus, Reg.pwrWarnLast, Reg.pwrWarnDur, Reg.pwrRail r]) (r := r)
    (by simp) (by simp) (Keeps.refl hn) [m1, m2]
  unfold State.railRecoverRow
  split
  · exact .refl hn
  · dsimp only
    split
    · exact hs
    · have h1 (left : Nat) := hs.put Reg.pwrStatus_RAILS left
      have h2 (left ns : Nat) (p : Prop) [Decidable p] := Keeps.ite p ((h1 left).put Reg.pwrWarnDur_NS ns) (h1 left)
      exact (Keeps.ite _ (((h2 _ _ _).putFlag Reg.pwrStatus_WARN false).putFlag Reg.pwrStatus_HOLDOFF true) (h2 _ _ _)).raise pgPWR 17

theorem keeps_holdoffEnd (hn : s.base.nhosts ≤ 4) : Keeps [Reg.pwrStatus] s.base s.holdoffEndRow.base := by
  unfold State.holdoffEndRow
  split
  · exact .refl hn
  · split
    · exact .refl hn
    · exact (Keeps.refl hn).putFlag Reg.pwrStatus_HOLDOFF false

theorem keeps_overvolt (hn : s.base.nhosts ≤ 4) (r mv : Nat) : Keeps [Reg.pwrStatus, Reg.pwrWarnLast, Reg.pwrRail r] s.base (s.overvoltRow r mv).base := by
  have hs := keeps_railSample (ks := [Reg.pwrStatus, Reg.pwrWarnLast, Reg.pwrRail r]) (r := r) (by simp) (by simp) (Keeps.refl hn) mv
  unfold State.overvoltRow
  split
  · exact .refl hn
  · have h1 (p : Prop) [Decidable p] := Keeps.ite p (hs.raise pgPWR 18) hs
    have h2 (p q : Prop) [Decidable p] [Decidable q] (bs : List Byte) := Keeps.ite q ((h1 p).fault pgPWR 1 bs) (h1 p)
    exact ((h2 _ _ _).putFlag Reg.pwrStatus_OV true).setOwn pgPWR uFAULT

theorem keeps_overvoltClear (hn : s.base.nhosts ≤ 4) (r mv : Nat) :
    Keeps [Reg.pwrStatus, Reg.pwrWarnLast, Reg.pwrRail r] s.base (s.overvoltClearRow r mv).base := by
  have hs := keeps_railSample (ks := [Reg.pwrStatus, Reg.pwrWarnLast, Reg.pwrRail r]) (r := r) (by simp) (by simp) (Keeps.refl hn) mv
  unfold State.overvoltClearRow
  split
  · exact .refl hn
  · dsimp only
    split
    · exact (hs.putFlag Reg.pwrStatus_OV false).setOwn pgPWR uBUSY
    · exact hs

theorem keeps_vhold (hn : s.base.nhosts ≤ 4) (mv : Nat) : Keeps [Reg.pwrStatus, Reg.pwrWarnLast, Reg.pwrRail 8] s.base (s.vholdRow mv).base := by
  have hs := keeps_railSample (ks := [Reg.pwrStatus, Reg.pwrWarnLast, Reg.pwrRail 8]) (r := 8) (by simp) (by simp) (Keeps.refl hn) mv
  unfold State.vholdRow
  split
  · exact .refl hn
  · have h1 (low : Bool) := hs.putFlag Reg.pwrStatus_VHOLD_LOW low
    exact .ite _ (((h1 _).raise pgPWR 19).fault pgPWR 2 _) (h1 _)

theorem keeps_resetOut (hn : s.base.nhosts ≤ 4) : Keeps ks s.base s.resetOutRow.base := by
  unfold State.resetOutRow
  split
  · exact .refl hn
  · split
    · exact .refl hn
    · unfold State.resetOutPin
      split
      · exact .refl hn
      · exact (Keeps.refl hn).emit _

theorem keeps_meas (hn : s.base.nhosts ≤ 4) (a : RegWr) : Keeps [Reg.clkMeasSel, Reg.clkMeas] s.base (s.measWrite a).base :=
  keeps_write hn (touchesRws_of_unstaged (by decide +kernel) _) (mayChange_stored (by decide) (by simp) _) fun _ _ _ _ h => h.putFlag Reg.clkMeas_VALID false

theorem keeps_measDone (hn : s.base.nhosts ≤ 4) (khz : Nat) : Keeps [Reg.clkMeas] s.base (s.measDoneRow khz).base := by
  unfold State.measDoneRow
  split
  · exact .refl hn
  · split
    · exact .refl hn
    · exact ((Keeps.refl hn).put Reg.clkMeas_KHZ khz).putFlag Reg.clkMeas_VALID true

end Power

/-! ## Host links -/

section Links

variable {ks : List Nat} {s : State}

theorem keeps_linkUp (hn : s.base.nhosts ≤ 4) (h speed width : Nat) (flit : Bool) : Keeps [Reg.hstLink h] s.base (s.linkUpRow h speed width flit).base := by
  unfold State.linkUpRow
  split
  · exact .refl hn
  · exact (((((((Keeps.refl hn).setLink _ _).putFlag (Reg.hstLink_DL_UP h) true).putFlag (Reg.hstLink_FLIT h) flit).put (Reg.hstLink_SPEED h) speed).put
      (Reg.hstLink_WIDTH h) width).raise (pgHST h) 16).setOwn (pgHST h) uBUSY

theorem keeps_resetEnds {b : Base} (h : Keeps ks b s.base) (p : Nat) : Keeps ks b (s.resetEnds p).base := by
  have h1 (left : List Nat) : Keeps ks b { s.base.putFlag ⟨hdr p 0x20, 1, 1⟩ false with rootWaits := left } :=
    (h.putHdr p (off := 0x20) false (by decide)).of_regs rfl rfl
  exact .ite _ ((h1 _).putHdr 0 (off := 0x20) false (by decide)) (h1 _)

theorem keeps_linkResetDone (hn : s.base.nhosts ≤ 4) (h : Nat) : Keeps ks s.base (s.linkResetDone h).base := by
  unfold State.linkResetDone
  split
  · exact keeps_resetEnds ((Keeps.refl hn).setLink _ _) _
  · exact .refl hn

theorem keeps_sendPending {b c : Base} (h : Keeps ks b c) (i : Nat) : Keeps ks b (c.sendPending i) := by
  have hemits (l : List Nat) : ∀ x, Keeps ks b x → Keeps ks b (l.foldl (fun (x : Base) v => x.emit (.msix i v)) x) := by
    induction l with
    | nil => exact fun _ hx => hx
    | cons v r ih => exact fun _ hx => ih _ (hx.emit _)
  unfold Base.sendPending
  split
  · exact h
  · exact hemits _ _ (h.setLink _ _)

theorem keeps_unmask (hn : s.base.nhosts ≤ 4) (h vec : Nat) : Keeps ks s.base (s.unmask h vec).base := by
  unfold State.unmask
  split
  · exact keeps_sendPending ((Keeps.refl hn).setLink _ _) h
  · exact .refl hn

theorem keeps_logWrite (hn : s.base.nhosts ≤ 4) {i : Nat} (hi : (logWr i).key ∈ ks) : Keeps ks s.base (s.logWriteRow i).base := by
  unfold State.logWriteRow
  dsimp only
  split
  · exact .refl hn
  · split
    · exact .refl hn
    · have h1 (q : LogQ) (o : Output) (v : Nat) := ((((Keeps.refl hn).setLogq i q).emit o).put (logWr i) v hi)
      exact .ite _ ((h1 _ _ _).raise _ _) (h1 _ _ _)

/-- The write index of a host's log is one of its two. -/
theorem logWr_mem (h : Nat) (viol : Bool) : (logWr (2 * h + if viol then 1 else 0)).key ∈ [Reg.hstFlogWr h, Reg.hstVlogWr h] := by
  cases viol
  · have he : (2 * h) % 2 = 0 := by omega
    have hd : (2 * h) / 2 = h := by omega
    simp [logWr, he, hd, Reg.hstFlogWr_WR]
  · have he : (2 * h + 1) % 2 = 1 := by omega
    have hd : (2 * h + 1) / 2 = h := by omega
    simp [logWr, he, hd, Reg.hstVlogWr_WR]

theorem keeps_tlpError (hn : s.base.nhosts ≤ 4) (h : Nat) (e : LinkError) (aer : Byte) (header : List Byte) :
    Keeps ks s.base (s.tlpErrorRow h e aer header).base := by
  have hanswer : Keeps ks s.base (match errorAnswer e with | some c => s.base.emit (.linkError h c) | none => s.base) := by
    split
    · exact (Keeps.refl hn).emit _
    · exact .refl hn
  exact hanswer.linkViolation h aer header

end Links

/-! ## The DOE mailbox and calibration -/

section Mailbox

variable {ks : List Nat} {s : State}

theorem keeps_doeDiscovery (hn : s.base.nhosts ≤ 4) (h : Nat) (m : List Byte) : Keeps ks s.base (s.doeDiscoveryRow h m).base := by
  unfold State.doeDiscoveryRow
  split
  · exact .refl hn
  · split
    · exact .refl hn
    · dsimp only
      split
      · exact .refl hn
      · exact (Keeps.refl hn).emit _

theorem keeps_krydo (hn : s.base.nhosts ≤ 4) (h : Nat) (m : List Byte) : Keeps ks s.base (s.krydoRow h m).base := by
  unfold State.krydoRow
  split
  · exact .refl hn
  · split
    · exact .refl hn
    · split
      · exact .refl hn
      · dsimp only
        split
        · exact ((Keeps.refl hn).emit _).violation h pgHLM vMAILBOX _
        · exact (Keeps.refl hn).emit _

theorem keeps_calEnd {b : Base} (hstatus : Reg.calStatus ∈ ks) (htime : Reg.calDoneTime ∈ ks) (h : Keeps ks b s.base) (status : Nat) :
    Keeps ks b (s.calEnd status).base :=
  (((((h.putFlag Reg.calStatus_BUSY false hstatus).putFlag Reg.calStatus_WAIT_LEAVE false hstatus).put Reg.calStatus_RESULT status hstatus).put
    Reg.calDoneTime_TIME _ htime).raise pgCAL 16).busyIf pgCAL false

theorem keeps_request {b : Base} (h : Keeps ks b s.base) (rid tag units : Nat) : Keeps ks b (s.request rid tag units).base := by
  unfold State.request
  split <;> exact h

theorem keeps_calStart (hn : s.base.nhosts ≤ 4) (a : RegWr) : Keeps [Reg.calCtrl, Reg.calStatus, Reg.calDoneTime] s.base (s.calCtrlWrite a).base := by
  refine keeps_write hn (touchesRws_of_unstaged (by decide +kernel) _) (mayChange_stored (by decide) (by simp) _) fun act _ _ x h => ?_
  split
  · exact h
  · split
    · exact h.refuse _ _ _ _
    · split
      · exact keeps_calEnd (by simp) (by simp) h _
      · have hasked (c : Cal) (units : Nat) := keeps_request (s := { x with cal := c }) h ridCal 0 units
        exact (((hasked _ _).putFlag Reg.calStatus_BUSY true).putFlag Reg.calStatus_WAIT_LEAVE true).busyIf pgCAL true

theorem keeps_calDone (hn : s.base.nhosts ≤ 4) (m : CalResult) :
    Keeps [Reg.calRef, Reg.calStatus, Reg.calDoneTime, Reg.calDelta] s.base (s.calDoneRow m).base := by
  have h1 : Keeps [Reg.calRef, Reg.calStatus, Reg.calDoneTime, Reg.calDelta] s.base (s.onBase (·.put Reg.calRef_DEV_PPM m.devPpm.toNat)).base :=
    (Keeps.refl hn).put Reg.calRef_DEV_PPM _
  unfold State.calDoneRow
  split
  · exact .refl hn
  · split
    · exact .refl hn
    · dsimp only
      split
      · exact keeps_calEnd (by simp) (by simp) (h1.fault pgCAL 1 _) stDEVICE
      · split
        · exact .refl hn
        · split
          · exact keeps_calEnd (by simp) (by simp) (h1.fault pgCAL 2 _) stDEVICE
          · exact keeps_calEnd (by simp) (by simp)
              ((((h1.put Reg.calDelta_RAILS _).put Reg.calDelta_THERMAL _).put Reg.calDelta_BEACON _).put Reg.calDelta_BELFRY _) stOK

end Mailbox

end Sys2Proof.Proofs

/-! O6, scene memory, the configuration transaction and the pages' own registers: what these commands leave alone (chapters 2 and 10). -/

namespace Sys2Proof.Proofs

open Sys2Proof Sys2Proof.Machine Sys2Proof.Laws

/-! ## Scene memory -/

section Dome

variable {ks : List Nat} {b : Base} {s : State}

theorem keeps_reportPoison (h : Keeps ks b s.base) (w : Nat) : Keeps ks b (s.reportPoison w).base := by
  refine .iteState _ ?_ h
  rw [onBase_base]
  exact ((h.fault pgDOM 2 _).raise pgDOM 19).violation _ _ _ _

theorem keeps_poisonWords (h : Keeps ks b s.base) (ws : List Nat) : Keeps ks b (s.poisonWords ws).base :=
  Keeps.foldl (fun _ w hx => keeps_reportPoison hx w) _ h

/-- The counters that the reads of scene memory advance (R289). -/
def memoryCounters : List Nat := [Reg.domCe, Reg.domUe] ++ (List.range 8).flatMap (fun k => [Reg.stkCe k, Reg.stkUe k])

theorem stkCounters_mem {k : Nat} (hk : k < 8) : Reg.stkCe k ∈ memoryCounters ∧ Reg.stkUe k ∈ memoryCounters :=
  ⟨List.mem_append_right _ (List.mem_flatMap.mpr ⟨k, List.mem_range.mpr hk, List.mem_cons_self⟩),
    List.mem_append_right _ (List.mem_flatMap.mpr ⟨k, List.mem_range.mpr hk, List.mem_cons_of_mem _ List.mem_cons_self⟩)⟩

theorem domCounters_mem : Reg.domCe ∈ memoryCounters ∧ Reg.domUe ∈ memoryCounters :=
  ⟨List.mem_append_left _ List.mem_cons_self, List.mem_append_left _ (List.mem_cons_of_mem _ List.mem_cons_self)⟩

theorem keeps_noteWord (h : Keeps memoryCounters b s.base) (reader : Nat) (e : Ecc) (w : Nat) : Keeps memoryCounters b (State.noteWord reader e s w).base := by
  obtain ⟨hce, hue⟩ := stkCounters_mem (k := s.dome.stackOf (16 * w)) (Nat.mod_lt _ (by decide))
  obtain ⟨hdce, hdue⟩ := domCounters_mem
  unfold State.noteWord
  dsimp only
  split
  · have hcounted := (h.count (Reg.stkUe_COUNT (s.dome.stackOf (16 * w))) 1 hue).count Reg.domUe_COUNT 1 hdue
    split
    · exact hcounted
    · exact hcounted.fault _ 2 _
  · split
    · exact (h.count (Reg.stkCe_COUNT (s.dome.stackOf (16 * w))) 1 hce).count Reg.domCe_COUNT 1 hdce
    · exact h

theorem keeps_startRetire (h : Keeps ks b s.base) (page cause : Nat) (ue : List Nat) : Keeps ks b (s.startRetire page cause ue).base := by
  have hasked (d : Dome) (p : Prop) [Decidable p] : Keeps ks b (if p then ({ s with dome := d } : State).onBase (·.raise pgDOM 20) else { s with dome := d }).base :=
    .iteState _ (h.raise pgDOM 20) h
  exact .iteState _ h (keeps_request (hasked _ _) ridRetire _ 2)

theorem keeps_checkWord (h : Keeps memoryCounters b s.base) (reader : Nat) (e : Ecc) (w : Nat) : Keeps memoryCounters b (State.checkWord reader e s w).base := by
  unfold State.checkWord
  dsimp only
  split
  · exact keeps_startRetire (keeps_noteWord h reader e w) _ _ _
  · exact keeps_noteWord h reader e w

theorem keeps_checkBlock (h : Keeps memoryCounters b s.base) (reader : Nat) (e : Ecc) (lo n : Nat) :
    Keeps memoryCounters b (s.checkBlock reader e lo n).base :=
  Keeps.foldl (fun _ w hx => keeps_checkWord hx reader e w) _ h

theorem keeps_spillOne (h : Keeps memoryCounters b s.base) (ecc : Ecc) (g : Nat) : Keeps memoryCounters b (s.spillOne ecc g).base := by
  have hread := keeps_poisonWords (keeps_checkBlock h 3 ecc (g * 4096) 4096) (s.spillBad ecc g)
  have hdrawn : Keeps memoryCounters b { ((s.checkBlock 3 ecc (g * 4096) 4096).poisonWords (s.spillBad ecc g)).base with
      fresh := ((s.checkBlock 3 ecc (g * 4096) 4096).poisonWords (s.spillBad ecc g)).base.fresh + 65536 } := hread.of_regs rfl rfl
  unfold State.spillOne
  extract_lets a
  split
  · exact h
  · exact hdrawn.emit _

theorem keeps_spillBurst (ecc : Ecc) (n : Nat) : ∀ s : State, Keeps memoryCounters b s.base → Keeps memoryCounters b (State.spillBurst ecc n s).base := by
  induction n with
  | zero => exact fun _ h => h
  | succ n ih =>
    intro s h
    unfold State.spillBurst
    split
    · exact h
    · split
      · exact h
      · exact ih _ (keeps_spillOne h ecc _)

theorem keeps_spill (hn : s.base.nhosts ≤ 4) (ecc : Ecc) : Keeps memoryCounters s.base (s.spillRow ecc).base := by
  have hbegun (p : Prop) [Decidable p] (d : Dome) :
      Keeps memoryCounters s.base (if p then ({ s with dome := d } : State).onBase (·.raise pgDOM 16) else s).base := by
    split
    · exact (Keeps.refl hn).raise pgDOM 16
    · exact .refl hn
  unfold State.spillRow
  extract_lets s1
  split
  · exact hbegun _ _
  · split
    · exact keeps_request (hbegun _ _) ridPaging 0 4
    · split <;> exact keeps_spillBurst ecc 32 _ (hbegun _ _)

theorem keeps_retireCopy (h : Keeps memoryCounters b s.base) (ecc : Ecc) (r : Retirement) (blocks : List (Nat × Nat)) :
    Keeps memoryCounters b (s.retireCopy ecc r blocks).base :=
  (keeps_poisonWords (Keeps.foldl (fun _ e hx => keeps_checkBlock hx 4 ecc e.1 e.2) blocks h) _).draw

theorem keeps_retire (hn : s.base.nhosts ≤ 4) (ecc : Ecc) : Keeps memoryCounters s.base (s.retireRow ecc).base := by
  unfold State.retireRow
  split
  · exact .refl hn
  · dsimp only
    split
    · exact keeps_retireCopy (.refl hn) ecc _ _
    · split
      · exact .refl hn
      · exact keeps_retireCopy (.refl hn) ecc _ _

theorem keeps_zeroFill (hn : s.base.nhosts ≤ 4) (g : Nat) : Keeps ks s.base (s.zeroFillRow g).base := by
  unfold State.zeroFillRow
  split <;> exact .refl hn

theorem keeps_stackDown (hn : s.base.nhosts ≤ 4) (k : Nat) : Keeps ks s.base (s.stackDownRow k).base := by
  unfold State.stackDownRow
  split
  · exact .refl hn
  · exact ((Keeps.refl hn).fault _ 1 []).setOwn _ _

theorem keeps_bar2Store (hn : s.base.nhosts ≤ 4) (h off : Nat) (bs : List Byte) (poisoned : Bool) :
    Keeps [Reg.domBar2Miss] s.base (s.bar2Store h off bs poisoned).base := by
  have hmiss : Keeps [Reg.domBar2Miss] s.base s.bar2Miss.base := (Keeps.refl hn).count Reg.domBar2Miss_COUNT 1
  unfold State.bar2Store
  split
  · exact hmiss
  · dsimp only
    split
    · exact hmiss
    · split
      · exact hmiss
      · split
        · exact keeps_poisonWords (.refl hn) _
        · exact .refl hn

theorem keeps_bar2Write (hn : s.base.nhosts ≤ 4) (h off : Nat) (bs : List Byte) (poisoned : Bool) :
    Keeps [Reg.domBar2Miss] s.base (s.bar2WriteRow h off bs poisoned).base := by
  have hstore := keeps_bar2Store hn h off bs poisoned
  unfold State.bar2WriteRow
  dsimp only
  split
  · exact (hstore.of_regs (d := { (s.bar2Store h off bs poisoned).base with fresh := (s.bar2Store h off bs poisoned).base.fresh + 12 }) rfl rfl).linkViolation h 12 _
  · exact hstore

/-- A write of UNIT_CTRL of a page whose ENABLE and RESET do nothing of their own. -/
theorem keeps_unitCtrl (hn : s.base.nhosts ≤ 4) (p : Nat) (a : RegWr) {onEnable : Bool → State → State} {onReset : State → State}
    (he : ∀ on x, onEnable on x = x) (hr : ∀ x, onReset x = x) : Keeps ks s.base (s.unitCtrl p a onEnable onReset).base := by
  refine keeps_write hn (touchesRws_header (by decide) _) (mayChange_storedHdr ks p (by decide) _) fun act old new x h => ?_
  split
  · exact h
  · dsimp only
    rw [hr, he, ite_self]
    split
    · exact h
    · exact h.stateEvents _ _

/-- The Dome's pages have no own effect of ENABLE or RESET. -/
theorem domePage_noEffect {p : Nat} (hlo : 0x020 ≤ p) (hhi : p ≤ 0x028) (testOk : Bool) (retest : List Sample) :
    (∀ on x, State.pageEnabled p on x = x) ∧ ∀ x, State.unitReset testOk retest p x = x := by
  interval_cases p <;> exact ⟨fun _ _ => rfl, fun _ => rfl⟩

theorem keeps_domUnitReset (hn : s.base.nhosts ≤ 4) (p : Nat) (a : RegWr) :
    Keeps ks s.base (if 0x020 ≤ p ∧ p ≤ 0x028 then s.ctrlWriteFree p a else s).base := by
  split
  · rename_i hp
    obtain ⟨he, hr⟩ := domePage_noEffect hp.1 hp.2 s.freeBit []
    exact (keeps_unitCtrl hn p a he hr).draw
  · exact .refl hn

end Dome

/-! ## The configuration transaction -/

section Cfg

variable {b : Base} {s : State}

theorem keeps_cfgRefuse {ks : List Nat} (h : Keeps ks b s.base) (i op page off : Nat) : Keeps ks b (s.cfgRefuse i op page off).base := h.violation _ _ _ _

theorem keeps_cfgEnd (h : Keeps [Reg.cfgCtrl, Reg.cfgStatus] b s.base) (status : Nat) : Keeps [Reg.cfgCtrl, Reg.cfgStatus] b (s.cfgEnd status).base :=
  ((((h.put Reg.cfgStatus_LAST status).putFlag Reg.cfgStatus_OPEN false).putFlag Reg.cfgStatus_SEALED false).put Reg.cfgStatus_STAGED 0).raise 0 16

theorem keeps_cfgOpens (h : Keeps [Reg.cfgCtrl, Reg.cfgStatus] b s.base) (i : Nat) : Keeps [Reg.cfgCtrl, Reg.cfgStatus] b (s.cfgOpens i).base := by
  unfold State.cfgOpens
  split
  · exact keeps_cfgRefuse h _ _ _ _
  · exact ((h.putFlag Reg.cfgStatus_OPEN true).put Reg.cfgStatus_HOLDER i).put Reg.cfgStatus_STAGED 0

theorem keeps_cmpSeal {ks : List Nat} (h : Keeps ks b s.base) : Keeps ks b s.cmpSeal.1.base := by
  unfold State.cmpSeal
  dsimp only
  split
  · exact h.raise pgCMP 16
  · exact h

theorem keeps_cfgCommits (h : Keeps [Reg.cfgCtrl, Reg.cfgStatus] b s.base) (i : Nat) : Keeps [Reg.cfgCtrl, Reg.cfgStatus] b (s.cfgCommits i).base := by
  unfold State.cfgCommits
  split
  · exact keeps_cfgRefuse h _ _ _ _
  · split
    · exact keeps_cfgEnd h _
    · dsimp only
      split
      · exact keeps_cfgEnd (keeps_cmpSeal h) _
      · exact ((keeps_cmpSeal h).putFlag Reg.cfgStatus_OPEN false).putFlag Reg.cfgStatus_SEALED true

theorem keeps_cfgAborts (h : Keeps [Reg.cfgCtrl, Reg.cfgStatus] b s.base) (i : Nat) : Keeps [Reg.cfgCtrl, Reg.cfgStatus] b (s.cfgAborts i).base := by
  unfold State.cfgAborts
  split
  · exact keeps_cfgEnd h _
  · exact keeps_cfgRefuse h _ _ _ _

theorem keeps_cfgCtrl (hn : s.base.nhosts ≤ 4) (a : RegWr) : Keeps [Reg.cfgCtrl, Reg.cfgStatus] s.base (s.cfgCtrlWrite a).base := by
  refine keeps_write hn (touchesRws_of_unstaged (by decide +kernel) _) (mayChange_stored (by decide) (by simp) _) fun act _ _ x h => ?_
  dsimp only
  split
  · exact keeps_cfgRefuse (.refl hn) _ _ _ _
  · split
    · exact keeps_cfgOpens h _
    · exact keeps_cfgCommits h _
    · exact keeps_cfgAborts h _
    · exact h

end Cfg

/-! ## Page headers, reads and queries -/

section Pages

variable {ks : List Nat} {s : State}

theorem keeps_eventWrite (hn : s.base.nhosts ≤ 4) (p : Nat) (a : RegWr) : Keeps ks s.base (s.eventWrite p a).base :=
  keeps_write hn (touchesRws_header (by decide) _) (mayChange_storedHdr ks p (by decide) _) fun _ _ _ _ h => h.msixAll _

theorem keeps_faultWrite (hn : s.base.nhosts ≤ 4) (p : Nat) (a : RegWr) : Keeps ks s.base (s.faultWrite p a).base := by
  refine keeps_write hn (touchesRws_header (by decide) _) (mayChange_storedHdr ks p (by decide) _) fun _ _ _ x h => ?_
  split
  · exact h.setWord 0 (mayChange_hdr ks p (by decide))
  · exact h

theorem keeps_rcRead (hn : s.base.nhosts ≤ 4) (h : Nat) (page : BitVec 10) (off : BitVec 12) (be : BitVec 4) :
    Keeps [regKey page off] s.base (rcReadBase s h page off be) := by
  have hread : Keeps [regKey page off] s.base (s.base.emit (.readData h page.toNat off.toNat (s.readWord h (regKey page off)))) := (Keeps.refl hn).emit _
  exact .ite _ (hread.setWord _ (mayChange_named List.mem_cons_self)) hread

theorem keeps_queryBase (hn : s.base.nhosts ≤ 4) (h : Nat) (q : Query) :
    Keeps [hostCopy h (queryOut q), hostCopy h Reg.frsQueryBound] s.base (queryBase s h q) := by
  have hout : Keeps [hostCopy h (queryOut q), hostCopy h Reg.frsQueryBound] s.base
      (s.base.setWord (hostCopy h (queryOut q)) (BitVec.ofNat 32 (queryWord s h q))) :=
    (Keeps.refl hn).setWord _ (mayChange_named List.mem_cons_self)
  unfold queryBase
  dsimp only
  split
  · exact hout.setWord _ (mayChange_named (List.mem_cons_of_mem _ List.mem_cons_self))
  · exact hout

theorem keeps_queryResult (hn : s.base.nhosts ≤ 4) (h : Nat) (q : Query) :
    Keeps [hostCopy h (queryOut q), hostCopy h Reg.frsQueryBound] s.base (s.queryResultRow h q).base := by
  by_cases hq : s.queries.contains (4 * h + queryNum q) = true
  · rw [queryResultRow_eq s h q hq]
    exact keeps_queryBase hn h q
  · have hnone : s.queryResultRow h q = s := by
      unfold State.queryResultRow
      simp only [Bool.eq_false_iff.mpr hq, Bool.not_false, if_true]
    rw [hnone]
    exact .refl hn

end Pages

/-- Settles O6: each command by what its row keeps (R34; chapters 10, 16, 18). -/
theorem onlyTheNamedRegistersChange : Obligations.OnlyTheNamedRegistersChange :=
  fun _ _ hn =>
    ⟨fun r m1 m2 hx => keepsBut_of_next hx (keeps_railWarn hn r.val m1.toNat m2.toNat),
    fun r m1 m2 hx => keepsBut_of_next hx (keeps_railRecover hn r.val m1.toNat m2.toNat),
    fun r mv hx => keepsBut_of_next hx (keeps_overvolt hn r.val mv.toNat),
    fun r mv hx => keepsBut_of_next hx (keeps_overvoltClear hn r.val mv.toNat),
    fun mv hx => keepsBut_of_next hx (keeps_vhold hn mv.toNat),
    fun hx => keepsBut_of_next hx (keeps_holdoffEnd hn),
    fun hx => keepsBut_of_next hx (keeps_resetOut hn),
    fun a hx => keepsBut_of_next hx (keeps_meas hn a),
    fun khz hx => keepsBut_of_next hx (keeps_measDone hn khz.toNat),
    fun h sp w fl hx => keepsBut_of_next hx (keeps_linkUp hn h.val sp.val w.val fl),
    fun h hx => keepsBut_of_next hx (keeps_linkResetDone hn h.val),
    fun h v hx => keepsBut_of_next hx (keeps_unmask hn h.val v.toNat),
    fun h v hx => keepsBut_of_next hx (keeps_logWrite hn (logWr_mem h.val v)),
    fun h e aer l hx => keepsBut_of_next hx (keeps_tlpError hn h.val e aer l),
    fun h off bs p hx => keepsBut_of_next hx (keeps_bar2Write hn h.val off.toNat bs p),
    fun g hx => keepsBut_of_next hx (keeps_zeroFill hn g),
    fun hx => hx.elim (fun hspill => keepsBut_of_next hspill (keeps_spill hn _)) (fun hretire => keepsBut_of_next hretire (keeps_retire hn _)),
    fun k hx => keepsBut_of_next hx (keeps_stackDown hn k.val),
    fun p a hx => keepsBut_of_next hx (keeps_domUnitReset hn p.toNat a),
    fun a hx => keepsBut_of_next hx (keeps_cfgCtrl hn a),
    fun a hx => keepsBut_of_next hx (keeps_cfgCtrl hn a),
    fun a hx => keepsBut_of_next hx (keeps_cfgCtrl hn a),
    fun p a hx => keepsBut_of_next hx (keeps_eventWrite hn p.toNat a),
    fun p a hx => keepsBut_of_next hx (keeps_faultWrite hn p.toNat a),
    fun h page off be hx => keepsBut_of_next ((exec_rcRead _ h page off be).symm.trans hx) (keeps_rcRead hn h page off be),
    fun page off hx => keepsBut_of_next ((exec_sidebandRead _ page off).symm.trans hx) ((Keeps.refl hn).emit _),
    fun h q hx => keepsBut_of_next hx (keeps_queryResult hn h.val q),
    fun a hx => keepsBut_of_next hx (keeps_calStart hn a),
    fun m hx => keepsBut_of_next hx (keeps_calDone hn m),
    fun h m hx => keepsBut_of_next hx (keeps_doeDiscovery hn h.val m),
    fun h m hx => keepsBut_of_next hx (keeps_krydo hn h.val m)⟩

end Sys2Proof.Proofs

/-! The Compass (chapter 3): depth 0 (R77), the check of its two copies (R87), its unit reset (R88) and its ENABLE (R85). -/

namespace Sys2Proof.Proofs

open Sys2Proof Sys2Proof.Machine Sys2Proof.Laws

/-! ## Depth 0 (R77) -/

theorem clampDepth_zero (dmax : Nat) : clampDepth dmax 0 = 0 := by
  rw [clampDepth, min_eq_right (Int.natCast_nonneg dmax), max_eq_right (Int.neg_nonpos_of_nonneg (Int.natCast_nonneg dmax))]

/-- Settles O10: depth 0 lies within every bound, and its disparity is a multiple of it (R77). -/
theorem depthZeroHasNoDisparity : Obligations.DepthZeroHasNoDisparity := by
  intro dmax k
  have hdisparity : disparity dmax k 0 = 0 := by rw [disparity, clampDepth_zero, Int.zero_mul, Int.zero_tdiv]
  exact ⟨hdisparity, clampDepth_zero dmax⟩

/-! ## What a step of the Compass leaves alone -/

/-- Two states that differ in the Compass and their common core only. -/
def CmpOnly (s t : State) : Prop := t = { s with cmp := t.cmp, base := t.base }

theorem CmpOnly.trans {s t u : State} (h1 : CmpOnly s t) (h2 : CmpOnly t u) : CmpOnly s u := by
  unfold CmpOnly at *; rw [h2, h1]

theorem cmpOnly_onBase (s : State) (f : Base → Base) : CmpOnly s (s.onBase f) := rfl
theorem cmpOnly_cmp (s : State) (c : Compass) : CmpOnly s { s with cmp := c } := rfl

/-! ## The check of the two copies (R87) -/

/-- The words held in two copies lie beyond the page header, and no log counts in them. -/
theorem unitReg_cmpWords : ∀ k ∈ cmpWords, unitReg k = true := by decide +kernel

/-- The state in which the check of this frame has run. -/
def cmpChecked (s : State) : State := { s with cmp := { s.cmp with checked := true } }

theorem cmpCheckRow_first (s : State) (bad : List (BitVec 12 × BitVec 2)) (hfirst : s.cmp.checked = false) :
    s.cmpCheckRow bad = bad.foldl State.cmpBad (cmpChecked s) := by
  rw [State.cmpCheckRow, hfirst, Bool.false_and, if_neg Bool.false_ne_true]
  rfl

theorem cmpCheckRow_again (s : State) (bad : List (BitVec 12 × BitVec 2)) (hrun : s.cmp.checked = true) (hreset : s.cmp.reset = false) :
    s.cmpCheckRow bad = s := by
  rw [State.cmpCheckRow, hrun, hreset, Bool.not_false, Bool.and_self, if_pos rfl]

/-- A word first found bad in one copy. -/
def cmpOneBad (s : State) (o m : Nat) : State :=
  ({ s with cmp := { s.cmp with bad := sput (fun _ => 0) s.cmp.bad o m } } : State).onBase fun b =>
    (b.fault pgCMP 1 (cmpDetail o m)).raise pgCMP 19

/-- A word found bad in both copies reads its cold value, and the Compass is at fault. -/
def coldAtFault (b : Base) (o : Nat) : Base := (b.setWord (hdr pgCMP o) (coldWord (hdr pgCMP o))).setOwn pgCMP uFAULT

/-- A word found bad in both copies; the fault is logged at the first finding only. -/
def cmpBothBad (s : State) (o : Nat) : State :=
  ({ s with cmp := { s.cmp with bad := sput (fun _ => 0) s.cmp.bad o 3, logged := setInsert s.cmp.logged o } } : State).onBase fun b =>
    if s.cmp.logged.contains o then coldAtFault b o else (coldAtFault b o).fault pgCMP 2 (cmpDetail o 3)

section
variable {s : State} {off : BitVec 12} (hword : cmpWords.contains (hdr pgCMP (off.toNat / 4 * 4)) = true)
  (hgood : sget (fun _ => 0) s.cmp.bad (off.toNat / 4 * 4) = 0)
include hword hgood

theorem cmpBad_one {m : BitVec 2} (hm : m = 1 ∨ m = 2) : s.cmpBad (off, m) = cmpOneBad s (off.toNat / 4 * 4) m.toNat := by
  rcases hm with rfl | rfl <;>
  · simp only [State.cmpBad, hword, hgood]
    rfl

theorem cmpBad_both : s.cmpBad (off, 3) = cmpBothBad s (off.toNat / 4 * 4) := by
  cases hlogged : s.cmp.logged.contains (off.toNat / 4 * 4) <;>
  · simp only [State.cmpBad, cmpBothBad, coldAtFault, State.onBase, hword, hgood, hlogged, BitVec.reduceEq, BitVec.reduceToNat, Nat.zero_or,
      decide_false, Bool.not_true, Bool.or_self, Bool.false_eq_true, if_false, if_true]

end

theorem cmpOnly_cmpChecked (s : State) : CmpOnly s (cmpChecked s) := cmpOnly_cmp s _
theorem cmpOnly_cmpOneBad (s : State) (o m : Nat) : CmpOnly s (cmpOneBad s o m) := (cmpOnly_cmp s _).trans (cmpOnly_onBase _ _)
theorem cmpOnly_cmpBothBad (s : State) (o : Nat) : CmpOnly s (cmpBothBad s o) := (cmpOnly_cmp s _).trans (cmpOnly_onBase _ _)

theorem bad_cmpOneBad (s : State) (o m : Nat) : sget (fun _ => 0) (cmpOneBad s o m).cmp.bad o = m :=
  sget_sput_same (fun _ => 0) s.cmp.bad o m

theorem bad_cmpBothBad (s : State) (o : Nat) : sget (fun _ => 0) (cmpBothBad s o).cmp.bad o = 3 :=
  sget_sput_same (fun _ => 0) s.cmp.bad o 3

theorem base_cmpOneBad (s : State) (o m : Nat) : (cmpOneBad s o m).base = (s.base.fault pgCMP 1 (cmpDetail o m)).raise pgCMP 19 := by
  rw [cmpOneBad, onBase_base]

theorem keeps_cmpOneBad (s : State) (o m : Nat) (hn : s.base.nhosts ≤ 4) : Keeps [] s.base (cmpOneBad s o m).base := by
  rw [base_cmpOneBad]
  exact ((Keeps.refl hn).fault _ _ _).raise _ _

theorem hasEvent_cmpOneBad (s : State) (o m : Nat) : (cmpOneBad s o m).hasEvent pgCMP 19 = true := by
  rw [State.hasEvent, base_cmpOneBad]
  exact raise_pending _ pgCMP (by decide)

theorem ownState_fault (b : Base) (p c q : Nat) (d : List Byte) (hn : b.nhosts ≤ 4) : (b.fault p c d).ownState q = b.ownState q := by
  rw [Base.ownState, fault_own b p c d hn, ← Base.ownState]

theorem ownState_cmpOneBad (s : State) (o m p : Nat) (hn : s.base.nhosts ≤ 4) :
    (cmpOneBad s o m).base.ownState p = s.base.ownState p := by
  rw [← ownState_fault s.base pgCMP 1 p (cmpDetail o m) hn, base_cmpOneBad, Base.ownState, raise_own, ← Base.ownState]

theorem ownState_coldAtFault (b : Base) (o : Nat) (hclk : b.ownState pgCMP ≠ uNOCLOCK) : (coldAtFault b o).ownState pgCMP = uFAULT :=
  setOwn_own (b.setWord (hdr pgCMP o) (coldWord (hdr pgCMP o))) pgCMP uFAULT hclk

theorem word_coldAtFault (b : Base) {o : Nat} (hu : unitReg (hdr pgCMP o) = true) :
    (coldAtFault b o).word (hdr pgCMP o) = coldWord (hdr pgCMP o) := by
  rw [coldAtFault, word_setOwn_unit _ _ _ hu, word_setWord_same]

theorem nhosts_coldAtFault (b : Base) (o : Nat) : (coldAtFault b o).nhosts = b.nhosts := by
  rw [coldAtFault, setOwn_nhosts, setWord_nhosts]

/-- Logging the fault changes neither the Compass's state nor the word. -/
theorem cmpBothBad_effect (s : State) {o : Nat} (hu : unitReg (hdr pgCMP o) = true) (hclk : s.base.ownState pgCMP ≠ uNOCLOCK)
    (hn : s.base.nhosts ≤ 4) :
    (cmpBothBad s o).base.ownState pgCMP = uFAULT ∧ (cmpBothBad s o).base.word (hdr pgCMP o) = coldWord (hdr pgCMP o) := by
  have hown := ownState_coldAtFault s.base o hclk
  have hcold := word_coldAtFault s.base hu
  have hfew : (coldAtFault s.base o).nhosts ≤ 4 := (nhosts_coldAtFault s.base o).trans_le hn
  rw [cmpBothBad, onBase_base]
  split
  · exact ⟨hown, hcold⟩
  · exact ⟨(ownState_fault _ _ _ _ _ hfew).trans hown, (word_fault _ _ _ _ hfew hu).trans hcold⟩

/-- A Compass at fault renders flat (R87). -/
theorem cmpFlat_of_fault {s : State} (h : s.base.ownState pgCMP = uFAULT) : s.cmpFlat = true := by
  rw [State.cmpFlat, h, beq_self_eq_true, Bool.or_true]

/-- A first check that finds nothing. -/
theorem compassCopyCheck_clean (s : State) (hfirst : s.cmp.checked = false) :
    exec (.compassCopyCheck []) s = .next { s with cmp := { s.cmp with checked := true } } :=
  congrArg _ (cmpCheckRow_first s [] hfirst)

theorem compassCopyCheck_again (s : State) (l : List (BitVec 12 × BitVec 2)) (hrun : s.cmp.checked = true) (hreset : s.cmp.reset = false) :
    exec (.compassCopyCheck l) s = .next s :=
  congrArg _ (cmpCheckRow_again s l hrun hreset)

/-- A first check that finds a word bad in one copy. -/
theorem compassCopyCheck_one (s : State) (off : BitVec 12) (m : BitVec 2) (hfirst : s.cmp.checked = false)
    (hword : cmpWords.contains (hdr pgCMP (off.toNat / 4 * 4)) = true) (hm : m = 1 ∨ m = 2)
    (hgood : sget (fun _ => 0) s.cmp.bad (off.toNat / 4 * 4) = 0) (hn : s.base.nhosts ≤ 4) :
    ∃ t, exec (.compassCopyCheck [(off, m)]) s = .next t ∧ t.cmp.checked = true ∧ sget (fun _ => 0) t.cmp.bad (off.toNat / 4 * 4) = m.toNat ∧
      t.hasEvent pgCMP 19 = true ∧ t.base.ownState pgCMP = s.base.ownState pgCMP ∧ s.keepsBut t [] ∧ t = { s with cmp := t.cmp, base := t.base } := by
  have hrow : s.cmpCheckRow [(off, m)] = cmpOneBad (cmpChecked s) (off.toNat / 4 * 4) m.toNat :=
    (cmpCheckRow_first s _ hfirst).trans (cmpBad_one (s := cmpChecked s) hword hgood hm)
  exact ⟨cmpOneBad (cmpChecked s) (off.toNat / 4 * 4) m.toNat, congrArg _ hrow, rfl, bad_cmpOneBad _ _ _, hasEvent_cmpOneBad _ _ _,
    ownState_cmpOneBad (cmpChecked s) _ _ _ hn, (keeps_cmpOneBad (cmpChecked s) _ _ hn).word,
    (cmpOnly_cmpChecked s).trans (cmpOnly_cmpOneBad _ _ _)⟩

/-- A first check that finds a word bad in both copies. -/
theorem compassCopyCheck_both (s : State) (off : BitVec 12) (hfirst : s.cmp.checked = false)
    (hword : cmpWords.contains (hdr pgCMP (off.toNat / 4 * 4)) = true) (hgood : sget (fun _ => 0) s.cmp.bad (off.toNat / 4 * 4) = 0)
    (hclk : s.base.ownState pgCMP ≠ uNOCLOCK) (hn : s.base.nhosts ≤ 4) :
    ∃ t, exec (.compassCopyCheck [(off, 3)]) s = .next t ∧ t.cmp.checked = true ∧ sget (fun _ => 0) t.cmp.bad (off.toNat / 4 * 4) = 3 ∧
      t.base.ownState pgCMP = uFAULT ∧ t.base.word (hdr pgCMP (off.toNat / 4 * 4)) = coldWord (hdr pgCMP (off.toNat / 4 * 4)) ∧
      t.cmpFlat = true ∧ t = { s with cmp := t.cmp, base := t.base } := by
  have hrow : s.cmpCheckRow [(off, 3)] = cmpBothBad (cmpChecked s) (off.toNat / 4 * 4) :=
    (cmpCheckRow_first s _ hfirst).trans (cmpBad_both (s := cmpChecked s) hword hgood)
  obtain ⟨hfault, hcold⟩ := cmpBothBad_effect (cmpChecked s) (unitReg_cmpWords _ (List.contains_iff_mem.mp hword)) hclk hn
  exact ⟨cmpBothBad (cmpChecked s) (off.toNat / 4 * 4), congrArg _ hrow, rfl, bad_cmpBothBad _ _, hfault, hcold, cmpFlat_of_fault hfault,
    (cmpOnly_cmpChecked s).trans (cmpOnly_cmpBothBad _ _)⟩

/-! ## UNIT_CTRL (R85, R88) -/

/-- A write of UNIT_CTRL of the Compass that asks for a reset is stored, and the reset begins. -/
theorem ctrlWriteFree_cmpReset (s : State) (a : RegWr) (ha : s.asksReset pgCMP a = true) :
    s.ctrlWriteFree pgCMP a = ((s.stored (hdr pgCMP 0x20) a).cmpReset).onBase Base.draw := by
  rw [State.ctrlWriteFree, ctrlWrite_reset s pgCMP a s.freeBit [] ha]
  rfl

theorem cmpOnly_cmpReset (s : State) : CmpOnly s s.cmpReset := by
  unfold State.cmpReset State.resetBegins
  exact (cmpOnly_cmp s _).trans (cmpOnly_onBase _ _)

/-- COMPASS_UNIT_RESET. -/
theorem compassUnitReset_taken (s : State) (a : RegWr) (ha : s.asksReset pgCMP a = true) :
    ∃ t, exec (.compassUnitReset a) s = .next t ∧ t.cmp = { s.cmp with reset := true } ∧ t.inReset pgCMP = true ∧
      t = { s with cmp := t.cmp, base := t.base } := by
  refine ⟨((s.stored (hdr pgCMP 0x20) a).cmpReset).onBase Base.draw, congrArg _ (ctrlWriteFree_cmpReset s a ha), rfl, ?_, ?_⟩
  · rw [inReset_draw]
    exact inReset_resetBegins _ pgCMP
  · show CmpOnly s _
    exact ((cmpOnly_onBase s _).trans (cmpOnly_cmpReset _)).trans (cmpOnly_onBase _ _)

/-- STATE events touch no ENABLE. -/
theorem enabled_stateEvents (old b : Base) (ps : List Nat) (p : Nat) : (Base.stateEvents old b ps).enabled p = b.enabled p := by
  obtain ⟨_, _, _, _, hword⟩ := stateEvents_same old ps b
  rw [Base.enabled, Base.flag, Base.get, hword _ (by rw [hdr_mod (by decide)]; decide)]
  rfl

theorem enabled_draw (b : Base) (p : Nat) : b.draw.enabled p = b.enabled p := rfl

/-- What the common core is after a write that changes ENABLE of the Compass: the word stored, with the STATE events of its ancestors. -/
def cmpEnableBase (s : State) (a : RegWr) : Base := (Base.stateEvents s.base (s.stored (hdr pgCMP 0x20) a).base (ancestors 5 pgCMP)).draw

/-- The Compass looks at ENABLE at a cut: the write itself has no further effect (R85). -/
theorem ctrlWriteFree_cmpEnable (s : State) (a : RegWr) (on : Bool) (ha : s.asksEnable pgCMP a on = true) :
    s.ctrlWriteFree pgCMP a = { s with base := cmpEnableBase s a } := by
  rw [State.ctrlWriteFree, ctrlWrite_enable s pgCMP a on s.freeBit [] ha]
  rfl

/-- COMPASS_ENABLE. -/
theorem compassEnable_taken (s : State) (a : RegWr) (on : Bool) (ha : s.asksEnable pgCMP a on = true) :
    ∃ t, exec (.compassEnable a) s = .next t ∧ t.base.enabled pgCMP = on ∧ t = { s with base := t.base } := by
  have hon : (cmpEnableBase s a).enabled pgCMP = on := by
    rw [cmpEnableBase, enabled_draw, enabled_stateEvents, enabled_enable s pgCMP a on ha]
  exact ⟨{ s with base := cmpEnableBase s a }, congrArg _ (ctrlWriteFree_cmpEnable s a on ha), hon, rfl⟩

/-- Settles O26: a check of the copies by what it finds (R87), the unit reset (R88) and ENABLE (R85). -/
theorem theCompassChecksResetsAndSwitches : Obligations.TheCompassChecksResetsAndSwitches :=
  ⟨compassCopyCheck_clean, compassCopyCheck_again, compassCopyCheck_one, compassCopyCheck_both, compassUnitReset_taken, compassEnable_taken⟩

end Sys2Proof.Proofs

/-! A command of a ring (chapters 4 and 9): what its run comes to once its ring has settled and schedules are judged, when it is refused, when it completes after a change of its transaction, and when it waits or ends for want of granules. -/

namespace Sys2Proof.Proofs

open Sys2Proof Sys2Proof.Machine Sys2Proof.Laws

/-! ## Checks (R92) -/

/-- A command is accepted when none of its checks holds. -/
theorem firstStatus_cons_none {c : Bool} {st : Nat} {l : List (Bool × Nat)} :
    firstStatus ((c, st) :: l) = none ↔ c = false ∧ firstStatus l = none := by
  cases c <;> simp [firstStatus]

theorem firstStatus_nil : firstStatus [] = none := rfl

theorem testBit_zero_of_le_one {n : Nat} (hn : n ≤ 1) : n.testBit 0 = (n == 1) := by
  obtain rfl | rfl : n = 0 ∨ n = 1 := by omega
  all_goals rfl

/-! ## Changes within a transaction -/

theorem sceneOnly_modTxn (s : State) (h t : Nat) (f : Txn → Txn) : SceneOnly s (s.modTxn h t f) := by
  unfold State.modTxn
  split
  · exact sceneOnly_setTxn s h t _
  · exact .refl s

theorem inTxn_modTxn (s : State) (h t : Nat) (f : Txn → Txn) : InTxn h t s (s.modTxn h t f) := by
  unfold State.modTxn
  split
  · exact inTxn_setTxn s h t _
  · exact .refl h t s

theorem inTxn_accepted (s : State) (h t : Nat) : InTxn h t s (s.accepted h t) := inTxn_modTxn s h t _

theorem inTxn_onBase (s : State) (h t : Nat) (f : Base → Base) : InTxn h t s (s.onBase f) := inTxn_of_scenes h t rfl

/-- A fresh identity leaves every transaction and scene. -/
theorem inTxn_nextOid (s : State) (h t : Nat) : InTxn h t s s.nextOid := ⟨rfl, id, id⟩

theorem view_nextOid (s : State) (h t : Nat) : s.nextOid.view h t = s.view h t := rfl

theorem sceneOnly_nextOid (s : State) : SceneOnly s s.nextOid := rfl

theorem txn_modTxn {s : State} {h t : Nat} {x : Txn} (hx : s.txn h t = some x) (f : Txn → Txn) : (s.modTxn h t f).txn h t = some (f x) := by
  rw [modTxn_some s h t f x hx, txn_setTxn_same]

theorem view_modTxn {s : State} {h t : Nat} {x : Txn} (hx : s.txn h t = some x) (f : Txn → Txn) :
    (s.modTxn h t f).view h t = s.sealedScene.applyAll (f x).ops := by
  rw [modTxn_some s h t f x hx, view_setTxn]

/-- A field that judging does not set, read from what judging leaves of a transaction. -/
theorem map_of_core {o : Option Txn} {y : Txn} {β : Type} (ho : o.map Txn.core = some y.core) (g : Txn → β) (hg : ∀ z : Txn, g z.core = g z) :
    o.map g = some (g y) := by
  have h1 := congrArg (Option.map g) ho
  simpa only [Option.map_map, Function.comp_def, hg, Option.map_some] using h1

/-- Holding an object, or not, leaves the changes staged. -/
theorem ite_hold_ops (c : Prop) [Decidable c] (x : Txn) (k : ObjKind) (key : Nat) : (if c then x.hold k key else x).ops = x.ops := by
  split
  · exact hold_ops x k key
  · rfl

theorem ite_hold_ages (c : Prop) [Decidable c] (x : Txn) (k : ObjKind) (key : Nat) : (if c then x.hold k key else x).ages = x.ages := by
  split
  · exact hold_ages x k key
  · rfl

section

variable {s : State} {h t : Nat} {x : Txn} {f : Txn → Txn} (hx : s.txn h t = some x)

include hx

/-- A change staged is seen. -/
theorem ctx_modTxn {k : Nat} {v : Option Ctx} (hf : (f x).ops = addOp x.ops (.ctx k v)) : ((s.modTxn h t f).view h t).ctx k = v := by
  rw [view_modTxn hx, hf, ctx_addOp]

theorem layer_modTxn {k : Nat} {v : Option Layer} (hf : (f x).ops = addOp x.ops (.layer k v)) : ((s.modTxn h t f).view h t).layer k = v := by
  rw [view_modTxn hx, hf, layer_addOp]

theorem region_modTxn {k : Nat} {v : Option Region} (hf : (f x).ops = addOp x.ops (.region k v)) :
    ((s.modTxn h t f).view h t).region k = v := by
  rw [view_modTxn hx, hf, region_addOp]

end

/-! ## A command that runs -/

section

variable {s v : State} {h : Fin 4} {r : Fin 16} {op st : Nat} {d : Desc} {f : Desc → State → State} {c : Option Nat}

/-- What holds once a command has completed with the change of its own transaction from `s` to `v`. -/
structure Ran (h r : Nat) (d : Desc) (s v t : State) : Prop where
  completed : t.completed h r d
  sealed : t.sealedScene = s.sealedScene
  txn : (t.txn h d.txn).map Txn.core = (v.txn h d.txn).map Txn.core
  view : t.view h d.txn = v.view h d.txn
  only : SceneOnly v t

/-- A ready command that changes its own transaction and completes. -/
theorem ran_ringRow (hr : s.ready h r op d) (hw : swf (fun _ => none) s.scenes.txns = true) (hf : f d s = v.answer h r d c st 0)
    (hv : InTxn h d.txn s v) : Ran h r d s v (s.ringRow h r op f) := by
  have A := after_answer h r d c st 0 h (.refl v) (hv.canon hw)
  rw [ringRow_ready s h r op d f hr, hf]
  exact ⟨completed_answer v h r d c st 0 h, A.sealed.trans hv.sealed, A.txn h d.txn, A.view h d.txn, A.only⟩

/-- A field that judging does not set stands as the command left it. -/
theorem Ran.field {t : State} {y : Txn} {β : Type} (R : Ran h r d s v t) (hy : v.txn h d.txn = some y) (g : Txn → β)
    (hg : ∀ z : Txn, g z.core = g z) : (t.txn h d.txn).map g = some (g y) :=
  map_of_core (R.txn.trans (congrArg _ hy)) g hg

/-- A ready command that only answers is refused. -/
theorem refused_ringRow (hr : s.ready h r op d) (hw : swf (fun _ => none) s.scenes.txns = true) (hf : f d s = s.answer h r d c st 0) :
    s.refuses (s.ringRow h r op f) h r d st 0 := by
  rw [ringRow_ready s h r op d f hr, hf]
  exact refuses_answer s h r d c st 0 h.isLt r.isLt hw

/-- The same for a command whose checks may find a quota exhausted (R119). -/
theorem quotaRefused_ringRow {res : Nat} (hr : s.ready h r op d) (hw : swf (fun _ => none) s.scenes.txns = true)
    (hf : f d s = if st = stQUOTA then s.answerQuota h r d c res else s.answer h r d c st 0) :
    s.refuses (s.ringRow h r op f) h r d st (if st = stQUOTA then res else 0) := by
  by_cases hq : st = stQUOTA
  · subst hq
    rw [ringRow_ready s h r op d f hr, hf]
    exact refuses_answerQuota s h r d c res h.isLt r.isLt hw
  · rw [if_neg hq] at hf ⊢
    exact refused_ringRow hr hw hf

end

end Sys2Proof.Proofs

/-! O12: CTX_OPEN (R94 to R97, R226), CTX_CLOSE (R98) and MARK_FRESH (R228), each by its checks in order and by what it stages. -/

namespace Sys2Proof.Proofs

open Sys2Proof Sys2Proof.Machine Sys2Proof.Laws

/-! ## CTX_OPEN -/

/-- The checks of CTX_OPEN in the order of R92. -/
def ctxOpenChecks (s : State) (h : Nat) (d : Desc) : List (Bool × Nat) :=
  [(!s.joins h d || ((d.rec_ 2 1).testBit 0 && s.held h d .ctx (objKey h (d.rec_ 0 2))), stTXN),
    (decide (3 < d.rec_ 2 1) || decide (2 < d.rec_ 3 1) || d.rec_ 6 2 != 0 || d.rec_ 11 1 != 0 || d.rec_ 12 4 != 0, stFORMAT),
    ((d.rec_ 2 1).testBit 1 && h != s.base.owner, stOWNER),
    (decide (40959 < d.rec_ 0 2) || ((d.rec_ 2 1).testBit 0 && d.rec_ 4 2 == 0 &&
      (((s.view h d.txn).ctx (objKey h (d.rec_ 0 2))).map (fun x => s.criticalOn h d.txn (objKey h (d.rec_ 0 2)) x.oid)).getD false), stRANGE),
    (if (d.rec_ 2 1).testBit 0 then ((s.view h d.txn).ctx (objKey h (d.rec_ 0 2))).isNone
      else ((s.view h d.txn).ctx (objKey h (d.rec_ 0 2))).isSome || s.held h d .ctx (objKey h (d.rec_ 0 2)), stSTATE),
    (!(d.rec_ 2 1).testBit 0 && !s.hasRoom 0 h 1, stQUOTA)]

/-- What CTX_OPEN makes of its transaction for a context that is not there: it stages a new one, with its age. -/
def ctxNew (s : State) (h : Nat) (d : Desc) (x : Txn) : Txn :=
  { x.add (.ctx (objKey h (d.rec_ 0 2)) (some ⟨s.scenes.oids, d.rec_ 3 1, d.rec_ 4 2, (d.rec_ 2 1).testBit 1, d.rec_ 8 3⟩)) with
    accepted := true
    newCtx := x.newCtx + 1
    ages := addAge x.ages ⟨objKey h (d.rec_ 0 2), s.scenes.oids, s.chargedAge d (d.rec_ 8 3)⟩ }

/-- What an update of context `c` by CTX_OPEN makes of its transaction. -/
def ctxUpdate (s : State) (h : Nat) (d : Desc) (c : Ctx) (x : Txn) : Txn :=
  let y := x.add (.ctx (objKey h (d.rec_ 0 2)) (some { c with veil := d.rec_ 3 1, bound := d.rec_ 4 2, shared := (d.rec_ 2 1).testBit 1 }))
  { (if (s.sealedScene.ctx (objKey h (d.rec_ 0 2))).map Ctx.oid = some c.oid then y.hold .ctx (objKey h (d.rec_ 0 2)) else y) with accepted := true }

/-- The state with the new context staged. -/
def ctxOpened (s : State) (h : Nat) (d : Desc) : State := (s.modTxn h d.txn (ctxNew s h d)).nextOid.onBase (·.takeUse h 0 1)

section

variable {s : State} {h r : Nat} {d : Desc} {st : Nat}

theorem runCtxOpen_refused (hst : firstStatus (ctxOpenChecks s h d) = some st) :
    s.runCtxOpen h r d = if st = stQUOTA then s.answerQuota h r d (some (objKey h (d.rec_ 0 2))) 1
      else s.answer h r d (some (objKey h (d.rec_ 0 2))) st 0 := by
  unfold ctxOpenChecks at hst
  simp only [State.runCtxOpen, hst]

theorem runCtxOpen_new (hok : firstStatus (ctxOpenChecks s h d) = none) (hc : (s.view h d.txn).ctx (objKey h (d.rec_ 0 2)) = none) :
    s.runCtxOpen h r d = (ctxOpened s h d).answer h r d (some (objKey h (d.rec_ 0 2))) stOK 0 := by
  unfold ctxOpenChecks at hok
  simp only [State.runCtxOpen, hok]
  rw [hc]
  rfl

theorem runCtxOpen_update {c : Ctx} (hok : firstStatus (ctxOpenChecks s h d) = none) (hupd : (d.rec_ 2 1).testBit 0 = true)
    (hc : (s.view h d.txn).ctx (objKey h (d.rec_ 0 2)) = some c) :
    s.runCtxOpen h r d = (s.modTxn h d.txn (ctxUpdate s h d c)).answer h r d (some (objKey h (d.rec_ 0 2))) stOK 0 := by
  unfold ctxOpenChecks at hok
  simp only [State.runCtxOpen, hok]
  rw [hupd, hc]
  rfl

end

section

variable {s : State} {h : Fin 4} {r : Fin 16} {d : Desc} {x : Txn} (hw : swf (fun _ => none) s.scenes.txns = true) (hx : s.txn h d.txn = some x)
  (hj : s.joins h d = true)

include hw hx hj

/-- A new context. -/
theorem ctxOpen_new (hr : s.ready h r 0x04 d) (hflags : d.rec_ 2 1 = 0 ∨ (d.rec_ 2 1 = 2 ∧ (h : Nat) = s.base.owner)) (hveil : d.rec_ 3 1 ≤ 2)
    (hz6 : d.rec_ 6 2 = 0) (hz11 : d.rec_ 11 1 = 0) (hz12 : d.rec_ 12 4 = 0) (hrange : d.rec_ 0 2 ≤ 40959)
    (hc : (s.view h d.txn).ctx (objKey h (d.rec_ 0 2)) = none) (hheld : s.held h d .ctx (objKey h (d.rec_ 0 2)) = false)
    (hroom : s.hasRoom 0 h 1 = true) :
    ∃ t, exec (.ctxOpen h r) s = .next t ∧ t.completed h r d ∧
      (t.view h d.txn).ctx (objKey h (d.rec_ 0 2)) = some ⟨s.scenes.oids, d.rec_ 3 1, d.rec_ 4 2, d.rec_ 2 1 == 2, d.rec_ 8 3⟩ ∧
      ((t.txn h d.txn).map (fun y => y.ages)) = some (addAge x.ages ⟨objKey h (d.rec_ 0 2), s.scenes.oids, s.chargedAge d (d.rec_ 8 3)⟩) ∧
      ((t.txn h d.txn).map (fun y => y.newCtx)) = some (x.newCtx + 1) ∧
      t = { s with scenes := t.scenes, rings := t.rings, base := t.base } ∧ t.sealedScene = s.sealedScene := by
  obtain ⟨hnew, hshared, howner, hthree⟩ : (d.rec_ 2 1).testBit 0 = false ∧ (d.rec_ 2 1).testBit 1 = (d.rec_ 2 1 == 2) ∧
      (d.rec_ 2 1 = 2 → (h : Nat) = s.base.owner) ∧ d.rec_ 2 1 ≤ 3 := by
    rcases hflags with e | ⟨e, ho⟩ <;> rw [e]
    · exact ⟨rfl, rfl, nofun, by decide⟩
    · exact ⟨rfl, rfl, fun _ => ho, by decide⟩
  have hok : firstStatus (ctxOpenChecks s h d) = none := by
    simpa [firstStatus_cons_none, firstStatus_nil, ctxOpenChecks, hj, hnew, hthree, hveil, hz6, hz11, hz12, hshared, hrange, hc, hheld, hroom] using howner
  have R := ran_ringRow hr hw (runCtxOpen_new hok hc)
    (((inTxn_modTxn s h d.txn _).trans (inTxn_nextOid _ _ _)).trans (inTxn_onBase _ _ _ _))
  have hy : (ctxOpened s h d).txn h d.txn = some (ctxNew s h d x) := txn_modTxn hx _
  refine ⟨_, rfl, R.completed, ?_, R.field hy _ fun _ => rfl, R.field hy _ fun _ => rfl,
    ((sceneOnly_modTxn s h d.txn _).trans (sceneOnly_nextOid _)).trans R.only, R.sealed⟩
  rw [R.view, ← hshared]
  exact ctx_modTxn hx rfl

/-- An existing context. -/
theorem ctxOpen_update {c : Ctx} (hr : s.ready h r 0x04 d) (hflags : d.rec_ 2 1 = 1 ∨ (d.rec_ 2 1 = 3 ∧ (h : Nat) = s.base.owner))
    (hveil : d.rec_ 3 1 ≤ 2) (hz6 : d.rec_ 6 2 = 0) (hz11 : d.rec_ 11 1 = 0) (hz12 : d.rec_ 12 4 = 0) (hrange : d.rec_ 0 2 ≤ 40959)
    (hc : (s.view h d.txn).ctx (objKey h (d.rec_ 0 2)) = some c) (hheld : s.held h d .ctx (objKey h (d.rec_ 0 2)) = false)
    (hbound : d.rec_ 4 2 ≠ 0 ∨ s.criticalOn h d.txn (objKey h (d.rec_ 0 2)) c.oid = false) :
    ∃ t, exec (.ctxOpen h r) s = .next t ∧ t.completed h r d ∧
      (t.view h d.txn).ctx (objKey h (d.rec_ 0 2)) = some { c with veil := d.rec_ 3 1, bound := d.rec_ 4 2, shared := d.rec_ 2 1 == 3 } ∧
      t = { s with scenes := t.scenes, rings := t.rings, base := t.base } ∧ t.sealedScene = s.sealedScene := by
  obtain ⟨hupd, hshared, howner, hthree⟩ : (d.rec_ 2 1).testBit 0 = true ∧ (d.rec_ 2 1).testBit 1 = (d.rec_ 2 1 == 3) ∧
      (d.rec_ 2 1 = 3 → (h : Nat) = s.base.owner) ∧ d.rec_ 2 1 ≤ 3 := by
    rcases hflags with e | ⟨e, ho⟩ <;> rw [e]
    · exact ⟨rfl, rfl, nofun, by decide⟩
    · exact ⟨rfl, rfl, fun _ => ho, by decide⟩
  have hok : firstStatus (ctxOpenChecks s h d) = none := by
    simpa [firstStatus_cons_none, firstStatus_nil, ctxOpenChecks, hj, hupd, hthree, hveil, hz6, hz11, hz12, hshared, hrange, hc, hheld]
      using And.intro howner fun h0 => hbound.resolve_left (not_not_intro h0)
  have R := ran_ringRow hr hw (runCtxOpen_update hok hupd hc) (inTxn_modTxn s h d.txn _)
  refine ⟨_, rfl, R.completed, ?_, (sceneOnly_modTxn s h d.txn _).trans R.only, R.sealed⟩
  rw [R.view, ← hshared]
  exact ctx_modTxn hx (ite_hold_ops _ _ _ _)

end

/-! ## CTX_CLOSE -/

/-- The checks of CTX_CLOSE in the order of R92. -/
def ctxCloseChecks (s : State) (h : Nat) (d : Desc) : List (Bool × Nat) :=
  [(!s.joins h d || s.held h d .ctx (objKey h (d.rec_ 0 2)) || ((s.view h d.txn).layersOf (objKey h (d.rec_ 0 2))).any (s.held h d .layer) ||
      ((s.view h d.txn).regionsOf (objKey h (d.rec_ 0 2))).any (s.held h d .region), stTXN),
    (decide (40959 < d.rec_ 0 2), stRANGE), (((s.view h d.txn).ctx (objKey h (d.rec_ 0 2))).isNone, stSTATE)]

/-- The state with the context, its layers and its regions removed in the transaction. -/
def ctxClosed (s : State) (h : Nat) (d : Desc) : State := (s.dropCtx h d.txn (objKey h (d.rec_ 0 2))).accepted h d.txn

/-- What MARK_FRESH makes of its transaction for context `c`. -/
def ctxMarked (s : State) (h : Nat) (d : Desc) (c : Ctx) (x : Txn) : Txn :=
  let y := if (s.sealedScene.ctx (objKey h (d.rec_ 0 2))).isSome then x.hold .ctx (objKey h (d.rec_ 0 2)) else x
  { y with accepted := true, ages := addAge y.ages ⟨objKey h (d.rec_ 0 2), c.oid, s.chargedAge d (d.rec_ 4 3)⟩ }

/-- The checks of MARK_FRESH in the order of R92. -/
def markFreshChecks (s : State) (h : Nat) (d : Desc) : List (Bool × Nat) :=
  [(!s.joins h d || s.held h d .ctx (objKey h (d.rec_ 0 2)), stTXN), (d.rec_ 2 2 != 0 || d.rec_ 7 1 != 0 || d.rec_ 8 8 != 0, stFORMAT),
    (decide (40959 < d.rec_ 0 2), stRANGE), (((s.view h d.txn).ctx (objKey h (d.rec_ 0 2))).isNone, stSTATE)]

section

variable {s : State} {h r : Nat} {d : Desc} {st : Nat}

theorem runCtxClose_refused (hst : firstStatus (ctxCloseChecks s h d) = some st) :
    s.runCtxClose h r d = s.answer h r d (some (objKey h (d.rec_ 0 2))) st 0 := by
  unfold ctxCloseChecks at hst
  simp only [State.runCtxClose, hst]

theorem runCtxClose_passed (hok : firstStatus (ctxCloseChecks s h d) = none) :
    s.runCtxClose h r d = (ctxClosed s h d).answer h r d (some (objKey h (d.rec_ 0 2))) stOK 0 := by
  unfold ctxCloseChecks at hok
  simp only [State.runCtxClose, hok, ctxClosed]

theorem runMarkFresh_refused (hst : firstStatus (markFreshChecks s h d) = some st) :
    s.runMarkFresh h r d = s.answer h r d (some (objKey h (d.rec_ 0 2))) st 0 := by
  unfold markFreshChecks at hst
  simp only [State.runMarkFresh, hst]

theorem runMarkFresh_passed {c : Ctx} (hok : firstStatus (markFreshChecks s h d) = none)
    (hc : (s.view h d.txn).ctx (objKey h (d.rec_ 0 2)) = some c) :
    s.runMarkFresh h r d = (s.modTxn h d.txn (ctxMarked s h d c)).answer h r d (some (objKey h (d.rec_ 0 2))) stOK 0 := by
  unfold markFreshChecks at hok
  simp only [State.runMarkFresh, hok]
  rw [hc]
  rfl

end

section

variable {s : State} {h : Fin 4} {r : Fin 16} {d : Desc} {x : Txn} {c : Ctx} (hw : swf (fun _ => none) s.scenes.txns = true)
  (hx : s.txn h d.txn = some x) (hj : s.joins h d = true)

include hw hx hj

theorem ctxClose_takes (hr : s.ready h r 0x05 d) (hrange : d.rec_ 0 2 ≤ 40959) (hc : (s.view h d.txn).ctx (objKey h (d.rec_ 0 2)) = some c)
    (hheld : s.held h d .ctx (objKey h (d.rec_ 0 2)) = false)
    (hlayers : ∀ k ∈ (s.view h d.txn).layersOf (objKey h (d.rec_ 0 2)), s.held h d .layer k = false)
    (hregions : ∀ k ∈ (s.view h d.txn).regionsOf (objKey h (d.rec_ 0 2)), s.held h d .region k = false) :
    ∃ t, exec (.ctxClose h r) s = .next t ∧ t.completed h r d ∧ (t.view h d.txn).ctx (objKey h (d.rec_ 0 2)) = none ∧
      (∀ k ∈ (s.view h d.txn).layersOf (objKey h (d.rec_ 0 2)), (t.view h d.txn).layer k = none) ∧
      (∀ k ∈ (s.view h d.txn).regionsOf (objKey h (d.rec_ 0 2)), (t.view h d.txn).region k = none) ∧
      t = { s with scenes := t.scenes, rings := t.rings, dome := t.dome, base := t.base } ∧ t.sealedScene = s.sealedScene := by
  have hok : firstStatus (ctxCloseChecks s h d) = none := by
    simpa [firstStatus_cons_none, firstStatus_nil, ctxCloseChecks, hj, hheld, hrange, hc] using And.intro hlayers hregions
  have hthere : (s.txn h d.txn).isSome := Option.isSome_of_eq_some hx
  have R := ran_ringRow hr hw (runCtxClose_passed hok) ((inTxn_dropCtx h d.txn s _).trans (inTxn_accepted _ _ _))
  have hview := R.view.trans (view_accepted (s.dropCtx h d.txn (objKey h (d.rec_ 0 2))) h d.txn)
  obtain ⟨hl, hg⟩ := objects_dropCtx h d.txn s (objKey h (d.rec_ 0 2)) hthere
  refine ⟨_, rfl, R.completed, ?_, ?_, ?_,
    (sceneMemOnly_dropCtx h d.txn s _).trans ((sceneOnly_accepted _ _ _).trans R.only).mem, R.sealed⟩ <;> rw [hview]
  · exact view_dropCtx h d.txn s _ hthere
  · exact hl
  · exact hg

theorem markFresh_stages (hr : s.ready h r 0x0F d) (hz2 : d.rec_ 2 2 = 0) (hz7 : d.rec_ 7 1 = 0) (hz8 : d.rec_ 8 8 = 0)
    (hrange : d.rec_ 0 2 ≤ 40959) (hc : (s.view h d.txn).ctx (objKey h (d.rec_ 0 2)) = some c)
    (hheld : s.held h d .ctx (objKey h (d.rec_ 0 2)) = false) :
    ∃ t, exec (.markFresh h r) s = .next t ∧ t.completed h r d ∧
      ((t.txn h d.txn).map (fun y => y.ages)) = some (addAge x.ages ⟨objKey h (d.rec_ 0 2), c.oid, s.chargedAge d (d.rec_ 4 3)⟩) ∧
      t = { s with scenes := t.scenes, rings := t.rings, base := t.base } ∧ t.sealedScene = s.sealedScene := by
  have hok : firstStatus (markFreshChecks s h d) = none := by
    simp [firstStatus_cons_none, firstStatus_nil, markFreshChecks, hj, hheld, hz2, hz7, hz8, hrange, hc]
  have R := ran_ringRow hr hw (runMarkFresh_passed hok hc) (inTxn_modTxn s h d.txn _)
  refine ⟨_, rfl, R.completed, (R.field (txn_modTxn hx _) _ fun _ => rfl).trans ?_, (sceneOnly_modTxn s h d.txn _).trans R.only, R.sealed⟩
  rw [ctxMarked, ite_hold_ages]

end

/-- Settles O12: each command by its checks, then by the change that it stages. -/
theorem contextCommandsStageTheirChange : Obligations.ContextCommandsStageTheirChange :=
  ⟨fun _ _ _ _ _ hr hw hx hj => ctxOpen_new hw hx hj hr, fun _ _ _ _ _ _ hr hw hx hj => ctxOpen_update hw hx hj hr,
    fun _ _ _ _ _ _ hr hw hx hj => ctxClose_takes hw hx hj hr, fun _ _ _ _ _ _ hr hw hx hj => markFresh_stages hw hx hj hr,
    fun _ _ _ _ _ hr hw hst => ⟨_, rfl, quotaRefused_ringRow hr hw (runCtxOpen_refused hst)⟩,
    fun _ _ _ _ _ hr hw hst => ⟨_, rfl, refused_ringRow hr hw (runCtxClose_refused hst)⟩,
    fun _ _ _ _ _ hr hw hst => ⟨_, rfl, refused_ringRow hr hw (runMarkFresh_refused hst)⟩⟩

end Sys2Proof.Proofs

/-! O13: LAYER_CREATE with what it does when granules are free, can still come free or cannot (R99, R102, R279), LAYER_DESTROY (R110), LAYER_SET and LAYER_MOVE (R99, R103), each by its checks in order and by what it stages. -/

namespace Sys2Proof.Proofs

open Sys2Proof Sys2Proof.Machine Sys2Proof.Laws

/-! ## A command that wants granules (R279) -/

theorem length_takeMany (host kind hand n i : Nat) (d : Dome) : (Dome.takeMany host kind hand n i d).1.length = n := by
  induction n generalizing i d with
  | zero => rfl
  | succ n ih => exact congrArg (· + 1) (ih (i + 1) _)

section

variable {s : State} {h : Fin 4} {r : Fin 16} {op : Nat} {d : Desc} {f : Desc → State → State} {c : Option Nat}

theorem ring_memShort (s : State) (h n k q : Nat) : (s.memShort h n).ring k q = s.ring k q := ring_onBase _ _ _ _

theorem ringOnly_memShort (s : State) (h n : Nat) : RingOnly s (s.memShort h n) := ringOnly_onBase _ _

/-- A ready command for which no granules can come free ends with ERR_MEMORY, and MEM_SHORT tells it. -/
theorem memShort_ringRow {n : Nat} (hr : s.ready h r op d) (hw : swf (fun _ => none) s.scenes.txns = true)
    (hf : f d s = (s.answer h r d c stMEMORY 0).memShort h n) :
    s.refuses (s.ringRow h r op f) h r d stMEMORY 0 ∧ (s.ringRow h r op f).hasEvent pgDOM 17 = true := by
  have hcalm := (calm_answer s h r d c stMEMORY 0).trans (calm_memShort _ h n)
  have A := after_of_ringOnly h r h (.refl s) ((ringOnly_answer s h r d c stMEMORY 0).trans (ringOnly_memShort _ h n)) hw
  have hdone : DoneIn (((s.answer h r d c stMEMORY 0).memShort h n).ring h r) d.id := by
    rw [ring_memShort]
    exact doneIn_answer s h r d c stMEMORY 0
  rw [ringRow_ready s h r op d f hr, hf]
  refine ⟨⟨⟨?_, answer_writes h r d c stMEMORY 0 h h.isLt r.isLt hcalm (ring_memShort _ _ _ _ _)⟩, A.sealed, A.txn, A.only⟩,
    (calm_after _ h r h).event pgDOM 17 (event_memShort _ h n)⟩
  rw [State.completed, judge_ring]
  exact doneIn_settleRing _ h r h r d.id hdone

/-- A descriptor marked admitted stays so while its ring settles and schedules are judged. -/
theorem admitted_after (v : State) (h r i h' : Nat) :
    ∀ e ∈ ((((v.mark h r i (fun e => { e with admitted := true })).settleRing h r).judge h').ring h r).flight, e.id = i → e.admitted = true := by
  rw [judge_ring, State.settleRing, State.refreshHost, ring_onBase, State.drainHost]
  intro e he
  refine adm_reject h r _ i _ ?_ e (flight_sub_drains _ _ h h r e he)
  simp only [State.mark, ring_setRing, if_true]
  intro q hq hi
  obtain ⟨y, -, rfl⟩ := List.mem_map.mp hq
  split at hi
  · rw [if_pos ‹_›]
  · exact absurd hi ‹_›

/-- A ready command that waits for granules is admitted, counts in its transaction, and changes nothing else. -/
theorem waits_ringRow {x : Txn} {hold : Txn → Txn} (hr : s.ready h r op d) (hw : swf (fun _ => none) s.scenes.txns = true)
    (hx : s.txn h d.txn = some x) (hf : f d s = s.waitMem h r d hold) :
    (∀ e ∈ ((s.ringRow h r op f).ring h r).flight, e.id = d.id → e.admitted = true) ∧
      ((s.ringRow h r op f).txn h d.txn).map (·.accepted) = some true ∧ SceneOnly s (s.ringRow h r op f) ∧
      (s.ringRow h r op f).sealedScene = s.sealedScene := by
  have hv := inTxn_modTxn s h d.txn (fun x => { hold x with accepted := true })
  have A := after_of_ringOnly h r h (sceneOnly_modTxn s h d.txn (fun x => { hold x with accepted := true }))
    (ringOnly_mark _ h r d.id (fun e => { e with admitted := true })) (hv.canon hw)
  rw [ringRow_ready s h r op d f hr, hf]
  refine ⟨admitted_after _ h r d.id h, ?_, A.only, A.sealed.trans hv.sealed⟩
  exact map_of_core ((A.txn h d.txn).trans (congrArg _ (txn_modTxn hx _))) _ fun _ => rfl

end

/-! ## LAYER_CREATE -/

/-- The checks of LAYER_CREATE in the order of R92. -/
def layerCreateChecks (s : State) (h : Nat) (d : Desc) : List (Bool × Nat) :=
  let l := d.layer h s.scenes.oids
  [(l.width == 0 || l.height == 0, stNOOP), (!s.joins h d || s.held h d .ctx l.ctx, stTXN),
    (decide (3 < d.rec_ 6 1) || d.rec_ 28 4 != 0 || l.badForm, stFORMAT),
    (decide (49151 < d.rec_ 0 2) || decide (40959 < d.rec_ 2 2) || decide (16384 < l.width) || decide (16384 < l.height), stRANGE),
    (((s.view h d.txn).layer (objKey h (d.rec_ 0 2))).isSome || s.held h d .layer (objKey h (d.rec_ 0 2)) || ((s.view h d.txn).ctx l.ctx).isNone,
      stSTATE),
    (!d.admitted && (!s.hasRoom 1 h 1 || !s.hasRoom 5 h (l.planeGrans 0 + l.planeGrans 1)), stQUOTA)]

/-- The granules of both planes of a record's layer. -/
def createNeeds (s : State) (h : Nat) (d : Desc) : Nat := (d.layer h s.scenes.oids).planeGrans 0 + (d.layer h s.scenes.oids).planeGrans 1

/-- A sealed context of the new layer is held (R111). -/
def holdCtx (s : State) (h : Nat) (d : Desc) (x : Txn) : Txn :=
  if (s.sealedScene.ctx (d.layer h s.scenes.oids).ctx).isSome then x.hold .ctx (d.layer h s.scenes.oids).ctx else x

/-- The granules taken for the colour plane, and the scene memory left. -/
def takenColour (s : State) (h : Nat) (d : Desc) : List Nat × Dome :=
  Dome.takeMany h 0 (d.rec_ 0 2) ((d.layer h s.scenes.oids).planeGrans 0) 0 s.dome

/-- The granules taken then for the ZT16 plane, and the scene memory left. -/
def takenDepth (s : State) (h : Nat) (d : Desc) : List Nat × Dome :=
  Dome.takeMany h 1 (d.rec_ 0 2) ((d.layer h s.scenes.oids).planeGrans 1) 0 (takenColour s h d).2

/-- What LAYER_CREATE makes of its transaction. -/
def stageLayer (s : State) (h : Nat) (d : Desc) (x : Txn) : Txn :=
  let y := holdCtx s h d (x.add (.layer (objKey h (d.rec_ 0 2))
    (some { d.layer h s.scenes.oids with gc := (takenColour s h d).1, gz := (takenDepth s h d).1 })))
  { y with accepted := true, newLayer := y.newLayer + 1, grans := (takenColour s h d).1 ++ (takenDepth s h d).1 ++ y.grans }

/-- The state with the granules taken. -/
def granted (s : State) (h : Nat) (d : Desc) : State := { s with dome := (takenDepth s h d).2 }

/-- The state with the granules taken and the layer staged. -/
def layerCreated (s : State) (h : Nat) (d : Desc) : State :=
  ((granted s h d).modTxn h d.txn (stageLayer s h d)).nextOid.onBase (fun b => (b.takeUse h 1 1).takeUse h 5 (createNeeds s h d))

section

variable {s : State} {h r : Nat} {d : Desc} {st : Nat}

theorem runLayerCreate_refused (hst : firstStatus (layerCreateChecks s h d) = some st) :
    s.runLayerCreate h r d = if st = stQUOTA
      then s.answerQuota h r d (some (d.layer h s.scenes.oids).ctx) (if s.hasRoom 1 h 1 then 5 else 2)
      else s.answer h r d (some (d.layer h s.scenes.oids).ctx) st 0 := by
  simp only [layerCreateChecks] at hst
  simp only [State.runLayerCreate, hst]

section

variable (hok : firstStatus (layerCreateChecks s h d) = none)

include hok

theorem runLayerCreate_free (ha : s.allocState (createNeeds s h d) = 0) :
    s.runLayerCreate h r d = (layerCreated s h d).answer h r d (some (d.layer h s.scenes.oids).ctx) stOK 0 := by
  simp only [layerCreateChecks] at hok
  unfold createNeeds at ha
  simp only [State.runLayerCreate, hok]
  rw [ha]
  rfl

theorem runLayerCreate_waits (ha : s.allocState (createNeeds s h d) = 1) : s.runLayerCreate h r d = s.waitMem h r d (holdCtx s h d) := by
  simp only [layerCreateChecks] at hok
  unfold createNeeds at ha
  simp only [State.runLayerCreate, hok]
  rw [ha]
  rfl

theorem runLayerCreate_short (ha : s.allocState (createNeeds s h d) = 2) :
    s.runLayerCreate h r d = (s.answer h r d (some (d.layer h s.scenes.oids).ctx) stMEMORY 0).memShort h (createNeeds s h d) := by
  simp only [layerCreateChecks] at hok
  unfold createNeeds at ha
  simp only [State.runLayerCreate, hok]
  rw [ha]
  rfl

end

/-- A LAYER_CREATE that joins its transaction and passes the checks of its record passes all. -/
theorem layerCreateChecks_none (hj : s.joins h d = true) (hc : s.layerChecked h d = true) : firstStatus (layerCreateChecks s h d) = none := by
  simp only [State.layerChecked, Bool.and_eq_true, bne_iff_ne, Bool.not_eq_true', decide_eq_true_eq, beq_iff_eq, Bool.or_eq_true,
    Option.isNone_iff_eq_none] at hc
  obtain ⟨⟨⟨⟨⟨⟨⟨⟨⟨⟨hwide, hhigh⟩, hheldc⟩, hflags⟩, hz28⟩, hform⟩, hhand, hctx, hmaxw, hmaxh⟩, hnew⟩, hheld⟩, hthere⟩, hroom⟩ := hc
  have hquota : d.admitted = false → s.hasRoom 1 h 1 = true ∧
      s.hasRoom 5 h ((d.layer h s.scenes.oids).planeGrans 0 + (d.layer h s.scenes.oids).planeGrans 1) = true :=
    fun ha => hroom.resolve_left (by simp [ha])
  simpa [firstStatus_cons_none, firstStatus_nil, layerCreateChecks, hj, hwide, hhigh, hheldc, hflags, hz28, hform, hhand, hctx, hmaxw, hmaxh, hnew,
    hheld] using And.intro hthere hquota

theorem inTxn_layerCreated : InTxn h d.txn s (layerCreated s h d) :=
  have hgrant : InTxn h d.txn s (granted s h d) := inTxn_of_scenes h d.txn rfl
  ((hgrant.trans (inTxn_modTxn _ _ _ _)).trans (inTxn_nextOid _ _ _)).trans (inTxn_onBase _ _ _ _)

theorem sceneMemOnly_layerCreated : SceneMemOnly s (layerCreated s h d) :=
  have hgrant : SceneMemOnly s (granted s h d) := rfl
  hgrant.trans (((sceneOnly_modTxn _ _ _ _).trans (sceneOnly_nextOid _)).trans (sceneOnly_onBase _ _)).mem

theorem stageLayer_ops (x : Txn) : (stageLayer s h d x).ops = addOp x.ops (.layer (objKey h (d.rec_ 0 2))
    (some { d.layer h s.scenes.oids with gc := (takenColour s h d).1, gz := (takenDepth s h d).1 })) := ite_hold_ops _ _ _ _

theorem layer_layerCreated {x : Txn} (hx : s.txn h d.txn = some x) : ((layerCreated s h d).view h d.txn).layer (objKey h (d.rec_ 0 2)) =
    some { d.layer h s.scenes.oids with gc := (takenColour s h d).1, gz := (takenDepth s h d).1 } := by
  have hgrant : (granted s h d).txn h d.txn = some x := hx
  rw [layerCreated, view_onBase, view_nextOid]
  exact layer_modTxn hgrant (stageLayer_ops x)

/-- An ALLOCATION_RESUME of a ring whose LAYER_CREATE waits runs it again (R279). -/
theorem resumeRing_layerCreate (hr : s.ready h r 0x06 d) (ha : d.admitted = true) :
    s.resumeRing h r = s.ringRow h r 0x06 (State.runLayerCreate h r) := by
  obtain ⟨hnext, -⟩ := hr
  obtain ⟨hfront, hop⟩ : (s.ring h r).front = some d ∧ d.op = 0x06 := by
    unfold State.next at hnext
    split at hnext
    · simpa [Option.filter_eq_some_iff] using hnext
    · cases hnext
  simp only [State.resumeRing, hfront, Option.filter_some, ha, if_true, Option.map_some, hop]

end

section

variable {s : State} {h : Fin 4} {r : Fin 16} {d : Desc} {x : Txn} (hw : swf (fun _ => none) s.scenes.txns = true)
  (hx : s.txn h d.txn = some x) (hj : s.joins h d = true)

include hw hx hj

theorem layerCreate_stages (hr : s.ready h r 0x06 d) (hc : s.layerChecked h d = true)
    (ha : s.allocState ((d.layer h s.scenes.oids).planeGrans 0 + (d.layer h s.scenes.oids).planeGrans 1) = 0) :
    ∃ t gc gz, exec (.layerCreate h r) s = .next t ∧ t.completed h r d ∧
      (t.view h d.txn).layer (objKey h (d.rec_ 0 2)) = some { d.layer h s.scenes.oids with gc := gc, gz := gz } ∧
      gc.length = (d.layer h s.scenes.oids).planeGrans 0 ∧ gz.length = (d.layer h s.scenes.oids).planeGrans 1 ∧
      (d.admitted = true → exec (.allocationResume h (some r)) s = .next t) ∧
      t = { s with scenes := t.scenes, rings := t.rings, dome := t.dome, base := t.base } ∧ t.sealedScene = s.sealedScene := by
  have R := ran_ringRow hr hw (runLayerCreate_free (layerCreateChecks_none hj hc) ha) inTxn_layerCreated
  refine ⟨_, (takenColour s h d).1, (takenDepth s h d).1, rfl, R.completed, ?_, length_takeMany _ _ _ _ _ _, length_takeMany _ _ _ _ _ _,
    fun hadm => congrArg Host.Outcome.next (resumeRing_layerCreate hr hadm), sceneMemOnly_layerCreated.trans R.only.mem, R.sealed⟩
  rw [R.view, layer_layerCreated hx]

theorem layerCreate_wants (hr : s.ready h r 0x06 d) (hc : s.layerChecked h d = true) :
    (s.allocState ((d.layer h s.scenes.oids).planeGrans 0 + (d.layer h s.scenes.oids).planeGrans 1) = 1 →
      ∃ t, exec (.layerCreate h r) s = .next t ∧ (∀ e ∈ (t.ring h r).flight, e.id = d.id → e.admitted = true) ∧
        (t.txn h d.txn).map (·.accepted) = some true ∧
        t = { s with scenes := t.scenes, rings := t.rings, base := t.base } ∧ t.sealedScene = s.sealedScene) ∧
    (s.allocState ((d.layer h s.scenes.oids).planeGrans 0 + (d.layer h s.scenes.oids).planeGrans 1) = 2 →
      ∃ t, exec (.layerCreate h r) s = .next t ∧ s.refuses t h r d stMEMORY 0 ∧ t.hasEvent pgDOM 17 = true) := by
  have hok := layerCreateChecks_none hj hc
  exact ⟨fun ha => ⟨_, rfl, waits_ringRow hr hw hx (runLayerCreate_waits hok ha)⟩,
    fun ha => ⟨_, rfl, memShort_ringRow hr hw (runLayerCreate_short hok ha)⟩⟩

end

/-! ## LAYER_DESTROY, LAYER_SET and LAYER_MOVE -/

/-- The checks of LAYER_DESTROY in the order of R92. -/
def layerDestroyChecks (s : State) (h : Nat) (d : Desc) : List (Bool × Nat) :=
  [(!s.joins h d || s.held h d .layer (objKey h (d.rec_ 0 2)), stTXN), (decide (49151 < d.rec_ 0 2), stRANGE),
    (((s.view h d.txn).layer (objKey h (d.rec_ 0 2))).isNone, stSTATE)]

/-- The state with the layer removed in the transaction. -/
def layerDestroyed (s : State) (h : Nat) (d : Desc) : State := (s.dropLayer h d.txn (objKey h (d.rec_ 0 2))).accepted h d.txn

/-- The checks of LAYER_SET and LAYER_MOVE in the order of R92. -/
def layerChangeChecks (s : State) (h : Nat) (d : Desc) : List (Bool × Nat) :=
  [(!s.joins h d || s.held h d .layer (objKey h (d.rec_ 0 2)), stTXN), (decide (3 < d.rec_ 6 1) || d.rec_ 28 4 != 0, stFORMAT),
    (decide (49151 < d.rec_ 0 2), stRANGE),
    ((((s.view h d.txn).layer (objKey h (d.rec_ 0 2))).map (fun l => d.rec_ 16 2 != 0 && (l.pin || l.kind == 1))).getD true, stSTATE)]

/-- What LAYER_SET or LAYER_MOVE makes of its transaction when the layer becomes `l`. -/
def stageChange (s : State) (h : Nat) (d : Desc) (l : Layer) (x : Txn) : Txn :=
  let y := x.add (.layer (objKey h (d.rec_ 0 2)) (some l))
  { (if (s.sealedScene.layer (objKey h (d.rec_ 0 2))).isSome then y.hold .layer (objKey h (d.rec_ 0 2)) else y) with accepted := true }

section

variable {s : State} {h r : Nat} {d : Desc} {st : Nat} {f : Desc → Layer → Layer}

theorem runLayerDestroy_refused (hst : firstStatus (layerDestroyChecks s h d) = some st) :
    s.runLayerDestroy h r d = s.answer h r d (s.layerCtx h d) st 0 := by
  unfold layerDestroyChecks at hst
  simp only [State.runLayerDestroy, hst]

theorem runLayerDestroy_passed (hok : firstStatus (layerDestroyChecks s h d) = none) :
    s.runLayerDestroy h r d = (layerDestroyed s h d).answer h r d (s.layerCtx h d) stOK 0 := by
  unfold layerDestroyChecks at hok
  simp only [State.runLayerDestroy, hok, layerDestroyed]

theorem runLayerChange_refused (hst : firstStatus (layerChangeChecks s h d) = some st) :
    s.runLayerChange h r f d = s.answer h r d (s.layerCtx h d) st 0 := by
  unfold layerChangeChecks at hst
  simp only [State.runLayerChange, hst]

theorem runLayerChange_passed {l : Layer} (hok : firstStatus (layerChangeChecks s h d) = none)
    (hl : (s.view h d.txn).layer (objKey h (d.rec_ 0 2)) = some l) :
    s.runLayerChange h r f d = (s.modTxn h d.txn (stageChange s h d (f d l))).answer h r d (s.layerCtx h d) stOK 0 := by
  unfold layerChangeChecks at hok
  simp only [State.runLayerChange, hok]
  rw [hl]
  rfl

end

section

variable {s : State} {h : Fin 4} {r : Fin 16} {op : Nat} {d : Desc} {x : Txn} {l : Layer} (hw : swf (fun _ => none) s.scenes.txns = true)
  (hx : s.txn h d.txn = some x) (hj : s.joins h d = true)

include hw hx hj

theorem layerDestroy_takes (hr : s.ready h r 0x07 d) (hrange : d.rec_ 0 2 ≤ 49151)
    (hl : (s.view h d.txn).layer (objKey h (d.rec_ 0 2)) = some l) (hheld : s.held h d .layer (objKey h (d.rec_ 0 2)) = false) :
    ∃ t, exec (.layerDestroy h r) s = .next t ∧ t.completed h r d ∧ (t.view h d.txn).layer (objKey h (d.rec_ 0 2)) = none ∧
      t = { s with scenes := t.scenes, rings := t.rings, dome := t.dome, base := t.base } ∧ t.sealedScene = s.sealedScene := by
  have hok : firstStatus (layerDestroyChecks s h d) = none := by
    simp [firstStatus_cons_none, firstStatus_nil, layerDestroyChecks, hj, hheld, hrange, hl]
  have R := ran_ringRow hr hw (runLayerDestroy_passed hok) ((inTxn_dropLayer h d.txn s _).trans (inTxn_accepted _ _ _))
  refine ⟨_, rfl, R.completed, ?_, (sceneMemOnly_dropLayer h d.txn s _).trans ((sceneOnly_accepted _ _ _).trans R.only).mem, R.sealed⟩
  rw [R.view, layerDestroyed, view_accepted, view_dropLayer h d.txn s _ x l hx hl]

/-- A change of fields that passes its checks is staged (R103). -/
theorem layerChange_stages {f : Desc → Layer → Layer} (hr : s.ready h r op d) (hrange : d.rec_ 0 2 ≤ 49151) (hflags : d.rec_ 6 1 ≤ 3)
    (hz28 : d.rec_ 28 4 = 0) (hdepth : d.rec_ 16 2 = 0 ∨ (l.pin = false ∧ l.kind ≠ 1))
    (hl : (s.view h d.txn).layer (objKey h (d.rec_ 0 2)) = some l) (hheld : s.held h d .layer (objKey h (d.rec_ 0 2)) = false) :
    ∃ t, Host.Outcome.next (s.ringRow h r op (State.runLayerChange h r f)) = (.next t : Out) ∧ t.completed h r d ∧
      (t.view h d.txn).layer (objKey h (d.rec_ 0 2)) = some (f d l) ∧
      t = { s with scenes := t.scenes, rings := t.rings, base := t.base } ∧ t.sealedScene = s.sealedScene := by
  have hok : firstStatus (layerChangeChecks s h d) = none := by
    have hpinned : d.rec_ 16 2 ≠ 0 → l.pin = false ∧ l.kind ≠ 1 := hdepth.resolve_left
    simpa [firstStatus_cons_none, firstStatus_nil, layerChangeChecks, hj, hheld, hflags, hz28, hrange, hl] using hpinned
  have R := ran_ringRow hr hw (runLayerChange_passed (f := f) hok hl) (inTxn_modTxn s h d.txn _)
  refine ⟨_, rfl, R.completed, ?_, (sceneOnly_modTxn s h d.txn _).trans R.only, R.sealed⟩
  rw [R.view]
  exact layer_modTxn hx (ite_hold_ops _ _ _ _)

end

/-- LAYER_SET and LAYER_MOVE are refused alike (R103). -/
theorem layerChange_refused (s : State) (h : Fin 4) (r : Fin 16) (d : Desc) (st : Nat) (c : Instr) (op : Nat)
    (hop : (op, c) ∈ [(0x08, .layerSet h r), (0x0B, .layerMove h r)]) (hr : s.ready h r op d) (hw : swf (fun _ => none) s.scenes.txns = true)
    (hst : firstStatus (layerChangeChecks s h d) = some st) : ∃ t, exec c s = .next t ∧ s.refuses t h r d st 0 := by
  rcases List.mem_pair.mp hop with hop | hop <;> cases hop <;> exact ⟨_, rfl, refused_ringRow hr hw (runLayerChange_refused hst)⟩

/-- Settles O13: each command by its checks, then by the change that it stages; LAYER_CREATE by what stands of granules. -/
theorem layerCommandsStageTheirChange : Obligations.LayerCommandsStageTheirChange :=
  ⟨fun _ _ _ _ _ hr hw hx hj => layerCreate_stages hw hx hj hr, fun _ _ _ _ _ hr hw hx hj => layerCreate_wants hw hx hj hr,
    fun _ _ _ _ _ _ hr hw hx hj => layerDestroy_takes hw hx hj hr,
    fun _ _ _ _ _ _ hr hw hx hj => layerChange_stages (f := setFields) hw hx hj hr,
    fun _ _ _ _ _ _ hr hw hx hj => layerChange_stages (f := moveFields) hw hx hj hr,
    fun _ _ _ _ _ hr hw hst => ⟨_, rfl, quotaRefused_ringRow hr hw (runLayerCreate_refused hst)⟩,
    fun _ _ _ _ _ hr hw hst => ⟨_, rfl, refused_ringRow hr hw (runLayerDestroy_refused hst)⟩, layerChange_refused⟩

end Sys2Proof.Proofs

/-! O14: REGION_SET (R114, R115) and REGION_CLEAR (R114), each by its checks in order and by what it stages. -/

namespace Sys2Proof.Proofs

open Sys2Proof Sys2Proof.Machine Sys2Proof.Laws

/-! ## REGION_SET -/

/-- The host of the layer that a REGION_SET names: the issuing host for the panel (R115). -/
def regionHost (s : State) (h : Nat) (d : Desc) : Option Nat := if d.rec_ 4 2 = 0xFFFF then some h else s.regionLayer h d.txn (d.rec_ 4 2)

/-- The checks of REGION_SET in the order of R92. -/
def regionSetChecks (s : State) (h : Nat) (d : Desc) : List (Bool × Nat) :=
  [(d.rec_ 12 2 == 0 || d.rec_ 14 2 == 0, stNOOP),
    (!s.joins h d || s.held h d .region (objKey h (d.rec_ 0 2)) || s.held h d .ctx (objKey h (d.rec_ 2 2)), stTXN),
    (decide (1 < d.rec_ 6 1) || d.rec_ 7 1 != 0, stFORMAT),
    (decide (4095 < d.rec_ 0 2) || decide (40959 < d.rec_ 2 2) || (decide (49151 < d.rec_ 4 2) && d.rec_ 4 2 != 0xFFFF) ||
      decide (s.base.get Reg.cmpSize_WIDTH ≤ d.rec_ 8 2) || decide (s.base.get Reg.cmpSize_HEIGHT ≤ d.rec_ 10 2) ||
      ((d.rec_ 6 1).testBit 0 && s.boundZero h d.txn (objKey h (d.rec_ 2 2))), stRANGE),
    (((s.view h d.txn).ctx (objKey h (d.rec_ 2 2))).isNone || (regionHost s h d).isNone, stSTATE),
    (((s.view h d.txn).region (objKey h (d.rec_ 0 2))).isNone && !s.hasRoom 2 h 1, stQUOTA)]

/-- The watch region of a REGION_SET record, of the panel or of a layer of host `o`; one that replaces another keeps its identity. -/
def recordRegion (s : State) (h : Nat) (d : Desc) (o : Nat) : Region :=
  ⟨(((s.view h d.txn).region (objKey h (d.rec_ 0 2))).map (·.oid)).getD s.scenes.oids, objKey h (d.rec_ 2 2), d.rec_ 4 2, o,
    (d.rec_ 6 1).testBit 0, d.rec_ 8 2, d.rec_ 10 2, d.rec_ 12 2, d.rec_ 14 2⟩

/-- What REGION_SET makes of its transaction. -/
def stageRegion (s : State) (h : Nat) (d : Desc) (g : Region) (x : Txn) : Txn :=
  let cur := (s.view h d.txn).region (objKey h (d.rec_ 0 2))
  let x1 := x.add (.region (objKey h (d.rec_ 0 2)) (some g))
  let x2 := if (s.sealedScene.region (objKey h (d.rec_ 0 2))).isSome && cur.isSome then x1.hold .region (objKey h (d.rec_ 0 2)) else x1
  let x3 := if (s.sealedScene.ctx (objKey h (d.rec_ 2 2))).isSome then x2.hold .ctx (objKey h (d.rec_ 2 2)) else x2
  { x3 with accepted := true, newReg := if cur.isNone then x3.newReg + 1 else x3.newReg }

theorem stageRegion_ops (s : State) (h : Nat) (d : Desc) (g : Region) (x : Txn) :
    (stageRegion s h d g x).ops = addOp x.ops (.region (objKey h (d.rec_ 0 2)) (some g)) :=
  (ite_hold_ops _ _ _ _).trans (ite_hold_ops _ _ _ _)

/-- The state with the region staged; a new one takes an identity and a unit. -/
def regionStaged (s : State) (h : Nat) (d : Desc) (g : Region) : State :=
  let v := s.modTxn h d.txn (stageRegion s h d g)
  if ((s.view h d.txn).region (objKey h (d.rec_ 0 2))).isNone then v.nextOid.onBase (·.takeUse h 2 1) else v

section

variable {s : State} {h r : Nat} {d : Desc} {st : Nat}

theorem isNone_regionHost : (regionHost s h d).isNone = if d.rec_ 4 2 = 0xFFFF then false else (s.regionLayer h d.txn (d.rec_ 4 2)).isNone :=
  apply_ite Option.isNone _ _ _

theorem runRegionSet_refused (hst : firstStatus (regionSetChecks s h d) = some st) :
    s.runRegionSet h r d = if st = stQUOTA then s.answerQuota h r d (some (objKey h (d.rec_ 2 2))) 3
      else s.answer h r d (some (objKey h (d.rec_ 2 2))) st 0 := by
  unfold regionSetChecks regionHost at hst
  simp only [State.runRegionSet, hst]

theorem runRegionSet_passed {o : Nat} (hok : firstStatus (regionSetChecks s h d) = none) (ho : regionHost s h d = some o) :
    s.runRegionSet h r d = (regionStaged s h d (recordRegion s h d o)).answer h r d (some (objKey h (d.rec_ 2 2))) stOK 0 := by
  unfold regionSetChecks at hok
  unfold regionHost at hok ho
  simp only [State.runRegionSet, hok]
  rw [ho]
  rfl

theorem inTxn_regionStaged (g : Region) : InTxn h d.txn s (regionStaged s h d g) := by
  have hmod := inTxn_modTxn s h d.txn (stageRegion s h d g)
  unfold regionStaged
  split
  · exact (hmod.trans (inTxn_nextOid _ _ _)).trans (inTxn_onBase _ _ _ _)
  · exact hmod

theorem sceneOnly_regionStaged (g : Region) : SceneOnly s (regionStaged s h d g) := by
  have hmod := sceneOnly_modTxn s h d.txn (stageRegion s h d g)
  unfold regionStaged
  split
  · exact (hmod.trans (sceneOnly_nextOid _)).trans (sceneOnly_onBase _ _)
  · exact hmod

theorem region_regionStaged {x : Txn} (hx : s.txn h d.txn = some x) (g : Region) :
    ((regionStaged s h d g).view h d.txn).region (objKey h (d.rec_ 0 2)) = some g := by
  have hmod := region_modTxn hx (stageRegion_ops s h d g x)
  unfold regionStaged
  split
  · exact hmod
  · exact hmod

end

/-! ## REGION_CLEAR -/

/-- The checks of REGION_CLEAR in the order of R92. -/
def regionClearChecks (s : State) (h : Nat) (d : Desc) : List (Bool × Nat) :=
  [(!s.joins h d || s.held h d .region (objKey h (d.rec_ 0 2)), stTXN), (decide (4095 < d.rec_ 0 2), stRANGE),
    (((s.view h d.txn).region (objKey h (d.rec_ 0 2))).isNone, stSTATE)]

/-- The context that a REGION_CLEAR completes under (R257). -/
def clearedCtx (s : State) (h : Nat) (d : Desc) : Option Nat := ((s.view h d.txn).region (objKey h (d.rec_ 0 2))).map (·.ctx)

/-- The state with the region removed in the transaction. -/
def regionCleared (s : State) (h : Nat) (d : Desc) : State := (s.dropRegion h d.txn (objKey h (d.rec_ 0 2))).accepted h d.txn

section

variable {s : State} {h r : Nat} {d : Desc} {st : Nat}

theorem runRegionClear_refused (hst : firstStatus (regionClearChecks s h d) = some st) :
    s.runRegionClear h r d = s.answer h r d (clearedCtx s h d) st 0 := by
  unfold regionClearChecks at hst
  simp only [State.runRegionClear, hst, clearedCtx]

theorem runRegionClear_passed (hok : firstStatus (regionClearChecks s h d) = none) :
    s.runRegionClear h r d = (regionCleared s h d).answer h r d (clearedCtx s h d) stOK 0 := by
  unfold regionClearChecks at hok
  simp only [State.runRegionClear, hok, regionCleared, clearedCtx]

end

section

variable {s : State} {h : Fin 4} {r : Fin 16} {d : Desc} {x : Txn} (hw : swf (fun _ => none) s.scenes.txns = true)
  (hx : s.txn h d.txn = some x) (hj : s.joins h d = true)

include hw hx hj

theorem regionSet_stages {c : Ctx} {o : Nat} (hr : s.ready h r 0x0C d) (hwide : d.rec_ 12 2 ≠ 0) (hhigh : d.rec_ 14 2 ≠ 0)
    (hflags : d.rec_ 6 1 ≤ 1) (hz7 : d.rec_ 7 1 = 0) (hrange : d.rec_ 0 2 ≤ 4095) (hctx : d.rec_ 2 2 ≤ 40959)
    (hlayer : (d.rec_ 4 2 = 0xFFFF ∧ o = (h : Nat)) ∨ (d.rec_ 4 2 ≤ 49151 ∧ s.regionLayer h d.txn (d.rec_ 4 2) = some o))
    (hleft : d.rec_ 8 2 < s.base.get Reg.cmpSize_WIDTH) (htop : d.rec_ 10 2 < s.base.get Reg.cmpSize_HEIGHT)
    (hbound : d.rec_ 6 1 = 0 ∨ s.boundZero h d.txn (objKey h (d.rec_ 2 2)) = false)
    (hc : (s.view h d.txn).ctx (objKey h (d.rec_ 2 2)) = some c)
    (hheld : s.held h d .region (objKey h (d.rec_ 0 2)) = false) (hheldc : s.held h d .ctx (objKey h (d.rec_ 2 2)) = false)
    (hroom : ((s.view h d.txn).region (objKey h (d.rec_ 0 2))).isSome = true ∨ s.hasRoom 2 h 1 = true) :
    ∃ t, exec (.regionSet h r) s = .next t ∧ t.completed h r d ∧
      (t.view h d.txn).region (objKey h (d.rec_ 0 2)) =
        some ⟨(((s.view h d.txn).region (objKey h (d.rec_ 0 2))).map (·.oid)).getD s.scenes.oids, objKey h (d.rec_ 2 2), d.rec_ 4 2, o, d.rec_ 6 1 == 1,
          d.rec_ 8 2, d.rec_ 10 2, d.rec_ 12 2, d.rec_ 14 2⟩ ∧
      t = { s with scenes := t.scenes, rings := t.rings, base := t.base } ∧ t.sealedScene = s.sealedScene := by
  have hcrit : (d.rec_ 6 1).testBit 0 = (d.rec_ 6 1 == 1) := testBit_zero_of_le_one hflags
  obtain ⟨hlow, hhost⟩ : (49151 < d.rec_ 4 2 → d.rec_ 4 2 = 0xFFFF) ∧ regionHost s h d = some o := by
    rcases hlayer with ⟨hp, rfl⟩ | ⟨hl, hs⟩
    · exact ⟨fun _ => hp, if_pos hp⟩
    · exact ⟨fun hn => absurd hl (by omega), (if_neg (by omega)).trans hs⟩
  have hok : firstStatus (regionSetChecks s h d) = none := by
    have hquota : (s.view h d.txn).region (objKey h (d.rec_ 0 2)) = none → s.hasRoom 2 h 1 = true :=
      fun h0 => hroom.resolve_left (by simp [h0])
    have hzero : d.rec_ 6 1 = 1 → s.boundZero h d.txn (objKey h (d.rec_ 2 2)) = false := fun h1 => hbound.resolve_left (by omega)
    simpa [firstStatus_cons_none, firstStatus_nil, regionSetChecks, hj, hheld, hheldc, hwide, hhigh, hflags, hz7, hrange, hctx, hleft, htop, hcrit,
      hc, hhost, and_assoc] using And.intro hlow (And.intro hzero hquota)
  have R := ran_ringRow hr hw (runRegionSet_passed hok hhost) (inTxn_regionStaged _)
  refine ⟨_, rfl, R.completed, ?_, (sceneOnly_regionStaged _).trans R.only, R.sealed⟩
  rw [R.view, ← hcrit]
  exact region_regionStaged hx _

theorem regionClear_takes {g : Region} (hr : s.ready h r 0x0D d) (hrange : d.rec_ 0 2 ≤ 4095)
    (hg : (s.view h d.txn).region (objKey h (d.rec_ 0 2)) = some g) (hheld : s.held h d .region (objKey h (d.rec_ 0 2)) = false) :
    ∃ t, exec (.regionClear h r) s = .next t ∧ t.completed h r d ∧ (t.view h d.txn).region (objKey h (d.rec_ 0 2)) = none ∧
      t = { s with scenes := t.scenes, rings := t.rings, base := t.base } ∧ t.sealedScene = s.sealedScene := by
  have hok : firstStatus (regionClearChecks s h d) = none := by
    simp [firstStatus_cons_none, firstStatus_nil, regionClearChecks, hj, hheld, hrange, hg]
  have R := ran_ringRow hr hw (runRegionClear_passed hok) ((inTxn_dropRegion h d.txn s _).trans (inTxn_accepted _ _ _))
  refine ⟨_, rfl, R.completed, ?_, (sceneOnly_dropRegion h d.txn s _).trans ((sceneOnly_accepted _ _ _).trans R.only), R.sealed⟩
  rw [R.view, regionCleared, view_accepted, view_dropRegion h d.txn s _ x g hx hg]

end

/-- Settles O14: each command by its checks, then by the change that it stages. -/
theorem regionCommandsStageTheirChange : Obligations.RegionCommandsStageTheirChange :=
  ⟨fun _ _ _ _ _ _ _ hr hw hx hj => regionSet_stages hw hx hj hr, fun _ _ _ _ _ _ hr hw hx hj => regionClear_takes hw hx hj hr,
    fun _ _ _ _ _ hr hw hst => ⟨_, rfl, quotaRefused_ringRow hr hw (runRegionSet_refused (by rwa [regionSetChecks, isNone_regionHost]))⟩,
    fun _ _ _ _ _ hr hw hst => ⟨_, rfl, refused_ringRow hr hw (runRegionClear_refused hst)⟩⟩

end Sys2Proof.Proofs

/-! The device ticks while a codec job runs (R147): reads with their error checks, tiles, counters, faults and log entries let no time pass. -/

namespace Sys2Proof.Proofs

open Sys2Proof Sys2Proof.Machine Sys2Proof.Laws

/-! ## Log entries and faults -/

@[simp] theorem logPush_ticks (b : Base) (i : Nat) (e : LogEntry) : (b.logPush i e).ticks = b.ticks := by
  simp only [Base.logPush]
  split <;> simp

/-- Entries in the fault logs touch neither unit states nor time. -/
theorem logPushAll_own_ticks (e : LogEntry) (hs : List Nat) (b : Base) :
    (b.logPushAll e hs).own = b.own ∧ (b.logPushAll e hs).ticks = b.ticks := by
  induction hs generalizing b with
  | nil => exact ⟨rfl, rfl⟩
  | cons h r ih =>
    obtain ⟨hown, hticks⟩ := ih (b.logPush (2 * h) e)
    exact ⟨hown.trans (logPush_own _ _ _), hticks.trans (logPush_ticks _ _ _)⟩

/-- A fault touches neither unit states nor time, whatever hosts there are (R57). -/
theorem fault_own_ticks (b : Base) (p c : Nat) (d : List Byte) : (b.fault p c d).own = b.own ∧ (b.fault p c d).ticks = b.ticks := by
  simp only [Base.fault, logPushAll_own_ticks, Base.raiseMask, setEvents_own, setEvents_ticks]
  split <;> exact ⟨rfl, rfl⟩

@[simp] theorem fault_ticks (b : Base) (p c : Nat) (d : List Byte) : (b.fault p c d).ticks = b.ticks := (fault_own_ticks b p c d).2

@[simp] theorem violation_ticks (b : Base) (h p c : Nat) (d : List Byte) : (b.violation h p c d).ticks = b.ticks := by
  simp only [Base.violation]
  split
  · exact logPush_ticks _ _ _
  · rfl

/-! ## Checked reads of scene memory (R289 to R293) -/

theorem ticks_foldl {β : Type} {f : State → β → State} (hf : ∀ s e, (f s e).base.ticks = s.base.ticks) (l : List β) (s : State) :
    (l.foldl f s).base.ticks = s.base.ticks := by
  induction l generalizing s with
  | nil => rfl
  | cons e l ih => exact (ih (f s e)).trans (hf s e)

theorem ticks_request (s : State) (rid tag units : Nat) : (s.request rid tag units).base.ticks = s.base.ticks := by
  unfold State.request
  split <;> rfl

theorem ticks_reportPoison (s : State) (w : Nat) : (s.reportPoison w).base.ticks = s.base.ticks := by
  simp only [State.reportPoison]
  split
  · simp
  · rfl

theorem ticks_poisonWords (s : State) (ws : List Nat) : (s.poisonWords ws).base.ticks = s.base.ticks := ticks_foldl ticks_reportPoison _ _

theorem ticks_noteWord (reader : Nat) (e : Ecc) (s : State) (w : Nat) : (s.noteWord reader e w).base.ticks = s.base.ticks := by
  unfold State.noteWord
  dsimp only
  split
  · split
    · rw [onBase_base, count_ticks, count_ticks]
    · rw [onBase_base, fault_ticks, onBase_base, count_ticks, count_ticks]
  · split
    · rw [onBase_base, count_ticks, count_ticks]
    · rfl

theorem ticks_startRetire (s : State) (page cause : Nat) (ue : List Nat) : (s.startRetire page cause ue).base.ticks = s.base.ticks := by
  unfold State.startRetire
  extract_lets f _ spare d s1 s2
  have h1 : s1.base.ticks = s.base.ticks := rfl
  clear_value s1
  have h2 : s2.base.ticks = s.base.ticks := by
    simp only [s2]
    split
    · rw [onBase_base, raise_ticks, h1]
    · exact h1
  split
  · rfl
  · exact (ticks_request s2 _ _ _).trans h2

theorem ticks_checkWord (reader : Nat) (e : Ecc) (s : State) (w : Nat) : (s.checkWord reader e w).base.ticks = s.base.ticks := by
  simp only [State.checkWord]
  split
  · rw [ticks_startRetire, ticks_noteWord]
  · exact ticks_noteWord _ _ _ _

theorem ticks_checkRead (s : State) (reader : Nat) (e : Ecc) (rs : List (Nat × Nat)) : (s.checkRead reader e rs).base.ticks = s.base.ticks :=
  ticks_foldl (ticks_checkWord reader e) _ _

theorem ticks_checkBlock (s : State) (reader : Nat) (e : Ecc) (lo n : Nat) : (s.checkBlock reader e lo n).base.ticks = s.base.ticks :=
  ticks_foldl (ticks_checkWord reader e) _ _

theorem ticks_checkCopies (s : State) (reader : Nat) (ecc : Ecc) (h t : Nat) (gs : List Nat) :
    (s.checkCopies reader ecc h t gs).base.ticks = s.base.ticks := by
  unfold State.checkCopies
  split
  · rfl
  · refine ticks_foldl (fun z p => ?_) _ _
    dsimp only
    split
    · rfl
    · rw [ticks_poisonWords, ticks_checkBlock]

/-! ## The stream and its tiles (R142 to R147) -/

theorem ticks_spend (s : State) (e n : Nat) : (s.spend e n).base.ticks = s.base.ticks := count_ticks _ _ _

theorem ticks_spendDamaged (s : State) (e : Nat) (keep stream : Bool) (fmt : Nat) :
    (s.spendDamaged e keep stream fmt).base.ticks = s.base.ticks := by
  unfold State.spendDamaged
  dsimp only
  split
  · exact ticks_spend _ _ _
  · rw [onBase_base, draw_ticks, ticks_spend]

theorem ticks_writeTile (s : State) (d : Decode) (tx ty : Nat) (bs : List Byte) : (s.writeTile d tx ty bs).base.ticks = s.base.ticks := by
  unfold State.writeTile
  split <;> rfl

theorem ticks_checkStream (s : State) (e : Nat) (ecc : Ecc) (d : Decode) (fmt : Nat) :
    (s.checkStream e ecc d fmt).base.ticks = s.base.ticks := by
  unfold State.checkStream
  extract_lets gs n short rs bad bs s1 code s2 s3
  have h2 : s2.base.ticks = s.base.ticks := ticks_checkRead s 1 ecc rs
  have h3 : s3.base.ticks = s.base.ticks := by
    simp only [s3]
    split
    · rw [onBase_base, fault_ticks, h2]
    · exact h2
  split
  · rfl
  · split
    · exact h3
    · rw [onBase_base, violation_ticks, raise_ticks, count_ticks, h3]

theorem ticks_damageTile (s : State) (e : Nat) (d : Decode) (fmt tx ty code hd : Nat) (stream : Bool) :
    (s.damageTile e d fmt tx ty code hd stream).base.ticks = s.base.ticks := by
  unfold State.damageTile
  extract_lets s0 s1 s2 s3 logged s4
  have h1 : s1.base.ticks = s.base.ticks := by
    simp only [s1]
    split
    · exact ticks_spendDamaged s e d.keep stream fmt
    · rw [ticks_writeTile, ticks_spendDamaged]
  have h2 : s2.base.ticks = s.base.ticks := by
    rw [onBase_base, raise_ticks, count_ticks, count_ticks, h1]
  have h3 : s3.base.ticks = s.base.ticks := by
    simp only [s3]
    split
    · exact h2
    · rw [onBase_base, count_ticks, h2]
  split
  · exact h3
  · exact (violation_ticks _ _ _ _ _).trans h3

theorem ticks_runTile (e : Nat) (ecc : Ecc) (d : Decode) (bad fmt ty : Nat) (s : State) (tx : Nat) :
    (State.runTile e ecc d bad fmt ty s tx).base.ticks = s.base.ticks := by
  unfold State.runTile
  split
  · exact ticks_damageTile _ _ _ _ _ _ _ _ _
  · extract_lets gs r s1
    have h1 : s1.base.ticks = s.base.ticks := ticks_checkRead s 1 ecc r.2.1
    split
    · rw [onBase_base, count_ticks, h1]
    · rw [onBase_base, count_ticks, count_ticks, ticks_spend, ticks_writeTile, h1]
    · rw [ticks_damageTile]
      split
      · rw [onBase_base, fault_ticks, h1]
      · exact h1

end Sys2Proof.Proofs

/-! O21: the codec's engines take jobs (R149, R153), finish them (R147), hand them back (R155, R157), give leave back (R153) and follow ENABLE (R156, R157). -/

namespace Sys2Proof.Proofs

open Sys2Proof Sys2Proof.Machine Sys2Proof.Laws

/-! ## Engines and their leave -/

/-- Two states that differ in the codec, the admission unit and the common core only. -/
def CodecOnly (s t : State) : Prop := t = { s with codec := t.codec, adm := t.adm, base := t.base }

theorem CodecOnly.trans {s t u : State} (h1 : CodecOnly s t) (h2 : CodecOnly t u) : CodecOnly s u := by
  unfold CodecOnly at *; rw [h2, h1]

theorem codecOnly_onBase (s : State) (f : Base → Base) : CodecOnly s (s.onBase f) := rfl
theorem codecOnly_release (s : State) (rid tag : Nat) : CodecOnly s (s.release rid tag) := rfl

theorem codecOnly_request (s : State) (rid tag units : Nat) : CodecOnly s (s.request rid tag units) := by
  unfold State.request
  split <;> rfl

@[simp] theorem engine_onBase (s : State) (f : Base → Base) (e : Nat) : (s.onBase f).engine e = s.engine e := rfl
@[simp] theorem engine_setEngine_same (s : State) (e : Nat) (x : Engine) : (s.setEngine e x).engine e = x := sget_sput_same _ _ _ _

theorem engine_setEngine_ne (s : State) {k e : Nat} (x : Engine) (h : k ≠ e) : (s.setEngine k x).engine e = s.engine e := sget_sput_ne _ _ _ h

@[simp] theorem engine_setJobCredit (s : State) (h : Nat) (c : Int) (e : Nat) : (s.setJobCredit h c).engine e = s.engine e := rfl

/-- Two changes of the common core, one after the other. -/
theorem onBase_onBase (s : State) (f g : Base → Base) : (s.onBase f).onBase g = s.onBase (fun b => g (f b)) := rfl

theorem engine_of_codec {s t : State} (h : t.codec = s.codec) (e : Nat) : t.engine e = s.engine e := by
  rw [State.engine, h, ← State.engine]

theorem codec_request (s : State) (rid tag units : Nat) : (s.request rid tag units).codec = s.codec := by
  unfold State.request
  split <;> rfl

/-- After a request its leave is held or asked for (R496). -/
theorem request_pends (s : State) (rid tag units : Nat) :
    ((s.request rid tag units).holds rid tag || (s.request rid tag units).asks rid tag) = true := by
  unfold State.request
  split
  · assumption
  · simp [State.asks]

/-- A further request takes back nothing that is held or asked for. -/
theorem request_keeps_pending {s : State} {rid tag : Nat} (h : (s.holds rid tag || s.asks rid tag) = true) (rid' tag' units : Nat) :
    ((s.request rid' tag' units).holds rid tag || (s.request rid' tag' units).asks rid tag) = true := by
  unfold State.request
  split
  · exact h
  · simp only [State.holds, State.asks, List.any_append, Bool.or_eq_true] at h ⊢
    exact h.imp_right .inl

theorem holds_release_same (s : State) (rid tag : Nat) : (s.release rid tag).holds rid tag = false := by
  simp only [State.holds, State.release, List.any_eq_false]
  exact fun l hl => by simpa [imp_iff_not_or] using (List.mem_filter.mp hl).2

theorem not_holds_release {s : State} {rid tag : Nat} (h : s.holds rid tag = false) (rid' tag' : Nat) :
    (s.release rid' tag').holds rid tag = false := by
  simp only [State.holds, State.release, List.any_eq_false] at h ⊢
  exact fun l hl => h l (List.mem_filter.mp hl).1

/-- The group's part in giving leave back is a release, or nothing. -/
theorem groupLeave_eq (s : State) : s.groupLeave = s ∨ s.groupLeave = s.release ridGroup 0 := by
  unfold State.groupLeave
  split
  · exact .inl rfl
  · exact .inr rfl

theorem base_groupLeave (s : State) : s.groupLeave.base = s.base := by
  rcases groupLeave_eq s with h | h <;> rw [h]
  rfl

theorem base_requeue (s : State) (e : Nat) : (s.requeue e).base = s.base := by
  unfold State.requeue
  split <;> rfl

/-! ## An engine without a job -/

/-- From s to t engine e has lost its job, the queue has become ws, and the engine's leave is gone. -/
structure GivesBack (e : Nat) (ws : List Job) (s t : State) : Prop where
  engine : t.engine e = ⟨none, none⟩
  waiting : t.codec.waiting = ws
  leave : t.holds e 0 = false
  only : CodecOnly s t

theorem GivesBack.onBase {e : Nat} {ws : List Job} {s t : State} (h : GivesBack e ws s t) (f : Base → Base) : GivesBack e ws s (t.onBase f) :=
  ⟨h.engine, h.waiting, h.leave, h.only.trans (codecOnly_onBase _ _)⟩

theorem GivesBack.groupLeave {e : Nat} {ws : List Job} {s t : State} (h : GivesBack e ws s t) : GivesBack e ws s t.groupLeave := by
  rcases groupLeave_eq t with hg | hg <;> rw [hg]
  · exact h
  · exact ⟨h.engine, h.waiting, not_holds_release h.leave _ _, h.only.trans (codecOnly_release _ _ _)⟩

/-- The job of an engine, if it has one, goes back to the front of the queue (R155). -/
theorem givesBack_requeue (s : State) (e : Nat) :
    GivesBack e ((s.engine e).job.toList ++ s.codec.waiting) s (s.requeue e).groupLeave := by
  refine GivesBack.groupLeave ?_
  unfold State.requeue
  cases (s.engine e).job <;> exact ⟨engine_setEngine_same _ _ _, rfl, holds_release_same _ _ _, rfl⟩

/-! ## JOB_DISPATCH (R149, R153) -/

/-- A round of the arbiter changes the credits only. -/
theorem jobRound_eq (s : State) : ∃ c, s.jobRound = { s with codec := { s.codec with credit := c } } := by
  have hcredit (l : List Nat) (g : Nat → Int) (x : State) :
      ∃ c, l.foldl (fun x h => x.setJobCredit h (g h)) x = { x with codec := { x.codec with credit := c } } := by
    induction l generalizing x with
    | nil => exact ⟨_, rfl⟩
    | cons h l ih =>
      obtain ⟨c, hc⟩ := ih (x.setJobCredit h (g h))
      exact ⟨c, hc⟩
  simp only [State.jobRound]
  split
  · exact ⟨_, rfl⟩
  · exact hcredit _ _ s

/-- Job j leaves the queue, and its DECODE has started. -/
def jobLeavesQueue (s : State) (j : Job) : State :=
  { s with codec := { s.codec with
    waiting := s.codec.waiting.erase j
    shun := s.codec.shun.filter (fun p => p.1 != j)
    decodes := s.codec.decodes.map (fun d => if d.id = j.dec then { d with started := true } else d) } }

/-- After the arbiter's round engine e has job j of host h, and the group has asked for leave. -/
def jobTaken (s : State) (e h : Nat) (j : Job) : State :=
  (((jobLeavesQueue s.jobRound j).setEngine e ⟨some j, none⟩).setJobCredit h (s.jobRound.jobCredit h - 1)).request ridGroup 0
    (s.base.get Reg.cdcLeave_GROUP_UNITS)

theorem dispatch_eq {s : State} {e h : Nat} {j : Job} (hfree : s.engineFree e = true)
    (hturn : (List.range 4).find? (fun h => (s.jobRound.nextJob h).isSome && decide (0 < s.jobRound.jobCredit h)) = some h)
    (hj : s.jobRound.nextJob h = some j) :
    s.dispatch e = ((jobTaken s e h j).request e 0 (s.base.get Reg.cdcLeave_ENGINE_UNITS)).refreshEngine e := by
  simp only [State.dispatch, hfree, hturn, hj, Bool.not_true, Bool.false_eq_true, if_false]
  rfl

theorem codec_jobTaken (s : State) (e h : Nat) (j : Job) :
    (jobTaken s e h j).engine e = ⟨some j, none⟩ ∧ (jobTaken s e h j).codec.waiting = s.codec.waiting.erase j := by
  obtain ⟨c, hround⟩ := jobRound_eq s
  constructor
  · rw [jobTaken, engine_of_codec (codec_request _ _ _ _) e, engine_setJobCredit, engine_setEngine_same]
  · rw [jobTaken, codec_request, hround]
    rfl

theorem codecOnly_jobTaken (s : State) (e h : Nat) (j : Job) : CodecOnly s (jobTaken s e h j) := by
  obtain ⟨c, hround⟩ := jobRound_eq s
  unfold jobTaken
  rw [hround]
  exact .trans (by rfl) (codecOnly_request _ _ _ _)

/-- JOB_DISPATCH of a free engine, when a host with credit has a startable job. -/
theorem jobDispatch_takes (s : State) (e : Fin 16) (h : Nat) (j : Job) (hfree : s.engineFree e = true)
    (hturn : (List.range 4).find? (fun h => (s.jobRound.nextJob h).isSome && decide (0 < s.jobRound.jobCredit h)) = some h)
    (hj : s.jobRound.nextJob h = some j) :
    ∃ t, exec (.jobDispatch e) s = .next t ∧ (t.engine e).job = some j ∧ t.codec.waiting = s.codec.waiting.erase j ∧
      (t.holds e 0 || t.asks e 0) = true ∧ (t.holds ridGroup 0 || t.asks ridGroup 0) = true ∧
      t = { s with codec := t.codec, adm := t.adm, base := t.base } := by
  obtain ⟨hengine, hwaiting⟩ := codec_jobTaken s e h j
  have hcodec := codec_request (jobTaken s e h j) e 0 (s.base.get Reg.cdcLeave_ENGINE_UNITS)
  refine ⟨_, congrArg Host.Outcome.next (dispatch_eq hfree hturn hj), ?_, (congrArg Codec.waiting hcodec).trans hwaiting, request_pends _ e 0 _,
    request_keeps_pending (request_pends _ ridGroup 0 _) e 0 _, ?_⟩
  · exact congrArg Engine.job ((engine_of_codec hcodec e).trans hengine)
  · exact ((codecOnly_jobTaken s e h j).trans (codecOnly_request _ _ _ _)).trans (codecOnly_onBase _ _)

/-! ## JOB_DONE (R147) -/

/-- Dropping DECODEs leaves an engine without a job as it is. -/
theorem engine_dropDecodes_idle {s : State} {e : Nat} (hidle : (s.engine e).job = none) (p : Decode → Bool) :
    (s.dropDecodes p).engine e = s.engine e := by
  have hstep (gone : List Nat) (k : Nat) (x : State) (hx : (x.engine e).job = none) : (dropStep gone x k).engine e = x.engine e := by
    unfold dropStep
    split
    · rename_i j hj
      have hk : k ≠ e := by rintro rfl; simp [hx] at hj
      split
      · exact engine_setEngine_ne x _ hk
      · rfl
    · rfl
  have hfold (gone l : List Nat) (x : State) (hx : (x.engine e).job = none) : (l.foldl (dropStep gone) x).engine e = x.engine e := by
    induction l generalizing x with
    | nil => rfl
    | cons k l ih => exact (ih _ (by rw [hstep gone k x hx, hx])).trans (hstep gone k x hx)
  rw [dropDecodes_eq]
  exact hfold _ _ _ hidle

theorem codec_of_sceneOnly {s t : State} (h : SceneOnly s t) : t.codec = s.codec := by rw [h]

/-- The completion of a command, with what follows it for its host, leaves the codec. -/
theorem codec_finished (s : State) (h id st info r : Nat) : (((s.finish h id st info none).settleRing h r).judge h).codec = s.codec :=
  codec_of_sceneOnly ((ringOnly_finish s h id st info none).sceneOnly.trans (sceneOnly_after _ h r h))

/-- The completion of a DECODE leaves an engine without a job as it is. -/
theorem engine_endDecode_idle {s : State} {e : Nat} (hidle : (s.engine e).job = none) (id : Nat) : (s.endDecode id).engine e = s.engine e := by
  unfold State.endDecode
  split
  · rfl
  · split
    · rfl
    · exact (engine_of_codec (codec_finished _ _ _ _ _ _) e).trans (engine_dropDecodes_idle hidle _)

/-- A job that can run writes its tiles, at the end of which no time has passed; then its engine is idle from now, and its DECODE may end. -/
theorem jobDone_ends {s : State} {e : Nat} {ecc : Ecc} {j : Job} {d : Decode} {l : Layer} (hj : (s.engine e).job = some j)
    (hd : s.decodeOf j.dec = some d) (hl : (s.view d.host d.txn).layer (objKey d.host d.layer) = some l) (hleave : s.engineWaits e = false)
    (hread : (s.readGrans d).any isSpillId = false) (hplane : (l.grans d.plane).any isSpillId = false) :
    ∃ v : State, v.base.ticks = s.base.ticks ∧
      s.jobDone e ecc = ((v.setEngine e ((v.engine e).free v.base.ticks)).refreshEngine e).endDecode d.id := by
  simp only [State.jobDone, hj, hd, hl, hleave, hread, hplane, Bool.or_self, Bool.false_eq_true, if_false]
  refine ⟨_, ?_, rfl⟩
  exact (ticks_foldl (ticks_runTile _ _ _ _ _ _) _ _).trans ((ticks_checkStream _ _ _ _ _).trans ((ticks_spend _ _ _).trans (ticks_checkCopies _ _ _ _ _ _)))

/-- JOB_DONE. -/
theorem jobDone_idles (s : State) (e : Fin 16) (ecc : Ecc) (j : Job) (d : Decode) (l : Layer) (hj : (s.engine e).job = some j)
    (hd : s.decodeOf j.dec = some d) (hl : (s.view d.host d.txn).layer (objKey d.host d.layer) = some l) (hleave : s.engineWaits e = false)
    (hread : (s.readGrans d).any isSpillId = false) (hplane : (l.grans d.plane).any isSpillId = false) :
    ∃ t, exec (.jobDone e ecc) s = .next t ∧ t.engine e = ⟨none, some s.base.ticks⟩ := by
  obtain ⟨v, hticks, hdone⟩ := jobDone_ends (ecc := ecc) hj hd hl hleave hread hplane
  have hidle : ((v.setEngine e ((v.engine e).free v.base.ticks)).refreshEngine e).engine e = ⟨none, some s.base.ticks⟩ :=
    (engine_setEngine_same v e _).trans (by rw [Engine.free, hticks])
  exact ⟨_, congrArg Host.Outcome.next hdone, (engine_endDecode_idle (congrArg Engine.job hidle) d.id).trans hidle⟩

/-! ## SELF_CHECK (R157) -/

/-- An engine with a job, or in service, gives back what it has and becomes FAULT. -/
theorem engineFault_eq {s : State} {e : Nat} (h : ((s.engine e).job.isSome || s.base.ownState (pgENG e) == uREADY) = true) :
    ∃ d, s.engineFault e = ((s.requeue e).groupLeave).onBase (fun b => (b.fault (pgENG e) 1 d).setOwn (pgENG e) uFAULT) := by
  simp only [State.engineFault, h, if_true]
  exact ⟨_, rfl⟩

theorem ownState_faulted (b : Base) (p c : Nat) (d : List Byte) (hclk : b.ownState p ≠ uNOCLOCK) :
    ((b.fault p c d).setOwn p uFAULT).ownState p = uFAULT := by
  refine setOwn_own _ _ _ ?_
  rwa [Base.ownState, (fault_own_ticks b p c d).1, ← Base.ownState]

theorem selfCheck_faults {s : State} {e : Fin 16} (h : ((s.engine e).job.isSome || s.base.ownState (pgENG e) == uREADY) = true)
    (hclk : s.base.ownState (pgENG e) ≠ uNOCLOCK) :
    ∃ t, exec (.selfCheck e) s = .next t ∧ (t.engine e).job = none ∧ t.codec.waiting = (s.engine e).job.toList ++ s.codec.waiting ∧
      t.base.ownState (pgENG e) = uFAULT ∧ t.holds e 0 = false ∧ t = { s with codec := t.codec, adm := t.adm, base := t.base } := by
  obtain ⟨d, hfault⟩ := engineFault_eq h
  have hback := (givesBack_requeue s e).onBase fun b => (b.fault (pgENG e) 1 d).setOwn (pgENG e) uFAULT
  refine ⟨_, congrArg Host.Outcome.next hfault, congrArg Engine.job hback.engine, hback.waiting, ?_, hback.leave, hback.only⟩
  rw [onBase_base]
  exact ownState_faulted _ _ _ _ (by rwa [base_groupLeave, base_requeue])

/-- SELF_CHECK of an engine with a job. -/
theorem selfCheck_job (s : State) (e : Fin 16) (j : Job) (hj : (s.engine e).job = some j) (hclk : s.base.ownState (pgENG e) ≠ uNOCLOCK) :
    ∃ t, exec (.selfCheck e) s = .next t ∧ (t.engine e).job = none ∧ t.codec.waiting = j :: s.codec.waiting ∧
      t.base.ownState (pgENG e) = uFAULT ∧ t.holds e 0 = false ∧ t = { s with codec := t.codec, adm := t.adm, base := t.base } := by
  have hfaults := selfCheck_faults (by simp [hj]) hclk
  rw [hj] at hfaults
  exact hfaults

/-- SELF_CHECK of an engine without a job: one in service becomes FAULT all the same, another is not touched. -/
theorem selfCheck_none (s : State) (e : Fin 16) (hj : (s.engine e).job = none) :
    (s.base.ownState (pgENG e) = uREADY → ∃ t, exec (.selfCheck e) s = .next t ∧ (t.engine e).job = none ∧ t.codec.waiting = s.codec.waiting ∧
      t.base.ownState (pgENG e) = uFAULT ∧ t.holds e 0 = false ∧ t = { s with codec := t.codec, adm := t.adm, base := t.base }) ∧
    (s.base.ownState (pgENG e) ≠ uREADY → exec (.selfCheck e) s = .next s) := by
  refine ⟨fun hready => ?_, fun hout => congrArg Host.Outcome.next (?_ : s.engineFault e = s)⟩
  · have hfaults := selfCheck_faults (s := s) (e := e) (by simp [hready]) (by rw [hready]; decide)
    rw [hj] at hfaults
    exact hfaults
  · simp [State.engineFault, hj, hout]

/-! ## UNIT_CTRL of an engine (R155, R157) -/

/-- A unit reset of an engine's page is the engine's own. -/
theorem unitReset_engine (ok : Bool) (r : List Sample) (e : Fin 16) (s : State) : State.unitReset ok r (pgENG e) s = s.engineReset e := by
  fin_cases e <;> rfl

theorem pageEnabled_engine (e : Fin 16) (on : Bool) (s : State) : State.pageEnabled (pgENG e) on s = s.engineEnabled e on := by
  fin_cases e <;> rfl

theorem exec_engineUnitReset {s : State} {e : Fin 16} {a : RegWr} (ha : s.asksReset (pgENG e) a = true) :
    exec (.engineUnitReset e a) s = .next (((s.stored (hdr (pgENG e) 0x20) a).engineReset e).onBase Base.draw) := by
  show Host.Outcome.next (s.ctrlWriteFree (pgENG e) a) = _
  rw [State.ctrlWriteFree, ctrlWrite_reset s _ a s.freeBit [] ha, unitReset_engine]

theorem setUnit_eq (s : State) (p st : Nat) : ∃ b, s.setUnit p st = { s with base := b } := by
  unfold State.setUnit
  split <;> exact ⟨_, rfl⟩

/-- The reset of an engine with a job gives it back; all else happens in the common core. -/
theorem engineReset_job {s : State} {e : Nat} {j : Job} (hj : (s.engine e).job = some j) :
    ∃ b, s.engineReset e = { (s.requeue e).groupLeave with base := b } := by
  simp only [State.engineReset, hj, Option.isSome_some, if_true]
  split
  · obtain ⟨b, hb⟩ := setUnit_eq (s.requeue e).groupLeave (pgENG e) uREADY
    rw [hb]
    exact ⟨_, rfl⟩
  · exact ⟨_, rfl⟩

/-- ENGINE_UNIT_RESET of an engine with a job. -/
theorem engineUnitReset_job (s : State) (e : Fin 16) (a : RegWr) (j : Job) (ha : s.asksReset (pgENG e) a = true)
    (hj : (s.engine e).job = some j) :
    ∃ t, exec (.engineUnitReset e a) s = .next t ∧ (t.engine e).job = none ∧ t.codec.waiting = j :: s.codec.waiting ∧
      t = { s with codec := t.codec, adm := t.adm, base := t.base } := by
  obtain ⟨b, hreset⟩ := engineReset_job (s := s.stored (hdr (pgENG e) 0x20) a) hj
  have hback := givesBack_requeue (s.stored (hdr (pgENG e) 0x20) a) e
  refine ⟨_, exec_engineUnitReset ha, ?_, ?_, ?_⟩ <;> rw [hreset]
  · exact congrArg Engine.job hback.engine
  · exact hback.waiting.trans (congrArg (·.toList ++ s.codec.waiting) hj)
  · exact ((codecOnly_onBase s _).trans hback.only).trans rfl

/-- The common core after an engine without a job has its state set by its ENABLE. -/
def engineSettled (b : Base) (e : Nat) : Base := b.setOwn (pgENG e) (if b.enabled (pgENG e) then uREADY else uOFF)

theorem refreshEngine_ready {s : State} {e : Nat} (hj : (s.engine e).job = none) (hready : s.base.ownState (pgENG e) = uREADY) :
    s.refreshEngine e = s.onBase (engineSettled · e) := by
  simp only [State.refreshEngine, State.onBase, hready, hj, true_or, if_true, Option.isSome_none, Bool.false_eq_true, if_false]
  rfl

theorem engineReset_fault {s : State} {e : Nat} (hj : (s.engine e).job = none) (hfault : s.base.ownState (pgENG e) = uFAULT) :
    s.engineReset e = s.onBase (fun b => engineSettled (b.setOwn (pgENG e) uREADY) e) := by
  have hclk : s.base.ownState (pgENG e) ≠ uNOCLOCK := by rw [hfault]; decide
  have hunit : s.setUnit (pgENG e) uREADY = s.onBase (·.setOwn (pgENG e) uREADY) := if_neg (by rw [hfault]; decide)
  have hready : (s.onBase (·.setOwn (pgENG e) uREADY)).base.ownState (pgENG e) = uREADY := setOwn_own s.base _ _ hclk
  simp only [State.engineReset, hj, Option.isSome_none, Bool.false_eq_true, if_false, hfault, if_true, hunit]
  rw [refreshEngine_ready ((congrArg Engine.job (engine_onBase s _ e)).trans hj) hready, onBase_onBase]

theorem enabled_setOwn (b : Base) (p st q : Nat) : (b.setOwn p st).enabled q = b.enabled q := by
  rw [Base.enabled, Base.flag, Base.get, word_setOwn _ _ _ (by rw [hdr_mod (by decide)]; decide)]
  rfl

theorem ownState_engineSettled {b : Base} {e : Nat} (hclk : b.ownState (pgENG e) ≠ uNOCLOCK) :
    (engineSettled b e).ownState (pgENG e) = if b.enabled (pgENG e) then uREADY else uOFF := setOwn_own _ _ _ hclk

/-- ENGINE_UNIT_RESET of an engine at fault, without a job. -/
theorem engineUnitReset_fault (s : State) (e : Fin 16) (a : RegWr) (ha : s.asksReset (pgENG e) a = true) (hj : (s.engine e).job = none)
    (hfault : s.base.ownState (pgENG e) = uFAULT) :
    ∃ t, exec (.engineUnitReset e a) s = .next t ∧ t.base.ownState (pgENG e) = (if s.base.enabled (pgENG e) then uREADY else uOFF) ∧
      t.codec = s.codec ∧ t = { s with base := t.base } := by
  have hclk : s.base.ownState (pgENG e) ≠ uNOCLOCK := by rw [hfault]; decide
  have hready := setOwn_own (s.stored (hdr (pgENG e) 0x20) a).base (pgENG e) uREADY hclk
  refine ⟨_, exec_engineUnitReset ha, ?_, ?_, ?_⟩ <;> rw [engineReset_fault (s := s.stored (hdr (pgENG e) 0x20) a) hj hfault]
  · refine (ownState_engineSettled (by rw [hready]; decide)).trans ?_
    rw [enabled_setOwn, enabled_reset s _ a ha]
  · rfl
  · rfl

/-! ## ENABLE of the engines and of the group (R156, R157) -/

/-- The common core after a write that changes ENABLE of a page: the word stored, with the STATE events of its ancestors. -/
def enableBase (s : State) (p : Nat) (a : RegWr) : Base := Base.stateEvents s.base (s.stored (hdr p 0x20) a).base (ancestors 5 p)

theorem ctrlWriteFree_enable {s : State} {p : Nat} {a : RegWr} {on : Bool} (ha : s.asksEnable p a on = true) :
    s.ctrlWriteFree p a = (State.pageEnabled p on { s with base := enableBase s p a }).onBase Base.draw := by
  rw [State.ctrlWriteFree, ctrlWrite_enable s p a on s.freeBit [] ha]
  rfl

theorem enabled_enableBase {s : State} {p : Nat} {a : RegWr} {on : Bool} (ha : s.asksEnable p a on = true) :
    (enableBase s p a).enabled p = on := by
  rw [enableBase, enabled_stateEvents, enabled_enable s p a on ha]

theorem ownState_enableBase (s : State) (p : Nat) (a : RegWr) (q : Nat) : (enableBase s p a).ownState q = s.base.ownState q := by
  rw [Base.ownState, enableBase, (stateEvents_same _ _ _).1]
  rfl

/-- Fields beyond UNIT_EVENT and UNIT_CTRL of the page stand. -/
theorem get_enableBase (s : State) (p : Nat) (a : RegWr) (f : FieldRef) (hevent : f.key % 4096 ≠ 0x18) (hctrl : f.key % 4096 ≠ 0x20) :
    (enableBase s p a).get f = s.base.get f := by
  obtain ⟨_, _, _, _, hword⟩ := stateEvents_same s.base (ancestors 5 p) (s.stored (hdr p 0x20) a).base
  rw [enableBase, Base.get, hword _ hevent, ← Base.get]
  refine get_stored_ne s a (storeKey_unitCtrl _ p) fun hk => hctrl ?_
  rw [← hk, hdr_mod (by decide)]

theorem exec_engineEnable {s : State} {e : Fin 16} {a : RegWr} {on : Bool} (ha : s.asksEnable (pgENG e) a on = true) :
    exec (.engineEnable e a) s = .next ((State.engineEnabled e on { s with base := enableBase s (pgENG e) a }).onBase Base.draw) := by
  show Host.Outcome.next (s.ctrlWriteFree (pgENG e) a) = _
  rw [ctrlWriteFree_enable ha, pageEnabled_engine]

/-- ENGINE_ENABLE with ENABLE 0, on an idle engine in service. -/
theorem engineEnable_off (s : State) (e : Fin 16) (a : RegWr) (ha : s.asksEnable (pgENG e) a false = true) (hj : (s.engine e).job = none)
    (hready : s.base.ownState (pgENG e) = uREADY) :
    ∃ t, exec (.engineEnable e a) s = .next t ∧ t.base.ownState (pgENG e) = uOFF ∧ t.base.enabled (pgENG e) = false ∧
      t = { s with base := t.base } := by
  have hown := (ownState_enableBase s (pgENG e) a (pgENG e)).trans hready
  have hen := enabled_enableBase ha
  have hoff : State.engineEnabled e false { s with base := enableBase s (pgENG e) a }
      = { s with base := engineSettled (enableBase s (pgENG e) a) e } :=
    refreshEngine_ready (s := { s with base := enableBase s (pgENG e) a }) hj hown
  refine ⟨_, exec_engineEnable ha, ?_, ?_, ?_⟩ <;> rw [hoff]
  · refine (ownState_engineSettled (by rw [hown]; decide)).trans ?_
    rw [hen]
    rfl
  · exact (enabled_setOwn _ _ _ _).trans hen
  · rfl

/-- ENGINE_ENABLE with ENABLE 1, on an engine that is OFF, once the codec is released. -/
theorem engineEnable_on (s : State) (e : Fin 16) (a : RegWr) (ha : s.asksEnable (pgENG e) a true = true)
    (hoff : s.base.ownState (pgENG e) = uOFF) (hstep : 5 ≤ s.base.get Reg.rstStep_STEP) :
    ∃ t, exec (.engineEnable e a) s = .next t ∧ t.base.ownState (pgENG e) = uREADY ∧ t.base.enabled (pgENG e) = true ∧
      t = { s with base := t.base } := by
  have hown := (ownState_enableBase s (pgENG e) a (pgENG e)).trans hoff
  have hstep' : 5 ≤ (enableBase s (pgENG e) a).get Reg.rstStep_STEP := by rwa [get_enableBase s _ a _ (by decide) (by decide)]
  have hon : State.engineEnabled e true { s with base := enableBase s (pgENG e) a }
      = { s with base := (enableBase s (pgENG e) a).setOwn (pgENG e) uREADY } := if_pos (by simp [hown, hstep'])
  refine ⟨_, exec_engineEnable ha, ?_, ?_, ?_⟩ <;> rw [hon]
  · exact setOwn_own _ _ _ (by rw [hown]; decide)
  · exact (enabled_setOwn _ _ _ _).trans (enabled_enableBase ha)
  · rfl

/-- CODEC_ENABLE: the group looks at ENABLE when it dispatches. -/
theorem codecEnable_taken (s : State) (a : RegWr) (on : Bool) (ha : s.asksEnable pgCDC a on = true) :
    ∃ t, exec (.codecEnable a) s = .next t ∧ t.base.enabled pgCDC = on ∧ t = { s with base := t.base } :=
  ⟨{ s with base := (enableBase s pgCDC a).draw }, congrArg _ (ctrlWriteFree_enable ha), enabled_enableBase ha, rfl⟩

/-! ## ENGINE_LEAVE_RELEASE (R153) -/

/-- ENGINE_LEAVE_RELEASE of an engine that has been idle for 10 µs. -/
theorem engineLeaveRelease_idle (s : State) (e : Fin 16) (since : Nat) (hidle : (s.engine e).idle = some since)
    (hdue : since + 6250 ≤ s.base.ticks) :
    ∃ t, exec (.engineLeaveRelease e) s = .next t ∧ (t.engine e).idle = none ∧ t.holds e 0 = false ∧
      t = { s with codec := t.codec, adm := t.adm } := by
  have hrow : s.engineIdle e = ((s.setEngine e { s.engine e with idle := none }).release e 0).groupLeave := by
    simp only [State.engineIdle, hidle, if_neg (Nat.not_lt.mpr hdue)]
  refine ⟨_, congrArg Host.Outcome.next hrow, ?_⟩
  have hengine := congrArg Engine.idle (engine_setEngine_same s e { s.engine e with idle := none })
  have hleave := holds_release_same (s.setEngine e { s.engine e with idle := none }) e 0
  rcases groupLeave_eq ((s.setEngine e { s.engine e with idle := none }).release e 0) with hg | hg <;> rw [hg]
  · exact ⟨hengine, hleave, rfl⟩
  · exact ⟨hengine, not_holds_release hleave _ _, rfl⟩

/-- Settles O21: dispatch (R149, R153), the end of a job (R147), the self-check (R157), unit resets (R155), the leave of an idle engine (R153) and ENABLE (R156, R157). -/
theorem codecJobsAreDispatchedAndEnd : Obligations.CodecJobsAreDispatchedAndEnd :=
  ⟨jobDispatch_takes, jobDone_idles, selfCheck_job, selfCheck_none, engineUnitReset_fault, engineLeaveRelease_idle, engineUnitReset_job,
    engineEnable_off, engineEnable_on, codecEnable_taken⟩

end Sys2Proof.Proofs

/-! O25: spans of the Spire end, fail and are handed out again (R174, R177, R178); AUTOCAP (R181), unit resets (R184) and ENABLE of a cluster (R185). -/

namespace Sys2Proof.Proofs

open Sys2Proof Sys2Proof.Machine Sys2Proof.Laws

/-! ## Counters and registers of the Spire -/

/-- A counter that is a whole register. -/
theorem get_count_same (b : Base) (f : FieldRef) (n : Nat) (hm : f.msb = 31 := by rfl) (hl : f.lsb = 0 := by rfl) :
    (b.count f n).get f = min (2 ^ 32 - 1) (b.get f + n) := by
  rw [Base.count, get_put_same _ _ _ ⟨by omega, by omega⟩, hm, hl]
  exact Nat.mod_eq_of_lt (by omega)

/-- The LOST counters of the logs lie on the host pages. -/
theorem unitReg_of_page {k : Nat} (hoff : 0x40 ≤ k % 4096) (hpage : 0x20 ≤ k / 4096) : unitReg k = true := by
  have hlost : ∀ i ∈ List.range 8, (logLost i).key / 4096 < 0x20 := by decide
  simp only [unitReg, Bool.and_eq_true, decide_eq_true_eq, Bool.not_eq_true', List.any_eq_false, beq_iff_eq]
  refine ⟨hoff, fun i hi hk => ?_⟩
  have := hlost i hi
  omega

theorem unitReg_spcSpans (c : Nat) : unitReg (Reg.spcSpans c) = true :=
  unitReg_of_page (by unfold Reg.spcSpans; omega) (by unfold Reg.spcSpans; omega)
theorem unitReg_spcReissue (c : Nat) : unitReg (Reg.spcReissue c) = true :=
  unitReg_of_page (by unfold Reg.spcReissue; omega) (by unfold Reg.spcReissue; omega)
theorem unitReg_speErrors (k : Nat) : unitReg (Reg.speErrors k) = true :=
  unitReg_of_page (by unfold Reg.speErrors; omega) (by unfold Reg.speErrors; omega)

/-- A register that is not named reads as before. -/
theorem Keeps.get {ks : List Nat} {b c : Base} (h : Keeps ks b c) {f : FieldRef} (hu : unitReg f.key = true) (hf : f.key ∉ ks) :
    c.get f = b.get f := by
  rw [Base.get, h.word _ hu hf, ← Base.get]

theorem Keeps.trans {ks js : List Nat} {b c d : Base} (h1 : Keeps ks b c) (h2 : Keeps js c d) (hsub : js ⊆ ks) : Keeps ks b d :=
  ⟨h2.few, fun k hu hk => (h2.word k hu fun hj => hk (hsub hj)).trans (h1.word k hu hk)⟩

theorem Keeps.setUnit {ks : List Nat} {b : Base} {s : State} (h : Keeps ks b s.base) (p st : Nat) : Keeps ks b (s.setUnit p st).base :=
  .iteState _ h (h.setOwn p st)

/-! ## What a step of the Spire leaves alone -/

/-- Two states that differ in the Spire and their common core only. -/
def SpireOnly (s t : State) : Prop := t = { s with spr := t.spr, base := t.base }

theorem SpireOnly.trans {s t u : State} (h1 : SpireOnly s t) (h2 : SpireOnly t u) : SpireOnly s u := by
  unfold SpireOnly at *; rw [h2, h1]

theorem spireOnly_onBase (s : State) (f : Base → Base) : SpireOnly s (s.onBase f) := rfl
theorem spireOnly_spr (s : State) (x : Spire) : SpireOnly s { s with spr := x } := rfl

theorem spr_setUnit (s : State) (p st : Nat) : (s.setUnit p st).spr = s.spr := by
  unfold State.setUnit
  split <;> rfl

theorem spireOnly_setUnit (s : State) (p st : Nat) : SpireOnly s (s.setUnit p st) := by
  unfold State.setUnit
  split <;> rfl

/-! ## Handing out spans (R174) -/

/-- Two states that differ only in which spans are in work and which come next. -/
def SpansMoved (s t : State) : Prop := t = { s with spr := { s.spr with nextSpan := t.spr.nextSpan, again := t.spr.again, work := t.spr.work } }

theorem SpansMoved.trans {s t u : State} (h1 : SpansMoved s t) (h2 : SpansMoved t u) : SpansMoved s u := by
  unfold SpansMoved at *; rw [h2, h1]

theorem spansMoved_giveSpan (q : Nat) (s : State) (c : Nat) : SpansMoved s (State.giveSpan q s c) := by
  simp only [State.giveSpan]
  split
  · rfl
  · split
    · rfl
    · split <;> rfl

theorem spansMoved_handOut (s : State) (q : Nat) : SpansMoved s (s.handOut q) := by
  unfold State.handOut
  generalize (List.range 17).map (· + 17 * q) = cs
  induction cs generalizing s with
  | nil => rfl
  | cons c cs ih => exact (spansMoved_giveSpan q s c).trans (ih _)

section
variable {s t : State} (h : SpansMoved s t)
include h

theorem SpansMoved.base : t.base = s.base := by rw [h]
theorem SpansMoved.faults : t.spr.faults = s.spr.faults := by rw [h]
theorem SpansMoved.off : t.spr.off = s.spr.off := by rw [h]
theorem SpansMoved.resets : t.spr.resets = s.spr.resets := by rw [h]
theorem SpansMoved.only : SpireOnly s t := by
  unfold SpansMoved at h
  rw [h]
  rfl

end

/-! ## A span is taken back (R177, R178) -/

/-- The common core once a span of cluster c is counted as taken back. -/
def reissueCounted (b : Base) (c : Nat) : Base := (b.count (Reg.spqReissue_COUNT (c / 17)) 1).count (Reg.spcReissue_COUNT c) 1

/-- The Spire once the span p of cluster c has been taken back and waits to be handed out again. -/
def spanAgain (x : Spire) (c : Nat) (p : Span) : Spire :=
  { x with again := x.again ++ [{ p with from_ := some c }], work := sput (fun _ => none) x.work c none }

theorem reissue_none {s : State} {c : Nat} (hp : s.spanOf c = none) : s.reissue c = s := by
  simp only [State.reissue, hp]

theorem reissue_span {s : State} {c : Nat} {p : Span} (hp : s.spanOf c = some p) :
    s.reissue c = ({ s with spr := spanAgain s.spr c p } : State).onBase (reissueCounted · c) := by
  simp only [State.reissue, hp]
  rfl

theorem get_reissueCounted (b : Base) {c : Nat} (hc : c < 68) :
    (reissueCounted b c).get (Reg.spcReissue_COUNT c) = min (2 ^ 32 - 1) (b.get (Reg.spcReissue_COUNT c) + 1) := by
  have hother : Reg.spqReissue (c / 17) ≠ Reg.spcReissue c := by unfold Reg.spqReissue Reg.spcReissue; omega
  rw [reissueCounted, get_count_same _ (Reg.spcReissue_COUNT c), Base.count, get_put_key _ _ _ _ hother]

/-- The registers that a change of a cluster's role writes. -/
def roleRegs (c : Nat) : List Nat := [Reg.spcRole c, Reg.spqMap (c / 17)]

/-- The registers that taking back a span writes: the counters, and the role of a cluster that is taken out of service. -/
def reissueRegs (c : Nat) : List Nat := [Reg.spqReissue (c / 17), Reg.spcReissue c] ++ roleRegs c

theorem spcReissue_not_role {c : Nat} (hc : c < 68) : Reg.spcReissue c ∉ roleRegs c := by
  have hq : c / 17 < 4 := Nat.div_lt_of_lt_mul hc
  simp only [roleRegs, Reg.spcReissue, Reg.spcRole, Reg.spqMap, List.mem_cons, List.not_mem_nil, or_false]
  omega

theorem speErrors_not_reissue {c k : Nat} (hc : c < 68) : Reg.speErrors k ∉ reissueRegs c := by
  have hq : c / 17 < 4 := Nat.div_lt_of_lt_mul hc
  simp only [reissueRegs, roleRegs, Reg.speErrors, Reg.spqReissue, Reg.spcReissue, Reg.spcRole, Reg.spqMap, List.cons_append, List.nil_append,
    List.mem_cons, List.not_mem_nil, or_false]
  omega

theorem keeps_setRole {ks : List Nat} {b : Base} {s : State} {c : Nat} (hsub : roleRegs c ⊆ ks) (h : Keeps ks b s.base) (role : Nat) (on : Bool) :
    Keeps ks b (s.setRole c role on).base :=
  (h.put (Reg.spcRole_ROLE c) role (hsub List.mem_cons_self)).put ⟨Reg.spqMap (c / 17), c % 17, c % 17⟩ _
    (hsub (List.mem_cons_of_mem _ List.mem_cons_self))

/-- From s to t the span of cluster c has been taken back: counted once, with one more fault of the cluster in this frame. -/
structure TakenBack (c : Nat) (s t : State) : Prop where
  reissued : s.counted t (Reg.spcReissue_COUNT c) 1
  faulted : sget (fun _ => 0) t.spr.faults c = sget (fun _ => 0) s.spr.faults c + 1
  regs : Keeps (reissueRegs c) s.base t.base
  only : SpireOnly s t

section
variable {c : Nat} {s t : State}

/-- Later changes of the common core that write no register but those of the role. -/
theorem TakenBack.base (h : TakenBack c s t) (hc : c < 68) {u : State} (hspr : u.spr = t.spr) (honly : SpireOnly t u)
    (hu : Keeps (roleRegs c) t.base u.base) : TakenBack c s u where
  reissued := (hu.get (unitReg_spcReissue c) (spcReissue_not_role hc)).trans h.reissued
  faulted := by rw [hspr, h.faulted]
  regs := h.regs.trans hu (List.subset_append_right _ _)
  only := h.only.trans honly

theorem TakenBack.handOut (h : TakenBack c s t) (q : Nat) : TakenBack c s (t.handOut q) := by
  have hmoved := spansMoved_handOut t q
  refine ⟨?_, ?_, ?_, h.only.trans hmoved.only⟩
  · rw [State.counted, hmoved.base, h.reissued]
  · rw [hmoved.faults, h.faulted]
  · rw [hmoved.base]
    exact h.regs

/-- A cluster that has no span any more becomes FAULT. -/
theorem TakenBack.clusterFault (h : TakenBack c s t) (hc : c < 68) (hidle : t.spanOf c = none) : TakenBack c s (t.clusterFault c) := by
  unfold State.clusterFault
  rw [reissue_none hidle]
  exact h.base hc (spr_setUnit _ _ _) ((spireOnly_onBase _ _).trans (spireOnly_setUnit _ _ _))
    ((keeps_setRole (List.Subset.refl _) (.refl h.regs.few) _ _).setUnit _ _)

end

/-- One more fault of cluster c in this frame. -/
def faultedAgain (x : Spire) (c : Nat) : Spire := { x with faults := sput (fun _ => 0) x.faults c (sget (fun _ => 0) x.faults c + 1) }

/-- The state in which the span of cluster c has been taken back for an error with a code and detail, logged for the cluster. -/
def spanLost (s : State) (c code : Nat) (d : List Byte) : State :=
  (({ s with spr := faultedAgain s.spr c } : State).reissue c).onBase (·.fault (pgSPC c) code d)

theorem keeps_reissueCounted {ks : List Nat} {b b' : Base} {c : Nat} (hsub : reissueRegs c ⊆ ks) (h : Keeps ks b b') :
    Keeps ks b (reissueCounted b' c) :=
  (h.count (Reg.spqReissue_COUNT (c / 17)) 1 (hsub List.mem_cons_self)).count (Reg.spcReissue_COUNT c) 1
    (hsub (List.mem_cons_of_mem _ List.mem_cons_self))

section
variable {s : State} {c : Nat} {p : Span} (hp : s.spanOf c = some p)
include hp

theorem spanLost_eq (code : Nat) (d : List Byte) :
    spanLost s c code d =
      (({ s with spr := spanAgain (faultedAgain s.spr c) c p } : State).onBase (reissueCounted · c)).onBase (·.fault (pgSPC c) code d) := by
  rw [spanLost, reissue_span (s := { s with spr := faultedAgain s.spr c }) hp]

theorem spanOf_spanLost (code : Nat) (d : List Byte) : (spanLost s c code d).spanOf c = none := by
  simp only [spanLost_eq hp, State.spanOf, onBase_spr, spanAgain, sget_sput_same]

theorem takenBack_spanLost (code : Nat) (d : List Byte) (hc : c < 68) (hn : s.base.nhosts ≤ 4) : TakenBack c s (spanLost s c code d) := by
  have hcounted : Keeps (reissueRegs c) s.base (reissueCounted s.base c) := keeps_reissueCounted (List.Subset.refl _) (.refl hn)
  have hlogged := (Keeps.refl (ks := []) hcounted.few).fault (pgSPC c) code d
  rw [spanLost_eq hp]
  refine ⟨?_, ?_, hcounted.fault _ _ _, ((spireOnly_spr s _).trans (spireOnly_onBase _ _)).trans (spireOnly_onBase _ _)⟩
  · rw [State.counted, onBase_base, onBase_base, hlogged.get (unitReg_spcReissue c) List.not_mem_nil, get_reissueCounted s.base hc]
    rfl
  · simp only [onBase_spr, spanAgain, faultedAgain, sget_sput_same]

/-- A detected error takes the span back; a cluster at its second error of the frame, or at a permanent one, becomes FAULT; then spans are handed out. -/
theorem abandon_span (code cell : Nat) (permanent : Bool) :
    ∃ (d : List Byte) (out : Bool), s.abandon c code cell permanent =
      (if out then (spanLost s c code d).clusterFault c else spanLost s c code d).handOut (c / 17) := by
  simp only [State.abandon, hp]
  exact ⟨_, _, rfl⟩

theorem takenBack_abandon (code cell : Nat) (permanent : Bool) (hc : c < 68) (hn : s.base.nhosts ≤ 4) :
    TakenBack c s (s.abandon c code cell permanent) := by
  obtain ⟨d, out, habandon⟩ := abandon_span hp code cell permanent
  have hlost := takenBack_spanLost hp code d hc hn
  rw [habandon]
  refine TakenBack.handOut ?_ _
  split
  · exact hlost.clusterFault hc (spanOf_spanLost hp code d)
  · exact hlost

end

/-- STALL 64 µs after hand-out. -/
theorem spanStall_due (s : State) (c : Fin 68) (p : Span) (hp : s.spanOf c = some p) (hdue : p.at_ + 40000 ≤ s.base.ticks)
    (hn : s.base.nhosts ≤ 4) :
    ∃ t, exec (.spanStall c) s = .next t ∧ s.counted t (Reg.spcReissue_COUNT c) 1 ∧
      sget (fun _ => 0) t.spr.faults c = sget (fun _ => 0) s.spr.faults c + 1 ∧ t = { s with spr := t.spr, base := t.base } := by
  have hrow : s.stallRow c = s.abandon c 2 0xFF false := by simp only [State.stallRow, hp, if_neg (Nat.not_lt.mpr hdue)]
  obtain ⟨hreissued, hfaulted, _, honly⟩ := takenBack_abandon hp 2 0xFF false c.isLt hn
  exact ⟨s.abandon c 2 0xFF false, congrArg _ hrow, hreissued, hfaulted, honly⟩

/-- The state in which an error of a cell is counted and logged. -/
def cellFault (s : State) (c k : Nat) (d : List Byte) : State :=
  s.onBase fun b => (b.count (Reg.speErrors_COUNT (4 * c + k)) 1).fault (pgSPE c k) 1 d

/-- DATAPATH of a working cluster: the cell's error is counted and logged, and the span is taken back. -/
theorem spanDatapath_working (s : State) (c : Fin 68) (k : Fin 4) (perm : Bool) (p : Span) (hp : s.spanOf c = some p) (hn : s.base.nhosts ≤ 4) :
    ∃ t, exec (.spanDatapath c k perm) s = .next t ∧ s.counted t (Reg.speErrors_COUNT (4 * c + k)) 1 ∧ s.counted t (Reg.spcReissue_COUNT c) 1 ∧
      sget (fun _ => 0) t.spr.faults c = sget (fun _ => 0) s.spr.faults c + 1 ∧ t = { s with spr := t.spr, base := t.base } := by
  have hcount := (Keeps.refl (ks := [Reg.speErrors (4 * c + k)]) hn).count (Reg.speErrors_COUNT (4 * c + k)) 1
  obtain ⟨d, hrow⟩ : ∃ d, s.datapathRow c k perm = (cellFault s c k d).abandon c 1 k perm := by
    simp only [State.datapathRow, hp]
    exact ⟨_, rfl⟩
  have hlogged := (Keeps.refl (ks := []) hcount.few).fault (pgSPE c k) 1 d
  obtain ⟨hreissued, hfaulted, hregs, honly⟩ := takenBack_abandon (s := cellFault s c k d) hp 1 k perm c.isLt hlogged.few
  have herrors : Reg.spcReissue c ≠ Reg.speErrors (4 * c + k) := by unfold Reg.spcReissue Reg.speErrors; omega
  refine ⟨(cellFault s c k d).abandon c 1 k perm, congrArg _ hrow, ?_, ?_, hfaulted, (spireOnly_onBase s _).trans honly⟩
  · rw [State.counted, hregs.get (unitReg_speErrors _) (speErrors_not_reissue c.isLt), cellFault, onBase_base,
      hlogged.get (unitReg_speErrors _) List.not_mem_nil, get_count_same _ (Reg.speErrors_COUNT (4 * c + k))]
    rfl
  · rw [State.counted, hreissued, cellFault, onBase_base,
      (hcount.fault (pgSPE c k) 1 d).get (unitReg_spcReissue c) (List.not_mem_cons_of_ne_of_not_mem herrors List.not_mem_nil)]

/-! ## AUTOCAP (R181) -/

/-- AUTOCAP of a write that clears it: the limits are to end at the next cut, and it still reads 1. -/
theorem sprAutocap_ends (s : State) (a : RegWr) (ha : s.accepts Reg.sprLimits a = true) (hset : (s.base.word Reg.sprLimits).toNat.testBit 15 = true)
    (hclear : (s.applied Reg.sprLimits a).word.testBit 15 = false) :
    ∃ t, exec (.sprAutocap a) s = .next t ∧ t.spr = { s.spr with autoEnd := true } ∧ t.base.flag Reg.sprLimits_AUTOCAP = true ∧
      t = { s with spr := t.spr, base := t.base } := by
  have hrow : s.autocapWrite a = (({ s.stored Reg.sprLimits a with spr := { s.spr with autoEnd := true } } : State).onBase
      (·.putFlag Reg.sprLimits_AUTOCAP true)) := by
    rw [State.autocapWrite, write_accepted _ _ _ _ ha (touchesRws_of_unstaged (by decide +kernel) a.be), storeKey_shared (by decide), hset, hclear]
    rfl
  refine ⟨s.autocapWrite a, rfl, ?_⟩
  rw [hrow]
  refine ⟨rfl, ?_, rfl⟩
  exact flag_putFlag_same _ Reg.sprLimits_AUTOCAP true rfl (by decide)

/-! ## UNIT_CTRL of the array, the quadrants and the clusters (R184, R185) -/

/-- A unit reset of a page of the array is the array's own. -/
theorem unitReset_spire (ok : Bool) (r : List Sample) {p : Nat} (hp : 0x100 ≤ p) (s : State) : State.unitReset ok r p s = s.spireReset p := by
  have hroot : p ≠ 0 := by omega
  rw [State.unitReset, if_neg hroot]
  unfold State.pageReset pgCMP pgFRS pgSCO pgPNL pgPRT pgBCN pgBLF pgPAR pgTHM pgCAL pgSXT pgETH pgCDC
  iterate 18 rw [if_neg (by omega)]
  exact if_pos hp

/-- SPIRE_UNIT_RESET of a page of the array. -/
theorem exec_spireUnitReset {s : State} {page : BitVec 10} {a : RegWr} (hpage : 0x100 ≤ page.toNat) (ha : s.asksReset page.toNat a = true) :
    exec (.spireUnitReset page a) s = .next (((s.stored (hdr page.toNat 0x20) a).spireReset page.toNat).onBase Base.draw) := by
  show Host.Outcome.next (if 0x100 ≤ page.toNat then s.ctrlWriteFree page.toNat a else s) = _
  rw [if_pos hpage, State.ctrlWriteFree, ctrlWrite_reset s _ a s.freeBit [] ha, unitReset_spire _ _ hpage]

/-- A unit reset of the array or of a quadrant waits for the cut. -/
theorem spireReset_waits (s : State) {p : Nat} (hp : p < 0x110) :
    s.spireReset p = { s.resetBegins p with spr := { s.spr with waitCut := setInsert s.spr.waitCut p } } := by
  have hcell : ¬ 0x200 ≤ p := by omega
  have hcluster : ¬ 0x110 ≤ p := by omega
  simp only [State.spireReset, if_neg hcell, if_neg hcluster]
  rfl

theorem spireOnly_resetStored (s : State) (p : Nat) (a : RegWr) : SpireOnly s ((s.stored (hdr p 0x20) a).resetBegins p) :=
  (spireOnly_onBase s _).trans (spireOnly_onBase _ _)

theorem spireUnitReset_waits (s : State) (page : BitVec 10) (a : RegWr) (hlo : pgSPR ≤ page.toNat) (hhi : page.toNat < 0x105)
    (ha : s.asksReset page.toNat a = true) :
    ∃ t, exec (.spireUnitReset page a) s = .next t ∧ t.spr = { s.spr with waitCut := setInsert s.spr.waitCut page.toNat } ∧
      t.inReset page.toNat = true ∧ t = { s with spr := t.spr, base := t.base } := by
  refine ⟨_, exec_spireUnitReset hlo ha, ?_⟩
  rw [spireReset_waits _ (by omega)]
  exact ⟨rfl, inReset_resetBegins (s.stored (hdr page.toNat 0x20) a) page.toNat,
    ((spireOnly_resetStored s page.toNat a).trans (spireOnly_spr _ _)).trans (spireOnly_onBase _ _)⟩

/-! ## A cluster leaves dispatch at once (R184) -/

/-- Taking back a cluster's span, if it has one, moves spans and counts on the page of its quadrant and its own. -/
theorem reissue_eq (s : State) (c : Nat) :
    ∃ n w b, s.reissue c = { s with spr := { s.spr with again := n, work := w }, base := b } ∧
      ∀ k, k % 4096 ≠ 0x48 → b.word k = s.base.word k := by
  cases hp : s.spanOf c with
  | none => exact ⟨_, _, _, reissue_none hp, fun _ _ => rfl⟩
  | some p =>
    refine ⟨_, _, _, reissue_span hp, fun k hk => ?_⟩
    have hquadrant : Reg.spqReissue (c / 17) ≠ k := by unfold Reg.spqReissue; omega
    have hcluster : Reg.spcReissue c ≠ k := by unfold Reg.spcReissue; omega
    show (reissueCounted s.base c).word k = _
    rw [reissueCounted, word_count_ne _ _ _ hcluster, word_count_ne _ _ _ hquadrant]

theorem word_setRole (s : State) (c role : Nat) (on : Bool) {k : Nat} (hk : k % 4096 ≠ 0x40) :
    (s.setRole c role on).base.word k = s.base.word k := by
  have hrole : Reg.spcRole c ≠ k := by unfold Reg.spcRole; omega
  have hmap : Reg.spqMap (c / 17) ≠ k := by unfold Reg.spqMap; omega
  unfold State.setRole
  rw [onBase_base, word_put_ne _ _ _ hmap, word_put_ne _ _ _ hrole]

theorem word_setUnit (s : State) (p st : Nat) {k : Nat} (hk : k % 4096 ≠ 0x18) : (s.setUnit p st).base.word k = s.base.word k := by
  unfold State.setUnit
  split
  · rfl
  · exact word_setOwn _ _ _ hk

theorem inReset_of_word {s t : State} {p : Nat} (h : t.base.word (hdr p 0x20) = s.base.word (hdr p 0x20)) : t.inReset p = s.inReset p := by
  unfold State.inReset Base.flag Base.get
  rw [h]

theorem renders_of_word {s t : State} {c : Nat} (h : t.base.word (Reg.spqMap (c / 17)) = s.base.word (Reg.spqMap (c / 17))) :
    t.renders c = s.renders c :=
  congrArg (fun w => (getBits w 16 0).testBit (c % 17)) h

/-- A cluster renders when its own bit of SPQ_MAP is set. -/
theorem renders_eq_flag (s : State) (c : Nat) : s.renders c = s.base.flag ⟨Reg.spqMap (c / 17), c % 17, c % 17⟩ := by
  have hmap : s.base.get (Reg.spqMap_ACTIVE (c / 17)) = (s.base.word (Reg.spqMap (c / 17))).toNat % 2 ^ 17 :=
    (bits_eq (s.base.word (Reg.spqMap (c / 17))).toNat 16 0).trans (congrArg (· % 2 ^ 17) (Nat.div_one _))
  have hbit : c % 17 < 17 := Nat.mod_lt _ (by decide)
  have hone : c % 17 + 1 - c % 17 = 1 := by omega
  rw [State.renders, hmap, Nat.testBit_mod_two_pow, Base.flag, Base.get, getBits, bits_eq, hone, pow_one, Nat.testBit_eq_decide_div_mod_eq, decide_eq_true hbit,
    Bool.true_and]
  rfl

theorem renders_setRole (s : State) (c role : Nat) (on : Bool) : (s.setRole c role on).renders c = on := by
  rw [renders_eq_flag]
  exact flag_putFlag_same _ ⟨Reg.spqMap (c / 17), c % 17, c % 17⟩ on rfl (show c % 17 ≤ 31 by omega)

/-- Cluster c is out of dispatch, its unit reset in progress. -/
def outForReset (x : Spire) (c : Nat) : Spire := { x with resets := setInsert x.resets c, off := setInsert x.off c }

/-- The state in which a cluster in dispatch has been taken out for a unit reset. -/
def clusterOut (s : State) (c : Nat) : State :=
  ((({ s with spr := outForReset s.spr c } : State).reissue c).setRole c 3 false).setUnit (pgSPC c) uREADY

theorem clusterReset_ready {s : State} {c : Nat} (hready : s.base.ownState (pgSPC c) = uREADY) :
    s.clusterReset c = (clusterOut s c).handOut (c / 17) := by
  simp only [State.clusterReset, hready]
  rfl

theorem spr_clusterOut (s : State) (c : Nat) :
    (clusterOut s c).spr.off = setInsert s.spr.off c ∧ (clusterOut s c).spr.resets = setInsert s.spr.resets c := by
  obtain ⟨n, w, b, hreissue, -⟩ := reissue_eq { s with spr := outForReset s.spr c } c
  rw [clusterOut, spr_setUnit, State.setRole, onBase_spr, hreissue]
  exact ⟨rfl, rfl⟩

theorem spireOnly_clusterOut (s : State) (c : Nat) : SpireOnly s (clusterOut s c) := by
  obtain ⟨n, w, b, hreissue, -⟩ := reissue_eq { s with spr := outForReset s.spr c } c
  rw [clusterOut, hreissue]
  exact .trans (by rfl) (spireOnly_setUnit _ _ _)

theorem renders_clusterOut (s : State) (c : Nat) : (clusterOut s c).renders c = false := by
  have hmap : Reg.spqMap (c / 17) % 4096 ≠ 0x18 := by unfold Reg.spqMap; omega
  rw [clusterOut, renders_of_word (word_setUnit _ _ _ hmap), renders_setRole]

theorem inReset_clusterOut (s : State) (c p : Nat) : (clusterOut s c).inReset p = s.inReset p := by
  have hctrl : hdr p 0x20 % 4096 = 0x20 := hdr_mod (by decide)
  obtain ⟨n, w, b, hreissue, hword⟩ := reissue_eq { s with spr := outForReset s.spr c } c
  refine inReset_of_word ?_
  rw [clusterOut, word_setUnit _ _ _ (by rw [hctrl]; decide), word_setRole _ _ _ _ (by rw [hctrl]; decide), hreissue]
  exact hword _ (by rw [hctrl]; decide)

/-- What the unit reset of a cluster in dispatch comes to: the hand-out that follows changes none of it. -/
theorem clusterReset_effect {s : State} {c : Nat} (hready : s.base.ownState (pgSPC c) = uREADY) :
    (s.clusterReset c).spr.off = setInsert s.spr.off c ∧ (s.clusterReset c).spr.resets = setInsert s.spr.resets c ∧
      (s.clusterReset c).renders c = false ∧ (∀ p, (s.clusterReset c).inReset p = s.inReset p) ∧ SpireOnly s (s.clusterReset c) := by
  have hmoved := spansMoved_handOut (clusterOut s c) (c / 17)
  obtain ⟨hoff, hresets⟩ := spr_clusterOut s c
  rw [clusterReset_ready hready]
  refine ⟨hmoved.off.trans hoff, hmoved.resets.trans hresets, ?_, fun p => ?_, (spireOnly_clusterOut s c).trans hmoved.only⟩
  · rw [renders_of_word (congrArg (Base.word · _) hmoved.base), renders_clusterOut]
  · rw [inReset_of_word (congrArg (Base.word · _) hmoved.base), inReset_clusterOut]

/-- The page of a cluster is that of a cluster, not of a cell. -/
theorem spireReset_cluster (s : State) (c : Fin 68) : s.spireReset (pgSPC c) = (s.resetBegins (pgSPC c)).clusterReset c := by
  have hcell : ¬ 0x200 ≤ pgSPC c := by unfold pgSPC; omega
  have hcluster : 0x110 ≤ pgSPC c := by unfold pgSPC; omega
  have hnumber : pgSPC c - 0x110 = c := by unfold pgSPC; omega
  simp only [State.spireReset, if_neg hcell, if_pos hcluster, hnumber]

theorem spireUnitReset_cluster (s : State) (page : BitVec 10) (c : Fin 68) (a : RegWr) (hpage : page.toNat = pgSPC c)
    (ha : s.asksReset page.toNat a = true) (hready : s.base.ownState page.toNat = uREADY) :
    ∃ t, exec (.spireUnitReset page a) s = .next t ∧ t.spr.off = setInsert s.spr.off c ∧ t.spr.resets = setInsert s.spr.resets c ∧
      t.renders c = false ∧ t.inReset page.toNat = true ∧ t = { s with spr := t.spr, base := t.base } := by
  have hlo : 0x100 ≤ page.toNat := by rw [hpage]; unfold pgSPC; omega
  refine ⟨_, exec_spireUnitReset hlo ha, ?_⟩
  rw [hpage] at hready ⊢
  obtain ⟨hoff, hresets, hdark, hreset, honly⟩ := clusterReset_effect (s := (s.stored (hdr (pgSPC c) 0x20) a).resetBegins (pgSPC c)) hready
  rw [spireReset_cluster]
  refine ⟨hoff, hresets, (renders_of_word (word_draw _ _)).trans hdark, ?_,
    ((spireOnly_resetStored s (pgSPC c) a).trans honly).trans (spireOnly_onBase _ _)⟩
  rw [inReset_draw, hreset, inReset_resetBegins]

/-! ## ENABLE of a cluster (R185) -/

/-- ENABLE of a cluster is looked at when its quadrant begins a subframe. -/
theorem pageEnabled_cluster (c : Fin 68) (on : Bool) (s : State) : State.pageEnabled (pgSPC c) on s = s := by
  unfold State.pageEnabled pgSPC pgPRT pgBCN pgBLF pgETH pgPAR
  iterate 9 rw [if_neg (by omega)]

theorem clusterEnable_taken (s : State) (c : Fin 68) (a : RegWr) (on : Bool) (ha : s.asksEnable (pgSPC c) a on = true) :
    ∃ t, exec (.clusterEnable c a) s = .next t ∧ t.base.enabled (pgSPC c) = on ∧ t = { s with base := t.base } := by
  have hrow : s.ctrlWriteFree (pgSPC c) a = { s with base := (enableBase s (pgSPC c) a).draw } := by
    rw [ctrlWriteFree_enable ha, pageEnabled_cluster]
    rfl
  exact ⟨_, congrArg Host.Outcome.next hrow, enabled_enableBase ha, rfl⟩

/-! ## SPAN_DONE (R174) -/

/-- Two states that differ in the Spire, scene memory, the admission unit and their common core only. -/
def RenderOnly (s t : State) : Prop := t = { s with spr := t.spr, dome := t.dome, adm := t.adm, base := t.base }

theorem RenderOnly.trans {s t u : State} (h1 : RenderOnly s t) (h2 : RenderOnly t u) : RenderOnly s u := by
  unfold RenderOnly at *; rw [h2, h1]

theorem renderOnly_onBase (s : State) (f : Base → Base) : RenderOnly s (s.onBase f) := rfl

theorem SpireOnly.render {s t : State} (h : SpireOnly s t) : RenderOnly s t := by
  unfold SpireOnly at h; unfold RenderOnly; rw [h]

theorem renderOnly_noteWord (reader : Nat) (e : Ecc) (s : State) (w : Nat) : RenderOnly s (State.noteWord reader e s w) := by
  unfold State.noteWord
  dsimp only
  split
  · split
    · exact renderOnly_onBase _ _
    · exact (renderOnly_onBase _ _).trans (renderOnly_onBase _ _)
  · split
    · exact renderOnly_onBase _ _
    · rfl

theorem renderOnly_startRetire (s : State) (page cause : Nat) (ue : List Nat) : RenderOnly s (s.startRetire page cause ue) := by
  have hrequest (u : State) (tag : Nat) : RenderOnly u (u.request ridRetire tag 2) := by
    unfold State.request
    split <;> rfl
  unfold State.startRetire
  extract_lets f _ spare d s1 s2
  have h1 : RenderOnly s s1 := rfl
  clear_value s1
  have h2 : RenderOnly s s2 := by
    simp only [s2]
    split
    · exact h1.trans (renderOnly_onBase _ _)
    · exact h1
  split
  · rfl
  · exact h2.trans (hrequest s2 f)

theorem renderOnly_checkWord (reader : Nat) (e : Ecc) (s : State) (w : Nat) : RenderOnly s (State.checkWord reader e s w) := by
  unfold State.checkWord
  dsimp only
  split
  · exact (renderOnly_noteWord reader e s w).trans (renderOnly_startRetire _ _ _ _)
  · exact renderOnly_noteWord reader e s w

/-- From s to t the rendering has gone on: no unit register but the named ones has changed, and the scenes and scan-out are as they were. -/
structure Rendered (ks : List Nat) (s t : State) : Prop where
  regs : Keeps ks s.base t.base
  only : RenderOnly s t

namespace Rendered

variable {ks : List Nat} {s t : State}

theorem refl (hn : s.base.nhosts ≤ 4) : Rendered ks s s := ⟨.refl hn, rfl⟩

theorem onBase (h : Rendered ks s t) (f : Base → Base) (hf : Keeps ks s.base (f t.base)) : Rendered ks s (t.onBase f) :=
  ⟨hf, h.only.trans (renderOnly_onBase t f)⟩

theorem spr (h : Rendered ks s t) (x : Spire) : Rendered ks s { t with spr := x } := ⟨h.regs, h.only.trans rfl⟩

theorem dome (h : Rendered ks s t) (d : Dome) : Rendered ks s { t with dome := d } := ⟨h.regs, h.only.trans rfl⟩

theorem ite {u : State} (p : Prop) [Decidable p] (ht : Rendered ks s t) (hu : Rendered ks s u) : Rendered ks s (if p then t else u) := by
  split
  · exact ht
  · exact hu

theorem foldl {β : Type} {f : State → β → State} {l : List β} (hf : ∀ x, ∀ e ∈ l, Rendered ks s x → Rendered ks s (f x e)) (h : Rendered ks s t) :
    Rendered ks s (l.foldl f t) :=
  List.foldlRecOn l f h fun x hx e he => hf x e he hx

end Rendered

/-! ### The gathers of a span (R168, R176) -/

/-- The registers that the gathers and the samples of a span of cluster c count in. -/
def gatherRegs (c : Nat) : List Nat :=
  memoryCounters ++ [Reg.spcCachePe c, Reg.spqCachePe (c / 17), Reg.sprGatherEcc, Reg.sprCapped] ++ (List.range 4).map fun k => Reg.speSamples (4 * c + k)

theorem memoryCounters_gather (c : Nat) : memoryCounters ⊆ gatherRegs c := fun _ hk => List.mem_append_left _ (List.mem_append_left _ hk)

theorem samples_gather {c k : Nat} (hk : k ∈ List.range 4) : Reg.speSamples (4 * c + k) ∈ gatherRegs c :=
  List.mem_append_right _ (List.mem_map.mpr ⟨k, hk, rfl⟩)

theorem memoryCounters_lt : ∀ k ∈ memoryCounters, k < 0x100000 := by decide

theorem spcSpans_not_gather {c : Nat} (hc : c < 68) : Reg.spcSpans c ∉ gatherRegs c := by
  have hq : c / 17 < 4 := Nat.div_lt_of_lt_mul hc
  intro hmem
  simp only [gatherRegs, List.mem_append, List.mem_cons, List.not_mem_nil, or_false, List.mem_map, List.mem_range, Reg.spcSpans, Reg.spcCachePe,
    Reg.spqCachePe, Reg.sprGatherEcc, Reg.sprCapped, Reg.speSamples] at hmem
  rcases hmem with (hmem | hmem) | ⟨k, _, hmem⟩
  · have := memoryCounters_lt _ hmem
    omega
  · omega
  · omega

/-- What the rays gather substitutes lines of the subframe and nothing else. -/
theorem gather_spr (p : Span) (ecc : Ecc) (n : Nat) (s : State) (seen : List Nat) : ∃ x, (State.gather p ecc n s seen).1 = { s with spr := x } := by
  induction n generalizing s seen with
  | zero => exact ⟨_, rfl⟩
  | succ n ih =>
    simp only [State.gather]
    split
    · exact ⟨_, rfl⟩
    · exact ih _ _

section
variable {ks : List Nat} {s t : State}

theorem rendered_checkWord (hsub : memoryCounters ⊆ ks) (h : Rendered ks s t) (reader : Nat) (e : Ecc) (w : Nat) :
    Rendered ks s (State.checkWord reader e t w) :=
  ⟨h.regs.trans (keeps_checkWord (.refl h.regs.few) reader e w) hsub, h.only.trans (renderOnly_checkWord reader e t w)⟩

theorem rendered_gathered (hsub : memoryCounters ⊆ ks) (h : Rendered ks s t) (ecc : Ecc) (new all : List Nat) :
    Rendered ks s (t.gathered ecc new all) :=
  Rendered.foldl (fun _ w _ hx => rendered_checkWord hsub hx 0 ecc w) ((h.dome _).dome _)

theorem rendered_addSamples (h : Rendered ks s t) {c k : Nat} (hk : Reg.speSamples (4 * c + k) ∈ ks) (n : Nat) :
    Rendered ks s (t.addSamples c k n) := by
  unfold State.addSamples
  exact (h.spr _).onBase _ (h.regs.count (Reg.speSamples_MCOUNT (4 * c + k)) _ hk)

/-! ### Lines, the end of a subframe and new spans (R172, R174, R175, R196) -/

/-- The registers that follow the lines written and the end of a subframe. -/
def lineRegs : List Nat := [Reg.scoWait, Reg.sprDemand, Reg.sprDemandPeak]

theorem rendered_writeLines (h : Rendered lineRegs s t) (q n : Nat) : Rendered lineRegs s (State.writeLines q n t) := by
  induction n generalizing t with
  | zero => exact h
  | succ n ih =>
    simp only [State.writeLines]
    exact .ite _ h (.ite _ (.ite _ h ((h.spr _).onBase _ (h.regs.count Reg.scoWait_COUNT 1))) (ih (h.spr _)))

theorem keeps_busyFold {b c : Base} (h : Keeps ks b c) (pages : List (Nat × Bool)) : Keeps ks b (pages.foldl (fun x p => x.busyIf p.1 p.2) c) :=
  List.foldlRecOn pages _ h fun _ hx p _ => hx.busyIf p.1 p.2

theorem rendered_spireStates (h : Rendered ks s t) : Rendered ks s t.spireStates := by
  unfold State.spireStates State.cmpState
  extract_lets r pages
  clear_value pages
  have hpages : Rendered ks s (t.onBase fun b => pages.foldl (fun x p => x.busyIf p.1 p.2) b) := h.onBase _ (keeps_busyFold h.regs pages)
  exact hpages.onBase _ (hpages.regs.busyIf _ _)

theorem rendered_renderDone (h : Rendered lineRegs s t) : Rendered lineRegs s t.renderDone := by
  unfold State.renderDone
  refine .ite _ h ?_
  extract_lets d s1
  have hput : Rendered lineRegs s (t.onBase fun b =>
      (b.put Reg.sprDemand_DEMAND d).put Reg.sprDemandPeak_PEAK (max (b.get Reg.sprDemandPeak_PEAK) d)) :=
    h.onBase _ ((h.regs.put Reg.sprDemand_DEMAND d).put Reg.sprDemandPeak_PEAK (max (t.base.get Reg.sprDemandPeak_PEAK) d))
  have hjudged : Rendered lineRegs s s1 := .ite _ hput ((hput.spr _).onBase _ (hput.regs.raise pgSPR 17))
  exact rendered_spireStates (hjudged.spr _)

theorem rendered_handOut (h : Rendered ks s t) (q : Nat) : Rendered ks s (t.handOut q) := by
  have hmoved := spansMoved_handOut t q
  refine ⟨?_, h.only.trans hmoved.only.render⟩
  rw [hmoved.base]
  exact h.regs

theorem rendered_advanceQuadrant (h : Rendered lineRegs s t) (q : Nat) : Rendered lineRegs s (t.advanceQuadrant q) :=
  rendered_handOut (rendered_renderDone (rendered_writeLines h q _)) q

end

/-! ### The row -/

theorem base_spanCounted (u : State) (c : Nat) :
    ((u.setSpan c none).onBase (·.count (Reg.spcSpans_COUNT c) 1)).base = u.base.count (Reg.spcSpans_COUNT c) 1 := rfl

theorem spireOnly_spanCounted (u : State) (c : Nat) : SpireOnly u ((u.setSpan c none).onBase (·.count (Reg.spcSpans_COUNT c) 1)) := rfl

/-- SPAN_DONE of a working cluster: from u, in which the span's gathers and samples are counted, the span is counted, and its quadrant goes on. -/
theorem spanDoneRow_working {s : State} {c : Nat} {p : Span} (hp : s.spanOf c = some p) (hn : s.base.nhosts ≤ 4) (ecc : Ecc) (cp qp : Nat) :
    ∃ u v : State, Rendered (gatherRegs c) s u ∧ v.base = u.base.count (Reg.spcSpans_COUNT c) 1 ∧ RenderOnly u v ∧
      s.spanDoneRow c ecc cp qp = v.advanceQuadrant (c / 17) := by
  obtain ⟨hcluster, hquadrant, hlines, hcapped⟩ : Reg.spcCachePe c ∈ gatherRegs c ∧ Reg.spqCachePe (c / 17) ∈ gatherRegs c ∧
      Reg.sprGatherEcc ∈ gatherRegs c ∧ Reg.sprCapped ∈ gatherRegs c := by simp [gatherRegs]
  unfold State.spanDoneRow
  split
  case h_1 hnone => simp [hp] at hnone
  case h_2 q hq =>
  obtain rfl : p = q := Option.some.inj (hp.symm.trans hq)
  extract_lets g new s0 s2 rays capped s3 cost s4 s5 _ s6
  have hg : Rendered (gatherRegs c) s g.1 := by
    obtain ⟨x, hx⟩ := gather_spr p ecc gatherRounds s []
    simp only [g, hx]
    exact (Rendered.refl hn).spr x
  have hread := rendered_gathered (memoryCounters_gather c) hg ecc new g.2
  have h0 : Rendered (gatherRegs c) s s0 := hread.onBase _
    ((hread.regs.count (Reg.spcCachePe_COUNT c) cp hcluster).count (Reg.spqCachePe_COUNT (c / 17)) qp hquadrant)
  have h2 : Rendered (gatherRegs c) s s2 := .ite _ h0 (h0.onBase _ ((h0.regs.count Reg.sprGatherEcc_COUNT _ hlines).raise pgSPR 20))
  have h3 : Rendered (gatherRegs c) s s3 := .ite _ h2 (h2.onBase _ ((h2.regs.count Reg.sprCapped_COUNT _ hcapped).raise pgSPR 16))
  have h4 : Rendered (gatherRegs c) s s4 := Rendered.foldl
    (fun _ _ hk hx => rendered_addSamples hx (samples_gather hk) _) h3
  have hcounted : s5.base = s4.base.count (Reg.spcSpans_COUNT c) 1 := base_spanCounted s4 c
  have h5 : SpireOnly s4 s5 := spireOnly_spanCounted s4 c
  clear_value s5
  exact ⟨s4, s6, h4, hcounted, (h5.trans (spireOnly_spr s5 _)).render, rfl⟩

/-- SPAN_DONE of a working cluster. -/
theorem spanDone_working (s : State) (c : Fin 68) (ecc : Ecc) (cp qp : Nat) (p : Span) (hp : s.spanOf c = some p) (hn : s.base.nhosts ≤ 4) :
    ∃ t, exec (.spanDone c ⟨ecc, cp, qp⟩) s = .next t ∧ s.counted t (Reg.spcSpans_COUNT c) 1 ∧ t.scenes = s.scenes ∧ t.sco = s.sco := by
  obtain ⟨u, v, hu, hcount, hv, hrow⟩ := spanDoneRow_working hp hn ecc cp qp
  have hfew : v.base.nhosts ≤ 4 := by rw [hcount]; exact hu.regs.few
  have hafter : Rendered lineRegs v (v.advanceQuadrant (c / 17)) := rendered_advanceQuadrant (.refl hfew) _
  have honly := (hu.only.trans hv).trans hafter.only
  have hline : Reg.spcSpans c ∉ lineRegs := by
    simp only [lineRegs, Reg.spcSpans, Reg.scoWait, Reg.sprDemand, Reg.sprDemandPeak, List.mem_cons, List.not_mem_nil, or_false]
    omega
  refine ⟨_, congrArg Host.Outcome.next hrow, ?_, ?_, ?_⟩
  · rw [State.counted, hafter.regs.get (unitReg_spcSpans c) hline, hcount, get_count_same _ (Reg.spcSpans_COUNT c),
      hu.regs.get (unitReg_spcSpans c) (spcSpans_not_gather c.isLt)]
    rfl
  · rw [honly]
  · rw [honly]

/-- Settles O25: the end of a span (R174), STALL and DATAPATH (R177, R189), AUTOCAP (R181), unit resets (R184) and ENABLE of a cluster (R185). -/
theorem spansFinishFailAndAreReissued : Obligations.SpansFinishFailAndAreReissued :=
  ⟨spanDone_working, spanStall_due, spanDatapath_working, sprAutocap_ends, spireUnitReset_waits, spireUnitReset_cluster, clusterEnable_taken⟩

end Sys2Proof.Proofs

/-! O18: a seal releases the uploads of its transaction (R252), and a DECODE of another transaction that still reads one keeps it (R147). -/

namespace Sys2Proof.Proofs

open Sys2Proof Sys2Proof.Machine

/-- Closed by its TX_COMMIT, with a command accepted into it. -/
def closedTxn : Txn := { Txn.fresh with closing := true, accepted := true, commit := some 5 }

/-- An upload of one granule that transaction 3 created. -/
def upload3 : Upload := ⟨3, 65536, [7]⟩

/-- A DECODE of transaction 4 in work that reads upload 0. -/
def foreignDecode : Decode := ⟨9, 0, 0, 4, 49151, 0, true, 0, 0, 16, 0, 0, 1, 1, true, none, 0, false, 0⟩

/-- Of host 0, transaction 3 is closed and its work is over, and a DECODE of the OPEN transaction 4 reads the upload of transaction 3. -/
def sealUnderDecode : State :=
  { State.reset with
    scenes := { State.reset.scenes with txns := [(3, some closedTxn), (4, some { Txn.fresh with accepted := true })] }
    dome := { State.reset.dome with uploads := [(0, some upload3)] }
    codec := { State.reset.codec with decodes := [foreignDecode] } }

/-- SEAL of transaction 3 hands its upload to that DECODE. -/
theorem kept_sealUnderDecode : (sealUnderDecode.sealRow 0 3).codec.kept = [(9, some upload3)] := by decide +kernel

/-- Refutes O18: the frame of SEAL leaves out the uploads that DECODEs of other transactions keep (R147, R252). -/
theorem not_sealsTakeTheirSequencerPosition : ¬ Obligations.SealsTakeTheirSequencerPosition := by
  intro h
  obtain ⟨t, hexec, -, -, -, -, hframe⟩ :=
    h.1 sealUnderDecode 0 3 closedTxn (by decide +kernel) (by decide +kernel) (by decide +kernel) rfl
  obtain rfl : sealUnderDecode.sealRow 0 3 = t := Host.Outcome.next.inj hexec
  have hkept : (sealUnderDecode.sealRow 0 3).codec.kept = sealUnderDecode.codec.kept := by rw [hframe]
  rw [kept_sealUnderDecode] at hkept
  exact absurd hkept (by decide)

end Sys2Proof.Proofs

/-! What the work at a subframe start leaves alone: the scenes, the timeline in force, the configuration transaction, and the registers that place subframes (R190, R194). One rule per operation of the common core and of the state, then one per unit that acts at a subframe start. -/

namespace Sys2Proof.Proofs

open Sys2Proof Sys2Proof.Machine Sys2Proof.Laws

-- Many short proofs in a row: elaborated one after the other, they do not each hold a thread and its stack.
set_option Elab.async false

/-! ## The registers that place subframes -/

/-- SCO_SUBFRAME, the pending SET, T_EPOCH and the wall rate. -/
def timelineRegs : List Nat := [Reg.scoSubframe, Reg.sxtCtrl, Reg.sxtEpochLo, Reg.sxtEpochHi, Reg.scoCtrl]

theorem timelineRegs_lt : ∀ k ∈ timelineRegs, k < 0x44000 := by decide
theorem timelineRegs_offset : ∀ k ∈ timelineRegs, 0x40 ≤ k % 4096 ∧ k % 4096 ≠ 0x64 ∧ k % 4096 ≠ 0x7C := by decide

/-- The registers of the pages above scan-out place no subframe. -/
theorem not_timeline_of_le {k : Nat} (h : 0x44000 ≤ k) : k ∉ timelineRegs := fun hk => absurd (timelineRegs_lt k hk) (Nat.not_lt.mpr h)

/-- Nor do those between the Sextant's and scan-out's. -/
theorem not_timeline_between {k : Nat} (hlo : 0xA074 < k) (hhi : k < 0x43040) : k ∉ timelineRegs := by
  have houtside : ∀ j ∈ timelineRegs, j ≤ 0xA074 ∨ 0x43040 ≤ j := by decide
  intro hk
  have := houtside k hk
  omega

theorem not_timeline_hdr (p : Nat) {off : Nat} (h : off < 0x40) : hdr p off ∉ timelineRegs := by
  intro hk
  have hoff := (timelineRegs_offset _ hk).1
  rw [hdr_mod (by omega)] at hoff
  omega

theorem not_timeline_logLost (i : Nat) : (logLost i).key ∉ timelineRegs := by
  intro hk
  obtain ⟨-, hfault, hviolation⟩ := timelineRegs_offset _ hk
  unfold logLost at hfault hviolation
  split at hfault
  · exact hfault (by show (0x10064 + 4096 * (i / 2)) % 4096 = _; omega)
  · rename_i hodd
    rw [if_neg hodd] at hviolation
    exact hviolation (by show (0x1007C + 4096 * (i / 2)) % 4096 = _; omega)

/-- From `b` to `c` the registers that place subframes keep their words. -/
structure Placed (b c : Base) : Prop where
  word : ∀ k ∈ timelineRegs, c.word k = b.word k

namespace Placed

variable {b c d : Base}

theorem refl (b : Base) : Placed b b := ⟨fun _ _ => rfl⟩

theorem trans (h1 : Placed b c) (h2 : Placed c d) : Placed b d := ⟨fun k hk => (h2.word k hk).trans (h1.word k hk)⟩

theorem of_regs (h : Placed b c) (hr : d.regs = c.regs) : Placed b d :=
  ⟨fun k hk => by rw [Base.word, hr]; exact h.word k hk⟩

theorem setWord (h : Placed b c) (k : Nat) (v : BitVec 32) (hk : k ∉ timelineRegs := by decide) : Placed b (c.setWord k v) :=
  ⟨fun j hj => (word_setWord_ne c v fun e : k = j => hk (by rw [e]; exact hj)).trans (h.word j hj)⟩

theorem put (h : Placed b c) (f : FieldRef) (v : Nat) (hf : f.key ∉ timelineRegs := by decide) : Placed b (c.put f v) := h.setWord _ _ hf

theorem putFlag (h : Placed b c) (f : FieldRef) (v : Bool) (hf : f.key ∉ timelineRegs := by decide) : Placed b (c.putFlag f v) := h.setWord _ _ hf

theorem count (h : Placed b c) (f : FieldRef) (n : Nat) (hf : f.key ∉ timelineRegs := by decide) : Placed b (c.count f n) := h.setWord _ _ hf

/-- A field of a numbered register above scan-out. -/
theorem putAbove (h : Placed b c) (f : FieldRef) (v : Nat) (hf : 0x44000 ≤ f.key := by exact Nat.le_add_right_of_le (by decide)) :
    Placed b (c.put f v) := h.put f v (not_timeline_of_le hf)

theorem countAbove (h : Placed b c) (f : FieldRef) (n : Nat) (hf : 0x44000 ≤ f.key := by exact Nat.le_add_right_of_le (by decide)) :
    Placed b (c.count f n) := h.count f n (not_timeline_of_le hf)

theorem msixAll (h : Placed b c) (l : List (Nat × Nat)) : Placed b (c.msixAll l) := h.of_regs (msixAll_regs c l)

theorem raiseMask (h : Placed b c) (p m : Nat) : Placed b (c.raiseMask p m) := (h.setWord _ _ (not_timeline_hdr p (by decide))).msixAll _

theorem raise (h : Placed b c) (p n : Nat) : Placed b (c.raise p n) := h.raiseMask p _

theorem setOwn (h : Placed b c) (p st : Nat) : Placed b (c.setOwn p st) := by
  refine ⟨fun k hk => (word_setOwn c p st ?_).trans (h.word k hk)⟩
  have := (timelineRegs_offset k hk).1
  omega

theorem busyIf (h : Placed b c) (p : Nat) (on : Bool) : Placed b (c.busyIf p on) := by
  unfold Base.busyIf
  split
  · exact h.setOwn _ _
  · exact h

theorem logPush (h : Placed b c) (i : Nat) (e : LogEntry) : Placed b (c.logPush i e) := by
  simp only [Base.logPush]
  split
  · exact h.of_regs rfl
  · exact Placed.raise ((h.of_regs (setLogq_regs ..)).count _ 1 (not_timeline_logLost i)) _ _

theorem logPushAll (h : Placed b c) (e : LogEntry) (l : List Nat) : Placed b (c.logPushAll e l) := by
  induction l generalizing c with
  | nil => exact h
  | cons i r ih => exact ih (h.logPush _ e)

theorem fault (h : Placed b c) (p code : Nat) (d : List Byte) : Placed b (c.fault p code d) := by
  have hcount := h.put ⟨hdr p 0x28, 31, 0⟩ (min (2 ^ 32 - 1) (c.get ⟨hdr p 0x28, 31, 0⟩ + 1)) (not_timeline_hdr p (by decide))
  simp only [Base.fault]
  refine ((?_ : Placed b _).raiseMask p _).logPushAll _ _
  split
  · exact hcount
  · exact hcount.setWord _ _ (not_timeline_hdr p (by decide))

theorem emit (h : Placed b c) (o : Output) : Placed b (c.emit o) := h.of_regs rfl

theorem ite (p : Prop) [Decidable p] (hc : Placed b c) (hd : Placed b d) : Placed b (if p then c else d) := by
  split
  · exact hc
  · exact hd

theorem foldl {β : Type} {f : Base → β → Base} (l : List β) (hf : ∀ x, ∀ e ∈ l, Placed x (f x e)) (h : Placed b c) : Placed b (l.foldl f c) :=
  List.foldlRecOn l f h fun x hx e he => hx.trans (hf x e he)

end Placed

/-! ## The state at a subframe start -/

/-- From s to t the timeline in force and the registers that place subframes stand. -/
structure OnTimeline (s t : State) : Prop where
  sco : t.sco = s.sco
  regs : Placed s.base t.base

/-- And so do the frame retirements. -/
structure Ticked (s t : State) : Prop extends OnTimeline s t where
  retire : t.dome.retire = s.dome.retire

/-- And so do the scenes and the configuration transaction. -/
structure Steady (s t : State) : Prop extends Ticked s t where
  scenes : t.scenes = s.scenes
  cfg : t.cfg = s.cfg

theorem OnTimeline.trans {s t u : State} (h1 : OnTimeline s t) (h2 : OnTimeline t u) : OnTimeline s u :=
  ⟨h2.sco.trans h1.sco, h1.regs.trans h2.regs⟩

theorem Ticked.trans {s t u : State} (h1 : Ticked s t) (h2 : Ticked t u) : Ticked s u :=
  ⟨h1.toOnTimeline.trans h2.toOnTimeline, h2.retire.trans h1.retire⟩

namespace Steady

variable {s t u : State}

theorem refl (s : State) : Steady s s := ⟨⟨⟨rfl, .refl _⟩, rfl⟩, rfl, rfl⟩

theorem trans (h1 : Steady s t) (h2 : Steady t u) : Steady s u := ⟨h1.toTicked.trans h2.toTicked, h2.scenes.trans h1.scenes, h2.cfg.trans h1.cfg⟩

theorem onBase (h : Steady s t) (f : Base → Base) (hf : Placed t.base (f t.base)) : Steady s (t.onBase f) :=
  ⟨⟨⟨h.sco, h.regs.trans hf⟩, h.retire⟩, h.scenes, h.cfg⟩

/-- A change of another part of the state. -/
theorem elsewhere (h : Steady s t) (hsco : u.sco = t.sco := by rfl) (hretire : u.dome.retire = t.dome.retire := by rfl) (hbase : u.base = t.base := by rfl)
    (hscenes : u.scenes = t.scenes := by rfl) (hcfg : u.cfg = t.cfg := by rfl) : Steady s u :=
  ⟨⟨⟨hsco.trans h.sco, by rw [hbase]; exact h.regs⟩, hretire.trans h.retire⟩, hscenes.trans h.scenes, hcfg.trans h.cfg⟩

theorem ite (p : Prop) [Decidable p] (ht : Steady s t) (hu : Steady s u) : Steady s (if p then t else u) := by
  split
  · exact ht
  · exact hu

theorem foldl {β : Type} {f : State → β → State} (l : List β) (hf : ∀ x, ∀ e ∈ l, Steady x (f x e)) (h : Steady s t) : Steady s (l.foldl f t) :=
  List.foldlRecOn l f h fun x hx e he => hx.trans (hf x e he)

theorem ofSpire (h : SpireOnly s t) (hb : Placed s.base t.base) : Steady s t := by
  unfold SpireOnly at h
  rw [h]
  exact ⟨⟨⟨rfl, hb⟩, rfl⟩, rfl, rfl⟩

/-! ## Units, leave and unit resets -/

theorem setUnit (h : Steady s t) (p st : Nat) : Steady s (t.setUnit p st) := by
  unfold State.setUnit
  exact .ite _ h (h.onBase _ ((Placed.refl _).setOwn _ _))

theorem request (h : Steady s t) (rid tag units : Nat) : Steady s (t.request rid tag units) := by
  unfold State.request
  exact .ite _ h h.elsewhere

theorem release (h : Steady s t) (rid tag : Nat) : Steady s (t.release rid tag) := h.elsewhere

theorem resetEnds (h : Steady s t) (p : Nat) : Steady s (t.resetEnds p) := by
  have hcleared (left : List Nat) : Placed t.base { t.base.putFlag ⟨hdr p 0x20, 1, 1⟩ false with rootWaits := left } :=
    ((Placed.refl _).putFlag _ _ (not_timeline_hdr p (by decide))).of_regs rfl
  exact h.onBase _ (.ite _ ((hcleared _).putFlag _ _ (not_timeline_hdr 0 (by decide))) (hcleared _))

/-! ## The freshness guard (R222, R229, R240) -/

theorem guardRegs (h : Steady s t) : Steady s t.guardRegs := by
  unfold State.guardRegs
  extract_lets
  exact h.onBase _ ((((((((Placed.refl _).putFlag _ _).put _ _).put _ _).putFlag _ _).putFlag _ _).putFlag _ _).put _ _ |>.put _ _)

theorem guardJudge (h : Steady s t) (start : Nat) : Steady s (t.guardJudge start) := by
  unfold State.guardJudge
  extract_lets force ctxs on regs rose old fell mask mode veil _ s1
  have h1 : Steady s s1 := h.elsewhere
  exact guardRegs (.ite _ h1 (h1.onBase _ ((Placed.refl _).raiseMask _ _)))

theorem guardHandOver (h : Steady s t) (ages : List StagedAge) (tctx treg : List Nat) : Steady s (t.guardHandOver ages tctx treg) := h.elsewhere

/-! ## The ports (R339, R347, R357) -/

theorem setPort (h : Steady s t) (p : Nat) (x : Port) : Steady s (t.setPort p x) := h.elsewhere

theorem setLane (h : Steady s t) (l : Nat) (x : Lane) : Steady s (t.setLane l x) := h.elsewhere

theorem sendRow (h : Steady s t) (p : Nat) (body : List Byte) : Steady s (t.sendRow p body) := h.onBase _ ((Placed.refl _).of_regs rfl)

theorem sendLineRow (h : Steady s t) (p : Nat) (body : List Byte) : Steady s (t.sendLineRow p body) := h.onBase _ ((Placed.refl _).of_regs rfl)

theorem refreshLanes (h : Steady s t) (p : Nat) : Steady s (t.refreshLanes p) := by
  unfold State.refreshLanes
  refine .foldl _ (fun x b _ => (refl x).onBase _ ((Placed.refl _).setOwn _ _)) (.foldl _ (fun x n _ => (refl x).onBase _ ?_) h)
  exact (((Placed.refl _).putAbove (Reg.lnkStatus_ROLE (txLane p n)) _).putAbove (Reg.lnkStatus_LOGICAL (txLane p n)) _).setOwn _ _

theorem refreshPort (h : Steady s t) (p : Nat) : Steady s (t.refreshPort p) := by
  unfold State.refreshPort
  refine .ite _ h ?_
  extract_lets x on m spares mapWord s1
  refine refreshLanes (h.onBase _ ?_) p
  extract_lets b1 b2 b3 b4
  have h1 : Placed t.base b1 := (((Placed.refl _).putAbove (Reg.prtStatus_IN_SERVICE p) _).putAbove (Reg.prtStatus_PARITY p) _).putAbove (Reg.prtStatus_BC_LOST p) _
  have h2 : Placed t.base b2 := ((h1.putAbove (Reg.prtStatus_BC_SEL p) _).putAbove (Reg.prtStatus_RATE_MAX p) _).putAbove (Reg.prtStatus_N p) _
  have h3 : Placed t.base b3 := (h2.putAbove (Reg.prtStatus_PARITY_LANE p) _).putAbove (Reg.prtStatus_SPARES p) _
  have h4 : Placed t.base b4 := .ite _ ((h3.putAbove (Reg.prtMap0_L7_L0 p) _).putAbove (Reg.prtMap1_L11_L8 p) _) h3
  exact (h4.setOwn _ _).setOwn _ _

theorem portAsks (h : Steady s t) (p : Nat) : Steady s (t.portAsks p) := ((h.setPort p _).request _ _ _).refreshPort p

theorem portApply (h : Steady s t) (p : Nat) (slot0 : Bool) : Steady s (t.portApply p slot0) := by
  unfold State.portApply
  extract_lets x t0 m w t1 x1 spared s1
  refine .ite _ (h.setPort p _) ?_
  have h1 : Steady s s1 := h.setPort p _
  exact .ite _ (h1.onBase _ ((Placed.refl _).raise _ _)) h1

theorem portStop (h : Steady s t) (p : Nat) : Steady s (t.portStop p) := by
  unfold State.portStop
  extract_lets x was _ s1 s2 again
  refine .ite _ h ?_
  have h1 : Steady s s1 := ((h.sendRow p _).setPort p _).onBase _ ((Placed.refl _).of_regs rfl)
  have h2 : Steady s s2 := .ite _ (h1.onBase _ ((Placed.refl _).raise _ _)) h1
  exact refreshPort (.ite _ (h2.portAsks p) h2) p

theorem portEnters (h : Steady s t) (p : Nat) : Steady s (t.portEnters p) := by
  unfold State.portEnters
  exact .ite _ (((((h.release _ _).setPort p _).onBase _ ((Placed.refl _).raise _ _)).resetEnds _).refreshPort p) h

theorem portEnds (h : Steady s t) (p : Nat) : Steady s (t.portEnds p) := by
  unfold State.portEnds
  extract_lets x
  split
  · exact h.refreshPort p
  · exact ((h.release _ _).setPort p _).refreshPort p
  · exact ((h.release _ _).setPort p _).refreshPort p
  · exact (h.setPort p _).refreshPort p

theorem checkMin (h : Steady s t) (p n : Nat) : Steady s (t.checkMin p n) := by
  unfold State.checkMin
  have hlogged : Steady s (t.onBase (·.fault (pgPRT p) 4 (leBytes 1 n))) := h.onBase _ ((Placed.refl _).fault _ _ _)
  exact .ite _ h (hlogged.portEnds p)

theorem portsFit (h : Steady s t) : Steady s t.portsFit :=
  .foldl _ (fun x p _ => .ite _ ((refl x).checkMin p _) (refl x)) h

theorem panelResetEnd (h : Steady s t) : Steady s t.panelResetEnd := .ite _ (h.resetEnds _) h

theorem portsSubframe (h : Steady s t) (slot0 : Bool) : Steady s (t.portsSubframe slot0) := by
  unfold State.portsSubframe
  refine panelResetEnd (.foldl _ (fun x p _ => ?_) h)
  have hstop := ((refl x).portApply p slot0).portStop p
  exact refreshPort (.ite _ (hstop.portEnters p) hstop) p

theorem rxCount (h : Steady s t) (named : Nat → Bool) : Steady s (t.rxCount named) := by
  refine .foldl _ (fun x l _ => ?_) h
  split
  · exact (refl x).setLane l _
  · exact refl x

theorem sendLinkDark (h : Steady s t) (cause : Nat) : Steady s (t.sendLinkDark cause) :=
  .foldl _ (fun x p _ => .ite _ ((refl x).sendRow p _) (refl x)) h

/-! ## The Beacon (R380, R381, R385) -/

theorem setZone (h : Steady s t) (z : Nat) (x : Zone) : Steady s (t.setZone z x) := h.elsewhere

theorem setStr (h : Steady s t) (z i : Nat) (x : Str) : Steady s (t.setStr z i x) := h.elsewhere

theorem refreshZone (h : Steady s t) (z : Nat) : Steady s (t.refreshZone z) := by
  unfold State.refreshZone
  extract_lets
  exact h.onBase _ (((((Placed.refl _).setOwn _ _).put _ _).put _ _).putFlag _ _ |>.put _ _)

theorem zonesAdvance (h : Steady s t) : Steady s t.zonesAdvance := by
  unfold State.zonesAdvance
  split
  · exact .ite _ (((h.setZone _ _).request _ _ _).refreshZone _) h
  · split
    · exact h.elsewhere
    · exact h

theorem beaconFrame (h : Steady s t) : Steady s t.beaconFrame := zonesAdvance h.elsewhere

theorem beaconEnd (h : Steady s t) : Steady s t.beaconEnd := by
  unfold State.beaconEnd
  extract_lets i
  refine .foldl _ (fun x z _ => ?_) h
  exact setZone (setStr (.ite _ ((refl x).onBase _ ((Placed.refl _).putAbove (Reg.strState_NOVERDICT z i) _
    (Nat.le_add_right_of_le (Nat.le_add_right_of_le (by decide))))) (refl x)) _ _ _) _ _

theorem beaconSlot0 (h : Steady s t) : Steady s t.beaconSlot0 := by
  refine .foldl _ (fun x k _ => ?_) h
  dsimp only
  split
  · exact .ite _ (refl x) ((refl x).setStr _ _ _)
  · exact refl x

/-! ## Wall status (R427) -/

theorem wallStatus (h : Steady s t) : Steady s t.wallStatus := by
  unfold State.wallStatus
  extract_lets _ s1 b tag f
  have h1 : Steady s s1 := h.elsewhere
  exact .ite _ (onBase h1.elsewhere _ ((Placed.refl _).emit _)) h1

/-! ## The Spire (R171, R174, R177, R178, R184, R185) -/

theorem setRole (h : Steady s t) (c role : Nat) (on : Bool) : Steady s (t.setRole c role on) :=
  h.onBase (fun b => (b.put (Reg.spcRole_ROLE c) role).put ⟨Reg.spqMap (c / 17), c % 17, c % 17⟩ (if on then 1 else 0))
    (((Placed.refl _).putAbove (Reg.spcRole_ROLE c) _).putAbove ⟨Reg.spqMap (c / 17), c % 17, c % 17⟩ _)

theorem refreshBudget (h : Steady s t) : Steady s t.refreshBudget := h.onBase _ ((Placed.refl _).put _ _)

theorem cmpState (h : Steady s t) : Steady s t.cmpState := h.onBase _ ((Placed.refl _).busyIf _ _)

theorem spireStates (h : Steady s t) : Steady s t.spireStates := by
  unfold State.spireStates
  extract_lets r pages
  clear_value pages
  exact cmpState (h.onBase _ (.foldl _ (fun x p _ => (Placed.refl x).busyIf _ _) (.refl _)))

theorem handOut (h : Steady s t) (q : Nat) : Steady s (t.handOut q) := by
  have hmoved := spansMoved_handOut t q
  refine h.trans (.ofSpire hmoved.only ?_)
  rw [hmoved.base]
  exact .refl _

theorem beginRender (h : Steady s t) (k : Nat) : Steady s (t.beginRender k) := by
  unfold State.beginRender
  extract_lets own stuck on _ s1
  have h1 : Steady s s1 := h.elsewhere
  exact .foldl _ (fun x q _ => (refl x).handOut q) h1.spireStates

theorem abandonRender (h : Steady s t) : Steady s t.abandonRender := spireStates h.elsewhere

theorem judgeDemand (h : Steady s t) (d : Nat) : Steady s (t.judgeDemand d) := by
  unfold State.judgeDemand
  exact .ite _ h (onBase h.elsewhere _ ((Placed.refl _).raise _ _))

theorem reissue (h : Steady s t) (c : Nat) : Steady s (t.reissue c) := by
  cases hp : t.spanOf c with
  | none => rw [reissue_none hp]; exact h
  | some p =>
    rw [reissue_span hp]
    exact onBase h.elsewhere _ (((Placed.refl _).countAbove (Reg.spqReissue_COUNT (c / 17)) 1).countAbove (Reg.spcReissue_COUNT c) 1)

theorem repair (h : Steady s t) (q : Nat) : Steady s (t.repair q) := by
  unfold State.repair
  extract_lets failed
  split
  · exact ((((h.setRole _ _ _).setUnit _ _).setRole _ _ _).onBase _ ((Placed.refl _).putAbove (Reg.spqSpare_VALID q) _)).onBase _ ((Placed.refl _).raise _ _)
  · exact h

theorem clusterResetEnd (h : Steady s t) (c : Nat) : Steady s (t.clusterResetEnd c) := by
  unfold State.clusterResetEnd
  exact .ite _ h (.foldl _ (fun x k _ => (refl x).resetEnds _) (resetEnds h.elsewhere _))

theorem syncCluster (h : Steady s t) (c : Nat) : Steady s (t.syncCluster c) := by
  unfold State.syncCluster
  extract_lets own s0 _ s1
  have h0 : Steady s s0 := h.clusterResetEnd c
  have h1 : Steady s s1 := h0.elsewhere
  exact .ite _ h0 (.ite _ (.ite _ h0 (setUnit (setRole h0.elsewhere _ _ _) _ _))
    (.ite _ ((h1.setRole _ _ _).onBase _ ((Placed.refl _).setOwn _ _)) h0))

theorem spireSubframe (h : Steady s t) : Steady s t.spireSubframe :=
  refreshBudget (.foldl _ (fun x c _ => (refl x).syncCluster c) (.foldl _ (fun x q _ => (refl x).repair q) h))

/-! ## The Watch (R557 to R561) -/

theorem watchClear (h : Steady s t) : Steady s t.watchClear := by
  unfold State.watchClear
  split
  · exact h
  · exact onBase (release h.elsewhere _ _) _ ((Placed.refl _).busyIf _ _)

theorem watchLoop (h : Steady s t) (l : Nat) (on : Bool) : Steady s (t.watchLoop l on) := by
  unfold State.watchLoop
  extract_lets own loop _ s1
  have h1 : Steady s s1 := (h.setLane l _).onBase _ ((Placed.refl _).of_regs rfl)
  split
  · exact .ite _ (h1.sendRow _ _) h1
  · exact h1

theorem clusterTakes (h : Steady s t) (c : Nat) (active : Bool) : Steady s (t.clusterTakes c active) := by
  unfold State.clusterTakes
  extract_lets s1
  have h1 : Steady s s1 := ((h.reissue c).setRole c _ _).setUnit _ _
  refine .ite _ h1 ?_
  split
  · exact ((h1.setRole _ _ _).onBase _ ((Placed.refl _).putAbove (Reg.spqSpare_VALID (c / 17)) _)).handOut _
  · exact h1

theorem clusterReturns (h : Steady s t) (c : Nat) (active keepSpare : Bool) : Steady s (t.clusterReturns c active keepSpare) := by
  unfold State.clusterReturns
  extract_lets q s1 sp
  have h1 : Steady s s1 := (h.setRole c _ _).setUnit _ _
  exact .ite _ (((h1.reissue sp).setRole sp _ _).onBase _ ((Placed.refl _).putAbove (Reg.spqSpare_VALID q) _)) h1

theorem clusterRetires (h : Steady s t) (c : Nat) (active : Bool) : Steady s (t.clusterRetires c active) := by
  unfold State.clusterRetires
  extract_lets s1
  have h1 : Steady s s1 := (h.setRole c _ _).setUnit _ _
  exact .ite _ (h1.onBase _ ((Placed.refl _).raise _ _)) (h1.onBase _ ((Placed.refl _).putAbove (Reg.spqSpare_VALID (c / 17)) _))

theorem watchSubframe (h : Steady s t) : Steady s t.watchSubframe := by
  unfold State.watchSubframe
  split
  · exact h
  · rename_i test _
    extract_lets c active l
    refine .ite _ h (.ite _ ?lane (.ite _ h ?cluster))
    case lane => exact .ite _ (((h.setUnit _ _).watchLoop l _).refreshPort _).watchClear h
    case cluster =>
      split
      · exact watchClear (.ite _ (h.clusterReturns c _ _) (h.clusterRetires c _))
      · refine .ite _ (.ite _ h.watchClear (elsewhere (h.clusterTakes c active))) ?_
        split
        · exact ((((h.setRole _ _ _).setUnit _ _).clusterReturns c _ _).onBase _ ((Placed.refl _).raise _ _)).watchClear
        · exact h.elsewhere

/-! ## The pair (R473, R477, R481 to R483) -/

theorem putPar (h : Steady s t) (x : Pair) : Steady s (t.putPar x) := h.elsewhere

theorem setRoleTo (h : Steady s t) (r : Nat) : Steady s (t.setRoleTo r) := h.onBase _ ((Placed.refl _).put _ _)

theorem sendMsg (h : Steady s t) (type : Nat) (body : List Byte) : Steady s (t.sendMsg type body) := by
  unfold State.sendMsg
  exact .ite _ h ((h.putPar _).onBase _ ((Placed.refl _).of_regs rfl))

theorem maybeYield (h : Steady s t) : Steady s t.maybeYield := by
  unfold State.maybeYield
  exact .ite _ ((h.sendMsg _ _).putPar _) h

theorem compareOne (h : Steady s t) (j own peer : Nat) : Steady s (t.compareOne j own peer) := by
  have hstate {u : State} (hu : Steady s u) (st n : Nat) : Steady s (u.onBase (fun b => (b.put Reg.parStatus_STATE st).raise pgPAR n)) :=
    hu.onBase _ (((Placed.refl _).put _ _).raise _ _)
  unfold State.compareOne
  extract_lets s1 good _ sGood bad recent sBad _ s3 s4
  have h1 : Steady s s1 := h.onBase _ ((((Placed.refl _).count _ _).put _ _).put _ _)
  refine .ite _ ?agree ?differ
  case agree =>
    have hGood : Steady s sGood := h1.putPar _
    exact .ite _ hGood (.ite _ (hstate hGood _ _) (.ite _ (hstate hGood _ _) hGood))
  case differ =>
    have hBad : Steady s sBad := (h1.putPar _).onBase _ ((Placed.refl _).count _ _)
    have h3 : Steady s s3 := .ite _ (hBad.putPar _) ((hBad.putPar _).onBase _ ((Placed.refl _).fault _ _ _))
    have h4 : Steady s s4 := .ite _ (h3.onBase _ ((Placed.refl _).raise _ _)) h3
    exact .ite _ (h4.onBase _ ((Placed.refl _).put _ _)) h4

theorem compareJ (h : Steady s t) (j : Nat) : Steady s (t.compareJ j) := by
  unfold State.compareJ
  split
  · exact .ite _ (h.putPar _) ((h.putPar _).compareOne _ _ _)
  · exact h

theorem ownSignature (h : Steady s t) (j rsig : Nat) (aborted : Bool) : Steady s (t.ownSignature j rsig aborted) := by
  unfold State.ownSignature
  exact .ite _ h (((h.putPar _).sendMsg _ _).compareJ j)

theorem pairSwap (h : Steady s t) : Steady s t.pairSwap := by
  unfold State.pairSwap
  split
  · exact h
  · exact .ite _ (.ite _ ((h.putPar _).setRoleTo _) h) (.ite _ ((h.putPar _).onBase _ ((Placed.refl _).raise _ _)) h)

theorem capture (h : Steady s t) {m : Nat} (hm : m < 2) (rising : Bool) : Steady s (t.capture m rising) := by
  have hctrl : Reg.capCtrl m ∉ timelineRegs :=
    not_timeline_between (show 0xA074 < 0xA140 + 8 * m by omega) (show 0xA140 + 8 * m < 0x43040 by omega)
  have htime : Reg.capTime m ∉ timelineRegs :=
    not_timeline_between (show 0xA074 < 0xA144 + 8 * m by omega) (show 0xA144 + 8 * m < 0x43040 by omega)
  unfold State.capture
  refine .ite _ (h.onBase _ ?_) h
  exact ((Placed.ite _ ((Placed.refl _).putFlag (Reg.capCtrl_OVERRUN m) true hctrl) (.refl _)).put (Reg.capTime_NS m) _ htime).raise _ _

theorem driveBall (h : Steady s t) (n : Nat) (v : Bool) : Steady s (t.driveBall n v) := by
  unfold State.driveBall
  extract_lets s1
  have h1 : Steady s s1 := (h.onBase _ ((Placed.refl _).putFlag ⟨Reg.gpioIn, n, n⟩ v (show Reg.gpioIn ∉ timelineRegs by decide))).onBase _ ((Placed.refl _).emit _)
  exact .ite _ h1 (.foldl _ (fun x m hm => .ite _ ((refl x).capture (List.mem_range.mp hm) v) (refl x)) h1)

theorem pairSubframe (h : Steady s t) (slot0 : Bool) : Steady s (t.pairSubframe slot0) := by
  unfold State.pairSubframe
  refine .ite _ h ?_
  extract_lets s1 wait fresh _ s2 g s3
  have h2 : Steady s s2 := (h.pairSwap.putPar _).onBase _ (.ite _ (.refl _) ((Placed.refl _).putFlag _ _))
  have h3 : Steady s s3 := .ite _ (driveBall h2.elsewhere _ _) h2
  exact (h3.sendMsg _ _).maybeYield

/-! ## Scan-out (R213, R338) -/

theorem chooseBand (h : Steady s t) : Steady s t.chooseBand := by
  unfold State.chooseBand
  split
  · exact h
  · exact .ite _ h (h.onBase _ (((Placed.refl _).put _ _).raise _ _))

theorem scoRegs (h : Steady s t) : Steady s t.scoRegs := by
  unfold State.scoRegs
  extract_lets c low
  refine h.onBase _ ?_
  extract_lets b1 b2
  have h1 : Placed t.base b1 := (((Placed.refl _).put _ _).putFlag _ _).putFlag _ _
  have h2 : Placed t.base b2 := ((h1.putFlag _ _).put _ _).put _ _
  exact ((h2.put _ _).put _ _).setOwn _ _

theorem darkRows (h : Steady s t) : Steady s t.darkRows := by
  unfold State.darkRows
  split
  · exact h.sendLinkDark _
  · refine .foldl _ (fun x p _ => .ite _ (refl x) ?_) h
    dsimp only
    generalize (if (x.port p).phase == .training then some 2 else _ : Option Nat) = cause
    cases cause with
    | none => exact refl x
    | some c => exact (refl x).sendLineRow p _

end Steady

end Sys2Proof.Proofs

/-! O23, the start of a subframe (R190, R194, R195, R223): what comes before it, what it opens, and what follows in the units. -/

namespace Sys2Proof.Proofs

open Sys2Proof Sys2Proof.Machine Sys2Proof.Laws

-- Many short proofs in a row: elaborated one after the other, they do not each hold a thread and its stack.
set_option Elab.async false

/-! ## The freshness ticks that are due (R223) -/

namespace Ticked

variable {s t : State}

theorem onBase (h : Ticked s t) (f : Base → Base) (hf : Placed t.base (f t.base)) : Ticked s (t.onBase f) :=
  ⟨⟨h.sco, h.regs.trans hf⟩, h.retire⟩

theorem guard (h : Ticked s t) (g : Guard) : Ticked s { t with guard := g } := ⟨⟨h.sco, h.regs⟩, h.retire⟩

theorem guardRegs (h : Ticked s t) : Ticked s t.guardRegs := h.trans (Steady.refl t).guardRegs.toTicked

theorem freshTick (h : Ticked s t) : Ticked s t.freshTick := ⟨⟨h.sco, h.regs.put _ _⟩, h.retire⟩

theorem ite (p : Prop) [Decidable p] {u : State} (ht : Ticked s t) (hu : Ticked s u) : Ticked s (if p then t else u) := by
  split
  · exact ht
  · exact hu

theorem freshnessTickRow (h : Ticked s t) : Ticked s t.freshnessTickRow := by
  unfold State.freshnessTickRow
  extract_lets _ s1 run
  have h1 : Ticked s s1 := h.guard _
  have hback := (h1.guard { s1.guard with goodRun := 0, lastAt := t.base.ticks }).onBase (·.putFlag Reg.frsStatus_TICK_LOCAL false)
    ((Placed.refl _).putFlag _ _)
  exact .ite _ h (.ite _ (h1.guard _).freshTick (.ite _ (h1.guard _) hback.freshTick.guardRegs))

theorem tickLostRow (h : Ticked s t) : Ticked s t.tickLostRow := by
  unfold State.tickLostRow
  extract_lets _ s1
  have h1 : Ticked s s1 := h.guard _
  have hlost := h1.onBase (fun b => (((b.putFlag Reg.frsStatus_TICK_LOCAL true).count Reg.frsTickLost_COUNT 1).raise pgFRS 19).fault pgFRS 4 [])
    (((((Placed.refl _).putFlag _ _).count _ _).raise _ _).fault _ _ _)
  exact .ite _ h hlost.freshTick.guardRegs

theorem localTickRow (h : Ticked s t) : Ticked s t.localTickRow := by
  unfold State.localTickRow
  exact .ite _ h ((h.guard _).onBase _ ((Placed.refl _).count _ _)).freshTick

theorem times {f : State → State} (hf : ∀ {x}, Ticked s x → Ticked s (f x)) (n : Nat) (h : Ticked s t) : Ticked s (State.times f n t) := by
  induction n generalizing t with
  | zero => exact h
  | succ n ih => exact ih (hf h)

theorem dueTicks (s : State) : Ticked s s.dueTicks :=
  times localTickRow _ (tickLostRow (times freshnessTickRow _ (Steady.refl s).toTicked))

end Ticked

/-! ## The subframe before has ended -/

theorem get_placed {b c : Base} (h : Placed b c) (f : FieldRef) (hf : f.key ∈ timelineRegs := by decide) : c.get f = b.get f := by
  rw [Base.get, Base.get, h.word f.key hf]

theorem flag_placed {b c : Base} (h : Placed b c) (f : FieldRef) (hf : f.key ∈ timelineRegs := by decide) : c.flag f = b.flag f := by
  rw [Base.flag, Base.flag, get_placed h f hf]

theorem OnTimeline.j {s t : State} (h : OnTimeline s t) : t.j = s.j := get_placed h.regs Reg.scoSubframe_J

theorem OnTimeline.nextStart {s t : State} (h : OnTimeline s t) : t.nextStart = s.nextStart := by
  have hlo := h.regs.word Reg.sxtEpochLo (by decide)
  have hhi := h.regs.word Reg.sxtEpochHi (by decide)
  have hrate := get_placed h.regs Reg.scoCtrl_RATE
  unfold State.nextStart State.wallAt State.wall7After State.epoch State.wallRate Base.addr64
  rw [h.sco, hlo, hhi, hrate]

/-- No cut is due. -/
theorem cutRow_idle {s : State} (h : s.sco.cutDue = false) : s.cutRow = s := by
  rw [State.cutRow, h]
  rfl

/-- No SET is pending. -/
theorem setAppliedRow_idle {s : State} (h : s.base.flag Reg.sxtCtrl_SET = false) : s.setAppliedRow = s := by
  rw [State.setAppliedRow, h]
  rfl

/-- What comes before the next subframe: the ticks, the cut and the SET that are due, and the end of the last subframe for the Beacon. -/
def subframeOver (s : State) : State := ((s.dueTicks.cutRow).setAppliedRow).beaconEnd

section
variable {s : State} (hcut : s.sco.cutDue = false) (hset : s.base.flag Reg.sxtCtrl_SET = false)
include hcut hset

theorem steady_subframeOver : Steady s.dueTicks (subframeOver s) := by
  have hticked := Ticked.dueTicks s
  rw [subframeOver, cutRow_idle (hticked.sco ▸ hcut), setAppliedRow_idle ((flag_placed hticked.regs Reg.sxtCtrl_SET).trans hset)]
  exact (Steady.refl _).beaconEnd

theorem ticked_subframeOver : Ticked s (subframeOver s) := (Ticked.dueTicks s).trans (steady_subframeOver hcut hset).toTicked

end

/-! ## Granules at a subframe start (R281, R293, R304) -/

theorem freeMany_retire (gs : List Nat) (d : Dome) : (d.freeMany gs).retire = d.retire := by
  induction gs generalizing d with
  | nil => rfl
  | cons g gs ih =>
    rw [Dome.freeMany, ih, Dome.freeGran]
    split <;> rfl

namespace Steady

variable {s t : State}

theorem trafficRow (h : Steady s t) : Steady s t.trafficRow := by
  unfold State.trafficRow
  extract_lets bytes spire render
  refine onBase h.elsewhere _ (.foldl _ (fun b k hk => ?_) (.refl _))
  have hk := List.mem_range.mp hk
  have hrender : Reg.stkRender k ∉ timelineRegs :=
    not_timeline_between (show 0xA074 < 0x2104C + 4096 * k by omega) (show 0x2104C + 4096 * k < 0x43040 by omega)
  have hread : Reg.stkRead k ∉ timelineRegs :=
    not_timeline_between (show 0xA074 < 0x21048 + 4096 * k by omega) (show 0x21048 + 4096 * k < 0x43040 by omega)
  exact ((Placed.refl _).put (Reg.stkRender_MIB k) _ hrender).put (Reg.stkRead_MIB k) _ hread

theorem reclaim (h : Steady s t) : Steady s t.reclaim := h.elsewhere (hretire := freeMany_retire _ _)

end Steady

/-- Where no retirement is complete, the switch of frames keeps the scenes. -/
theorem scenes_switchFrames {s : State} (h : s.dome.retire.any (·.copied) = false) : s.switchFrames.scenes = s.scenes := by
  have hnone : s.dome.retire.filter (·.copied) = [] := List.filter_eq_nil_iff.mpr (List.any_eq_false.mp h)
  unfold State.switchFrames
  rw [hnone]
  rfl

theorem OnTimeline.onBase {s t : State} (h : OnTimeline s t) (f : Base → Base) (hf : Placed t.base (f t.base)) : OnTimeline s (t.onBase f) :=
  ⟨h.sco, h.regs.trans hf⟩

theorem onTimeline_moveGran (s : State) (m : Nat × Nat) : (s.moveGran m).sco = s.sco ∧ (s.moveGran m).base = s.base := by
  unfold State.moveGran
  extract_lets e
  split <;> exact ⟨rfl, rfl⟩

theorem onTimeline_switchOne {s t : State} (h : OnTimeline s t) (r : Retirement) : OnTimeline s (t.switchOne r) := by
  have hmoves (x : State) (hx : OnTimeline s x) (m : Nat × Nat) : OnTimeline s (x.moveGran m) := by
    obtain ⟨hsco, hbase⟩ := onTimeline_moveGran x m
    exact ⟨hsco.trans hx.sco, by rw [hbase]; exact hx.regs⟩
  unfold State.switchOne
  extract_lets _ moved _ s1 new
  have hmoved : OnTimeline s moved := List.foldlRecOn _ _ h fun x hx m _ => hmoves x hx m
  have h1 : OnTimeline s s1 := by
    simp only [s1]
    split
    · exact ⟨h.sco, h.regs⟩
    · exact ⟨hmoved.sco, hmoved.regs⟩
  clear_value s1
  have hretired (gs : List Nat) : OnTimeline s { s1 with dome := { s1.dome with retired := gs } } := ⟨h1.sco, h1.regs⟩
  exact (hretired _).onBase _ (((Placed.refl _).fault _ _ _).raise _ _)

theorem onTimeline_switchFrames (s : State) : OnTimeline s s.switchFrames :=
  List.foldlRecOn (motive := OnTimeline s) _ _ ⟨rfl, .refl _⟩ fun _ hx r _ => onTimeline_switchOne hx r

/-! ## What stands from the opening of a subframe on (R190, R194, R195) -/

/-- The two run the same subframe: its number on the same timeline, and its start. -/
structure SameStart (c d : Sco) : Prop where
  running : d.running = c.running
  startAt : d.startAt = c.startAt
  idx : d.idx = c.idx
  mode : d.mode = c.mode

theorem SameStart.refl (c : Sco) : SameStart c c := ⟨rfl, rfl, rfl, rfl⟩

theorem SameStart.trans {c d e : Sco} (h1 : SameStart c d) (h2 : SameStart d e) : SameStart c e :=
  ⟨h2.running.trans h1.running, h2.startAt.trans h1.startAt, h2.idx.trans h1.idx, h2.mode.trans h1.mode⟩

theorem SameStart.of_eq {c d : Sco} (h : d = c) : SameStart c d := h ▸ .refl c

/-- From s to t the device runs the same subframe, with the same J and the same scenes. -/
structure SameSubframe (s t : State) : Prop where
  start : SameStart s.sco t.sco
  regs : Placed s.base t.base
  scenes : t.scenes = s.scenes

theorem Steady.same {s t : State} (h : Steady s t) : SameSubframe s t := ⟨.of_eq h.sco, h.regs, h.scenes⟩

theorem SameSubframe.trans {s t u : State} (h1 : SameSubframe s t) (h2 : SameSubframe t u) : SameSubframe s u :=
  ⟨h1.start.trans h2.start, h1.regs.trans h2.regs, h2.scenes.trans h1.scenes⟩

theorem SameSubframe.setSco {s : State} {c : Sco} (h : SameStart s.sco c) : SameSubframe s { s with sco := c } := ⟨h, .refl _, rfl⟩

theorem underrun_same (s : State) (j : Nat) : SameSubframe s (s.underrun j) := by
  unfold State.underrun
  extract_lets s1 lost
  have h1 : SameSubframe s s1 := ((Steady.refl s).onBase _ ((((Placed.refl _).count _ _).raise _ _).fault _ _ _)).same
  have h2 : SameSubframe s1 { s1 with sco := { s1.sco with aborted := true }, spr := { s1.spr with lost := lost } } :=
    ⟨⟨rfl, rfl, rfl, rfl⟩, .refl _, rfl⟩
  exact (h1.trans h2).trans ((Steady.refl _).judgeDemand _).abandonRender.same

section
variable (s : State) (set wasDark wasStandby wasSlot7 : Bool)

theorem fixSubframe_same : SameSubframe s (s.fixSubframe set wasDark wasStandby wasSlot7) := by
  unfold State.fixSubframe
  extract_lets dark standby _ s1
  have h1 : SameSubframe s s1 := .setSco ⟨rfl, rfl, rfl, rfl⟩
  exact h1.trans (Steady.ite _ (((Steady.refl s1).onBase _ ((Placed.refl _).count _ _)).ownSignature _ _ _) (.refl _)).same

theorem fixSubframe_sco : (s.fixSubframe set wasDark wasStandby wasSlot7).sco.line = 0 ∧
    (s.fixSubframe set wasDark wasStandby wasSlot7).sco.dark = s.darkCause set := by
  unfold State.fixSubframe
  extract_lets dark standby _ s1
  have h1 : Steady s1 (if dark = some 0 then (s1.onBase (·.count Reg.scoUnderrun_COUNT 1)).ownSignature s.j 0 true else s1) :=
    .ite _ (((Steady.refl s1).onBase _ ((Placed.refl _).count _ _)).ownSignature _ _ _) (.refl _)
  rw [h1.sco]
  exact ⟨rfl, rfl⟩

end

/-- Where the wall number is set anew the subframe is dark with cause 1 (R195). -/
theorem darkCause_set (s : State) : s.darkCause true = some 1 := rfl

/-! ## Slot 0 (R84, R219, R224, R339) -/

theorem Steady.guardSlot0 {s t : State} (h : Steady s t) : Steady s t.guardSlot0 := by
  unfold State.guardSlot0
  split
  · exact h
  · exact guardRegs h.elsewhere

theorem Steady.guardResetEnd {s t : State} (h : Steady s t) : Steady s t.guardResetEnd := by
  unfold State.guardResetEnd
  split
  · exact h
  · extract_lets _ s1
    have h1 : Steady s s1 := resetEnds h.elsewhere _
    exact .ite _ (guardRegs (onBase h1.elsewhere _ (((Placed.refl _).putFlag _ _).setOwn _ _))) h1

theorem cfgSlot0_sco (s : State) : s.cfgSlot0.sco = s.sco := by
  refine List.foldlRecOn (motive := fun x : State => x.sco = s.sco) _ _ rfl fun x hx e _ => ?_
  split <;> exact hx

theorem slot0_sameStart (s : State) (hadCut : Bool) : SameStart s.sco (s.slot0 hadCut).sco := by
  unfold State.slot0
  extract_lets _ s1 s2 _ s3 _ s4
  have h1 : SameStart s.sco s1.sco := ⟨rfl, rfl, rfl, rfl⟩
  have h2 : s2.sco = s1.sco := (cfgSlot0_sco _).trans ((Steady.refl s1).portsSubframe true).beaconSlot0.sco
  have h3 : s3.sco = s2.sco := (Steady.guardSlot0 ((Steady.refl s2).elsewhere)).guardResetEnd.sco
  have h4 : s4.sco = s3.sco := by
    simp only [s4]
    split <;> rfl
  have h : SameStart s.sco s4.sco := h1.trans (.of_eq (h4.trans (h3.trans h2)))
  split
  · exact h.trans ⟨rfl, rfl, rfl, rfl⟩
  · exact h

/-! ## The parts of a subframe start -/

/-- The timeline, J and the scenes of the subframe that starts after s. -/
def subframeOpened (s : State) : State :=
  let a := if decide (s.newTimeline.2 % 8 = 0) then s.frameOver else s
  ({ a with sco := s.newTimeline.1, scenes := { a.scenes with retiring := [] } } : State).onBase (fun b =>
    let b1 := (b.setWord Reg.scoSubframe (BitVec.ofNat 32 s.newTimeline.2)).setWord Reg.frsVeiled (BitVec.ofNat 32 s.sco.stale)
    if s.newTimeline.1.rate != s.sco.rate then b1.raise pgSCO 18 else b1)

/-- The granules then free, and the frames that are switched. -/
def subframeMemory (s : State) : State :=
  ((if s.sco.running then (subframeOpened s).trafficRow else subframeOpened s).reclaim).switchFrames

/-- The subframe that starts after s, with its slot's values a in force, is judged and fixed. -/
def subframeFixed (s a : State) : State :=
  let a4 := (a.guardJudge (s.newTimeline.1.startAt.toNat)).blfSummary
  let tested := !(s.wallSet || a4.sco.mode == .gap || a4.sco.fresh || a4.sco.aborted)
  let a5 := if tested && !a4.rendered s.newTimeline.2 then a4.underrun s.newTimeline.2 else a4
  ((a5.chooseBand).pairSubframe (decide (s.newTimeline.2 % 8 = 0))).fixSubframe s.wallSet (s.sco.dark.isSome || s.pnl.linkDark.isSome) s.sco.standby
    (s.newTimeline.2 % 8 == 7)

/-- What the units do once subframe j is fixed. -/
def subframeServed (j : Nat) (a : State) : State :=
  let a8 := ((a.scoRegs).darkRows).rxCount (fun k => (a.base.get Reg.parStatus_TX_LANES).testBit k)
  let a9 := (a8.watchSubframe).spireSubframe
  let b1 := if decide (j % 8 = 0) then (a9.beaconFrame).wallStatus else a9
  if j % 8 = 7 || b1.sco.aborted || b1.sco.fresh then b1 else b1.beginRender ((j + 1) % 2 ^ 32)

theorem subframeRow_eq {s : State} (harmed : s.sco.armed = true) (hdue : s.nextStart ≤ (s.base.E : Int)) :
    s.subframeRow = subframeServed (subframeOver s).newTimeline.2 (subframeFixed (subframeOver s)
      (if decide ((subframeOver s).newTimeline.2 % 8 = 0) then
        (subframeMemory (subframeOver s)).slot0 ((subframeOver s).sco.running && (subframeOver s).j % 8 == 7)
      else (subframeMemory (subframeOver s)).portsSubframe false)) := by
  have hidle : (!s.sco.armed || decide ((s.base.E : Int) < s.nextStart)) = false := by simp [harmed, hdue]
  rw [State.subframeRow, if_neg (by rw [hidle]; decide)]
  rfl

theorem subframeServed_steady (j : Nat) (a : State) : Steady a (subframeServed j a) := by
  unfold subframeServed
  extract_lets a8 a9 b1
  have h8 : Steady a a8 := (Steady.refl a).scoRegs.darkRows.rxCount _
  have h9 : Steady a8 a9 := (Steady.refl a8).watchSubframe.spireSubframe
  have hb : Steady a9 b1 := .ite _ (Steady.refl a9).beaconFrame.wallStatus (Steady.refl a9)
  exact (h8.trans h9).trans (.ite _ hb (hb.beginRender _))

/-- FRS_SUMMARY is the Belfry's to count (R398). -/
theorem Steady.blfSummary {s t : State} (h : Steady s t) : Steady s t.blfSummary := h.elsewhere

section
variable (s a : State)

theorem subframeFixed_same : SameSubframe a (subframeFixed s a) := by
  unfold subframeFixed
  extract_lets a4 tested a5
  have h4 : SameSubframe a a4 := ((Steady.refl a).guardJudge _).blfSummary.same
  have h5 : SameSubframe a4 a5 := by
    simp only [a5]
    split
    · exact underrun_same _ _
    · exact (Steady.refl a4).same
  have h6 : SameSubframe a5 ((a5.chooseBand).pairSubframe (decide (s.newTimeline.2 % 8 = 0))) := ((Steady.refl a5).chooseBand.pairSubframe _).same
  exact ((h4.trans h5).trans h6).trans (fixSubframe_same _ _ _ _ _)

theorem subframeFixed_line : (subframeFixed s a).sco.line = 0 := (fixSubframe_sco _ _ _ _ _).1

theorem subframeFixed_dark (h : s.wallSet = true) : (subframeFixed s a).sco.dark = some 1 := by
  refine (fixSubframe_sco _ _ _ _ _).2.trans ?_
  rw [h]
  exact darkCause_set _

end

/-! ## The subframe that opens -/

theorem steady_reclaimed (s : State) :
    Steady (subframeOpened s) ((if s.sco.running then (subframeOpened s).trafficRow else subframeOpened s).reclaim) :=
  (Steady.ite _ (Steady.refl _).trafficRow (.refl _)).reclaim

theorem subframeMemory_onTimeline (s : State) : OnTimeline (subframeOpened s) (subframeMemory s) :=
  (steady_reclaimed s).toOnTimeline.trans (onTimeline_switchFrames _)

theorem subframeMemory_scenes {s : State} (h : (subframeOpened s).dome.retire.any (·.copied) = false) :
    (subframeMemory s).scenes = (subframeOpened s).scenes :=
  (scenes_switchFrames (by rw [(steady_reclaimed s).retire]; exact h)).trans (steady_reclaimed s).scenes

theorem subframeOpened_j (s : State) : (subframeOpened s).j = s.newTimeline.2 % 2 ^ 32 := by
  have hopened (b : Base) (v : BitVec 32) (on : Bool) :
      (if on then ((b.setWord Reg.scoSubframe v).setWord Reg.frsVeiled (BitVec.ofNat 32 s.sco.stale)).raise pgSCO 18
        else (b.setWord Reg.scoSubframe v).setWord Reg.frsVeiled (BitVec.ofNat 32 s.sco.stale)).word Reg.scoSubframe = v := by
    have hset : Placed (b.setWord Reg.scoSubframe v) ((b.setWord Reg.scoSubframe v).setWord Reg.frsVeiled (BitVec.ofNat 32 s.sco.stale)) :=
      (Placed.refl _).setWord _ _
    exact ((Placed.ite _ (hset.raise _ _) hset).word _ (by decide)).trans (word_setWord_same _ _ _)
  have hword : (subframeOpened s).base.word Reg.scoSubframe = BitVec.ofNat 32 s.newTimeline.2 := hopened _ _ _
  have hget : getBits (BitVec.ofNat 32 s.newTimeline.2) 31 0 = s.newTimeline.2 % 2 ^ 32 := by
    simp [getBits, bits_eq]
  exact (congrArg (fun w => getBits w 31 0) hword).trans hget

theorem subframeOpened_within {s : State} (h : s.newTimeline.2 % 8 ≠ 0) :
    (subframeOpened s).scenes = { s.scenes with retiring := [] } ∧ (subframeOpened s).dome = s.dome := by
  have hslot : decide (s.newTimeline.2 % 8 = 0) = false := decide_eq_false h
  unfold subframeOpened
  rw [hslot]
  exact ⟨rfl, rfl⟩

/-! ## SUBFRAME_START -/

theorem newTimeline_next {s : State} (hrunning : s.sco.running = true) (hmode : s.sco.mode = .wall) (hleave : s.sco.leave = false)
    (hslot : (s.j + 1) % 2 ^ 32 % 8 ≠ 0) :
    s.newTimeline = ({ s.sco with startAt := s.nextStart, running := true, idx := s.sco.idx + 1 }, (s.j + 1) % 2 ^ 32) := by
  have hinner : (s.j + 1) % 8 ≠ 0 := by omega
  have hreturn : s.returnsNow = false := by rw [State.returnsNow, hmode]; rfl
  simp [State.newTimeline, hrunning, hreturn, hleave, hinner]

theorem newTimeline_first {s : State} (hrunning : s.sco.running = false) :
    s.newTimeline.1 = { s.sco with startAt := s.nextStart, running := true, idx := s.sco.idx + 1 } := by
  simp [State.newTimeline, hrunning]

section
variable {s : State} (harmed : s.sco.armed = true) (hdue : s.nextStart ≤ (s.base.E : Int))
include harmed hdue

theorem subframeRow_sco : SameStart (subframeOver s).newTimeline.1 s.subframeRow.sco ∧ s.subframeRow.sco.line = 0 ∧
    ((subframeOver s).wallSet = true → s.subframeRow.sco.dark = some 1) := by
  have hopened : SameStart (subframeOver s).newTimeline.1 (subframeMemory (subframeOver s)).sco := .of_eq (subframeMemory_onTimeline _).sco
  rw [subframeRow_eq harmed hdue, (subframeServed_steady _ _).sco]
  refine ⟨hopened.trans (.trans ?_ (subframeFixed_same _ _).start), subframeFixed_line _ _, subframeFixed_dark _ _⟩
  split
  · exact slot0_sameStart _ _
  · exact .of_eq ((Steady.refl _).portsSubframe _).sco

/-- Within a frame nothing waits for slot 0. -/
theorem subframeRow_within (hslot : (subframeOver s).newTimeline.2 % 8 ≠ 0) : SameSubframe (subframeMemory (subframeOver s)) s.subframeRow := by
  rw [subframeRow_eq harmed hdue, decide_eq_false hslot]
  exact (((Steady.refl _).portsSubframe false).same.trans (subframeFixed_same _ _)).trans (subframeServed_steady _ _).same

end

/-- Within a frame of the wall timeline SUBFRAME_START brings the next subframe into force (R190, R194, R223). -/
theorem subframeRow_advances {s : State} (harmed : s.sco.armed = true) (hdue : s.nextStart ≤ (s.base.E : Int)) (hrunning : s.sco.running = true)
    (hmode : s.sco.mode = .wall) (hleave : s.sco.leave = false) (hcut : s.sco.cutDue = false) (hset : s.base.flag Reg.sxtCtrl_SET = false)
    (hslot : (s.j + 1) % 2 ^ 32 % 8 ≠ 0) :
    s.subframeRow.j = (s.j + 1) % 2 ^ 32 ∧ s.subframeRow.sco.idx = s.sco.idx + 1 ∧ s.subframeRow.sco.startAt = s.nextStart ∧
      s.subframeRow.sco.mode = .wall ∧ s.subframeRow.sco.running = true ∧ s.subframeRow.sco.line = 0 ∧
      (s.dome.retire.any (·.copied) = false → s.subframeRow.scenes = { s.dueTicks.scenes with retiring := [] }) := by
  have hover := ticked_subframeOver hcut hset
  have hj := hover.toOnTimeline.j
  have htimeline : (subframeOver s).newTimeline =
      ({ s.sco with startAt := s.nextStart, running := true, idx := s.sco.idx + 1 }, (s.j + 1) % 2 ^ 32) := by
    rw [newTimeline_next (hover.sco ▸ hrunning) (hover.sco ▸ hmode) (hover.sco ▸ hleave) (by rw [hj]; exact hslot), hover.sco, hj,
      hover.toOnTimeline.nextStart]
  have hinner : (subframeOver s).newTimeline.2 % 8 ≠ 0 := by rw [htimeline]; exact hslot
  obtain ⟨hscenes, hdome⟩ := subframeOpened_within hinner
  have hwithin := subframeRow_within harmed hdue hinner
  obtain ⟨hstart, hline, -⟩ := subframeRow_sco harmed hdue
  rw [htimeline] at hstart
  have hmemory := subframeMemory_onTimeline (subframeOver s)
  refine ⟨?_, hstart.idx, hstart.startAt, hstart.mode.trans hmode, hstart.running, hline, fun hretire => ?_⟩
  · calc s.subframeRow.j = (subframeMemory (subframeOver s)).j := get_placed hwithin.regs Reg.scoSubframe_J
      _ = (subframeOpened (subframeOver s)).j := hmemory.j
      _ = (s.j + 1) % 2 ^ 32 := by rw [subframeOpened_j, htimeline, Nat.mod_mod]
  · have hidle : (subframeOpened (subframeOver s)).dome.retire.any (·.copied) = false := by rw [hdome, hover.retire]; exact hretire
    rw [hwithin.scenes, subframeMemory_scenes hidle, hscenes, (steady_subframeOver hcut hset).scenes]

/-- The first subframe after the cold release is dark with cause 1 (R195, log 15). -/
theorem subframeRow_first {s : State} (harmed : s.sco.armed = true) (hdue : s.nextStart ≤ (s.base.E : Int)) (hrunning : s.sco.running = false)
    (hcut : s.sco.cutDue = false) (hset : s.base.flag Reg.sxtCtrl_SET = false) :
    s.subframeRow.sco.running = true ∧ s.subframeRow.sco.startAt = s.nextStart ∧ s.subframeRow.sco.dark = some 1 ∧ s.subframeRow.sco.line = 0 := by
  have hover := ticked_subframeOver hcut hset
  have hstopped : (subframeOver s).sco.running = false := hover.sco ▸ hrunning
  obtain ⟨hstart, hline, hdark⟩ := subframeRow_sco harmed hdue
  rw [newTimeline_first hstopped] at hstart
  have hwallSet : (subframeOver s).wallSet = true := by rw [State.wallSet, hstopped]; rfl
  exact ⟨hstart.running, hstart.startAt.trans hover.toOnTimeline.nextStart, hdark hwallSet, hline⟩

end Sys2Proof.Proofs

/-! O23, the commit cut (R51, R203, R204): the configuration transaction, the sealed transactions that precede it, and what the units fix at it. -/

namespace Sys2Proof.Proofs

open Sys2Proof Sys2Proof.Machine Sys2Proof.Laws

-- Many short proofs in a row: elaborated one after the other, they do not each hold a thread and its stack.
set_option Elab.async false

/-! ## The configuration transaction (R51, R52) -/

theorem cfgOnly_cfgApply (s : State) : CfgOnly s s.cfgApply := by
  refine List.foldlRecOn (motive := CfgOnly s) _ _ rfl fun x hx e _ => ?_
  split
  · exact hx
  · split
    · exact hx.trans rfl
    · exact hx.trans rfl

theorem cfgCut_spec (s : State) (cut : Nat) : CfgOnly s (s.cfgCut cut) ∧ (s.cfgDue cut = true → (s.cfgCut cut).cfg.staged = []) := by
  unfold State.cfgCut
  extract_lets late
  split
  case isTrue hidle => exact ⟨rfl, fun hdue => by rw [hdue] at hidle; cases hidle⟩
  case isFalse =>
    split
    · obtain ⟨-, -, hstaged, -, honly⟩ :=
        cfgEnd_spec ((s.cfgApply).onBase (·.setWord Reg.cfgLate (BitVec.ofNat 32 late))) (status := stLATE) (by decide)
      exact ⟨((cfgOnly_cfgApply s).trans (cfgOnly_onBase _ _)).trans honly, fun _ => hstaged⟩
    · obtain ⟨-, -, hstaged, -, honly⟩ := cfgEnd_spec s.cfgApply (status := stOK) (by decide)
      exact ⟨(cfgOnly_cfgApply s).trans honly, fun _ => hstaged⟩

/-! ## The sealed transactions (R203, R205) -/

/-- From s to t the scene in force is `live`; open and sealed transactions and the configuration transaction stand. -/
structure SceneNow (s : State) (live : Scene) (t : State) : Prop where
  live : t.scenes.live = live
  sealed : t.scenes.sealed = s.scenes.sealed
  txns : t.scenes.txns = s.scenes.txns
  cfg : t.cfg = s.cfg

namespace SceneNow

variable {s t : State} {live : Scene}

theorem refl (s : State) : SceneNow s s.scenes.live s := ⟨rfl, rfl, rfl, rfl⟩

theorem ringOnly {u : State} (h : SceneNow s live t) (hr : RingOnly t u) : SceneNow s live u := by
  have hcfg : u.cfg = t.cfg := by rw [hr]
  exact ⟨hr.scenes ▸ h.live, hr.scenes ▸ h.sealed, hr.scenes ▸ h.txns, hcfg ▸ h.cfg⟩

theorem leaves (h : SceneNow s live t) (k : ObjKind) (key oid res : Nat) : SceneNow s live (t.leaves k key oid res) :=
  ⟨h.live, h.sealed, h.txns, h.cfg⟩

theorem dropGrans (h : SceneNow s live t) (key : Nat) (old new : List Nat) : SceneNow s live (t.dropGrans key old new) :=
  ⟨h.live, h.sealed, h.txns, h.cfg⟩

theorem ite (p : Prop) [Decidable p] {u : State} (ht : SceneNow s live t) (hu : SceneNow s live u) : SceneNow s live (if p then t else u) := by
  split
  · exact ht
  · exact hu

theorem applyOp (h : SceneNow s live t) (o : SceneOp) : SceneNow s (live.apply o) (t.applyOp o) := by
  unfold State.applyOp
  extract_lets sc s1
  have h1 : SceneNow s live s1 := by
    simp only [s1]
    split
    · split
      · exact .ite _ h (h.leaves _ _ _ _)
      · exact h
    · split
      · exact .ite _ h (h.leaves _ _ _ _)
      · exact h
    · split
      · exact .ite _ (h.dropGrans _ _ _) ((h.dropGrans _ _ _).leaves _ _ _ _)
      · exact h
  exact ⟨congrArg (·.apply o) h1.live, h1.sealed, h1.txns, h1.cfg⟩

theorem applyOps (h : SceneNow s live t) (l : List SceneOp) : SceneNow s (l.foldl Scene.apply live) (l.foldl State.applyOp t) := by
  induction l generalizing live t with
  | nil => exact h
  | cons o l ih => exact ih (h.applyOp o)

theorem applySealed (h : SceneNow s live t) (cut : Nat) (x : Sealed) : SceneNow s (x.ops.foldl Scene.apply live) (State.applySealed cut t x) := by
  unfold State.applySealed
  extract_lets k s1 s2 s3
  have h2 : SceneNow s (x.ops.foldl Scene.apply live) s2 := (h.applyOps x.ops).ringOnly (ringOnly_onBase _ _)
  have h3 : SceneNow s (x.ops.foldl Scene.apply live) s3 := .ite _ (h2.ringOnly (ringOnly_onBase _ _)) h2
  exact h3.ringOnly (ringOnly_finish _ _ _ _ _ _)

theorem applyAll (h : SceneNow s live t) (cut : Nat) (l : List Sealed) :
    SceneNow s ((l.flatMap (·.ops)).foldl Scene.apply live) (l.foldl (State.applySealed cut) t) := by
  induction l generalizing live t with
  | nil => exact h
  | cons x l ih =>
    rw [List.flatMap_cons, List.foldl_append]
    exact ih (h.applySealed cut x)

end SceneNow

/-- The sealed transactions that do not precede the cut wait; the others are applied in sequencer order. -/
theorem applyScenes_spec (s : State) (cut : Nat) :
    SceneNow { s with scenes := { s.scenes with sealed := s.scenes.sealed.filter (fun x => !x.dueAt cut) } }
      (((s.scenes.sealed.filter (·.dueAt cut)).flatMap (·.ops)).foldl Scene.apply s.scenes.live) (s.applyScenes cut) :=
  ((SceneNow.refl _).applyAll cut _).ringOnly
    (ringOnly_foldl _ (fun x h => (ringOnly_drainHost x h).trans (ringOnly_refreshHost _ h)) _ _)

/-! ## What the units fix at the cut (R84, R87, R171, R222) -/

namespace Steady

variable {s t : State}

theorem cmpRest (h : Steady s t) : Steady s t.cmpRest := h.onBase _ ((Placed.refl _).setOwn _ _)

theorem cmpCut (h : Steady s t) (keys : List Nat) : Steady s (t.cmpCut keys) := by
  unfold State.cmpCut
  extract_lets mine both _ g s2 s1 _ s3
  have h2 : Steady s s2 := onBase h.elsewhere _ ((((Placed.refl _).put _ _).put _ _).raise _ _)
  have h1 : Steady s s1 := .ite _ (onBase h.elsewhere _ (.ite _ (.refl _) ((Placed.refl _).put _ _))) (.ite _ h2.cmpRest h2)
  have h3 : Steady s s3 := resetEnds h1.elsewhere _
  exact .ite _ h1 (.ite _ h3.cmpRest h3)

theorem spireResetsEnd (h : Steady s t) : Steady s t.spireResetsEnd := by
  unfold State.spireResetsEnd
  extract_lets qs cs back s1
  have h1 : Steady s s1 := .foldl _ (fun x c _ => .ite _ (((refl x).setRole _ _ _).setUnit _ _) (refl x)) h
  exact elsewhere (.foldl _ (fun x p _ => (refl x).resetEnds p) h1)

theorem spireCut (h : Steady s t) : Steady s t.spireCut := by
  unfold State.spireCut
  extract_lets clean auto0 new auto l2 lim cap swept s1 s2 s3 s4
  have h1 : Steady s s1 := .ite _ (h.setUnit _ _) h
  have h2 : Steady s s2 := .ite _ (h1.onBase _ ((Placed.refl _).fault _ _ _)) h1
  have h3 : Steady s s3 := h2.onBase _ (((((Placed.refl _).putFlag _ _).putFlag _ _).putFlag _ _).put _ _)
  have h4 : Steady s s4 := .ite _ (h3.onBase _ ((Placed.refl _).raise _ _)) h3
  exact refreshBudget (spireResetsEnd h4.elsewhere)

end Steady

/-! ## COMMIT_CUT -/

/-- COMMIT_CUT once the sealed transactions are applied, the state then being t. -/
def cutUnits (s t : State) : State :=
  let cut := s.sco.startAt.toNat
  let due := s.scenes.sealed.filter (·.dueAt (cut % 2 ^ 32))
  let s2 := if newlyClamped s t then t.onBase (·.raise pgCMP 18) else t
  ((s2.cmpCut (s.cutKeys cut)).guardHandOver (due.flatMap (·.ages)) (due.flatMap (fun t => t.ops.filterMap SceneOp.ctxKey ++ t.ages.map (·.key)))
    (due.flatMap (fun t => t.ops.filterMap SceneOp.regKey))).spireCut

/-- The frame that the cut begins: what follows this one is decided, and the Spire begins to render. -/
def cutBegun (s t : State) : State :=
  let s6 : State := { t with sco := { t.sco with cutDue := false, decided := t.decide_, leave := t.epoch != s.epoch } }
  (if (s.cutKeys s.sco.startAt.toNat).contains Reg.cmpSize then s6.portsFit else s6).beginRender ((s.j + 1) % 2 ^ 32)

theorem cutRow_eq {s : State} (h : s.sco.cutDue = true) :
    s.cutRow = cutBegun s (cutUnits s ((s.cfgCut s.sco.startAt.toNat).applyScenes (s.sco.startAt.toNat % 2 ^ 32))) := by
  rw [State.cutRow, if_neg (by rw [h]; decide)]
  rfl

theorem cutUnits_steady (s t : State) : Steady t (cutUnits s t) := by
  unfold cutUnits
  extract_lets cut due s2
  have h2 : Steady t s2 := .ite _ ((Steady.refl t).onBase _ ((Placed.refl _).raise _ _)) (.refl t)
  exact ((h2.cmpCut _).guardHandOver _ _ _).spireCut

theorem cutBegun_spec (s t : State) : (cutBegun s t).sco.cutDue = false ∧ (cutBegun s t).scenes = t.scenes ∧ (cutBegun s t).cfg = t.cfg := by
  unfold cutBegun
  extract_lets _ s6
  have h6 : Steady s6 ((if (s.cutKeys s.sco.startAt.toNat).contains Reg.cmpSize then s6.portsFit else s6).beginRender ((s.j + 1) % 2 ^ 32)) :=
    (Steady.ite _ (Steady.refl s6).portsFit (.refl s6)).beginRender _
  exact ⟨congrArg Sco.cutDue h6.sco, h6.scenes, h6.cfg⟩

/-- A due cut applies every sealed transaction that precedes it and takes the configuration transaction that is due (R51, R203, R204). -/
theorem cutRow_applies {s : State} (h : s.sco.cutDue = true) :
    s.cutRow.sco.cutDue = false ∧
      s.cutRow.scenes.sealed = s.scenes.sealed.filter (fun x => !x.dueAt (s.sco.startAt.toNat % 2 ^ 32)) ∧
      s.cutRow.scenes.live =
        ((s.scenes.sealed.filter (fun x => x.dueAt (s.sco.startAt.toNat % 2 ^ 32))).flatMap (·.ops)).foldl Scene.apply s.scenes.live ∧
      (s.cfgDue s.sco.startAt.toNat = true → s.cutRow.cfg.staged = []) ∧ s.cutRow.scenes.txns = s.scenes.txns := by
  rw [cutRow_eq h]
  obtain ⟨hcfg, hstaged⟩ := cfgCut_spec s s.sco.startAt.toNat
  have hscenes : (s.cfgCut s.sco.startAt.toNat).scenes = s.scenes := by rw [hcfg]
  have happlied := applyScenes_spec (s.cfgCut s.sco.startAt.toNat) (s.sco.startAt.toNat % 2 ^ 32)
  generalize (s.cfgCut s.sco.startAt.toNat).applyScenes (s.sco.startAt.toNat % 2 ^ 32) = t at happlied
  have hunits := cutUnits_steady s t
  obtain ⟨hcutDue, hsc, hcf⟩ := cutBegun_spec s (cutUnits s t)
  rw [hscenes] at happlied
  rw [hsc, hcf, hunits.scenes, hunits.cfg]
  exact ⟨hcutDue, happlied.sealed, happlied.live, fun hdue => happlied.cfg ▸ hstaged hdue, happlied.txns⟩

/-! ## O23 -/

/-- Settles O23: the start of a subframe is cut into its parts, each of which keeps the timeline in force, J and the scenes; of the commit cut only the sealed transactions touch the scene in force. -/
theorem subframesAdvanceTheTimelineAndCutsApply : Obligations.SubframesAdvanceTheTimelineAndCutsApply := by
  unfold Obligations.SubframesAdvanceTheTimelineAndCutsApply
  refine ⟨fun s harmed hdue hrunning hmode hleave hcut hset hslot => ?_, fun s harmed hdue hrunning hcut hset => ?_, fun s hcut => ?_⟩
  · exact ⟨s.subframeRow, rfl, subframeRow_advances harmed hdue hrunning hmode hleave hcut hset hslot⟩
  · exact ⟨s.subframeRow, rfl, subframeRow_first harmed hdue hrunning hcut hset⟩
  · exact ⟨s.cutRow, rfl, cutRow_applies hcut⟩

end Sys2Proof.Proofs

/-! The freshness guard (chapter 8): its ticks (R221, R224, R225, R228), the check of its tables (R238) and its unit reset (R240). -/

namespace Sys2Proof.Proofs

open Sys2Proof Sys2Proof.Machine Sys2Proof.Laws

/-! ## Tables changed entry by entry -/

/-- A table whose values are all changed alike. -/
theorem sget_map_value {α : Type} (f : α → α) (l : Sparse (Option α)) (k : Nat) :
    sget (fun _ => none) (l.map fun e => (e.1, e.2.map f)) k = (sget (fun _ => none) l k).map f := by
  induction l with
  | nil => rfl
  | cons e r ih =>
    rw [List.map_cons, sget, sget, ih]
    split <;> rfl

/-- A table whose value at one key is changed. -/
theorem sget_map_at {α : Type} (f : α → α) (l : Sparse (Option α)) (k : Nat) :
    sget (fun _ => none) (l.map fun e => if e.1 = k then (e.1, e.2.map f) else e) k = (sget (fun _ => none) l k).map f := by
  induction l with
  | nil => rfl
  | cons e r ih =>
    rw [List.map_cons]
    by_cases hk : e.1 = k
    · rw [if_pos hk, sget, sget, if_pos hk, if_pos hk]
    · rw [if_neg hk, sget, sget, if_neg hk, if_neg hk, ih]

/-- A key that no entry of a table has. -/
theorem sget_unlisted {α : Type} (d : Nat → α) {l : Sparse α} {k : Nat} (h : ∀ e ∈ l, e.1 ≠ k) : sget d l k = d k := by
  induction l with
  | nil => rfl
  | cons e r ih => rw [sget, if_neg (h e List.mem_cons_self), ih fun x hx => h x (List.mem_cons_of_mem e hx)]

/-! ## What a step of the guard leaves alone -/

/-- Two states that differ in the guard and their common core only. -/
def GuardOnly (s t : State) : Prop := t = { s with guard := t.guard, base := t.base }

theorem GuardOnly.trans {s t u : State} (h1 : GuardOnly s t) (h2 : GuardOnly t u) : GuardOnly s u := by
  unfold GuardOnly at *; rw [h2, h1]

theorem guardOnly_onBase (s : State) (f : Base → Base) : GuardOnly s (s.onBase f) := rfl
theorem guardOnly_guard (s : State) (g : Guard) : GuardOnly s { s with guard := g } := rfl
theorem guardOnly_guardRegs (s : State) : GuardOnly s s.guardRegs := by
  unfold State.guardRegs
  extract_lets
  exact guardOnly_onBase s _

/-! ## FRS_STATUS and FRS_SUMMARY (Table 8.5) -/

theorem guard_guardRegs (s : State) : s.guardRegs.guard = s.guard := onBase_guard s _

/-- The registers that follow the guard's tables are these two. -/
theorem word_guardRegs (s : State) {k : Nat} (hstatus : Reg.frsStatus ≠ k) (hsummary : Reg.frsSummary ≠ k) :
    s.guardRegs.base.word k = s.base.word k := by
  unfold State.guardRegs
  extract_lets st crit hosts global
  rw [onBase_base, word_put_ne _ Reg.frsSummary_HOST_STALE _ hsummary, word_put_ne _ Reg.frsSummary_HOST_CRIT _ hsummary,
    word_putFlag_ne _ Reg.frsSummary_ANY _ hsummary, word_putFlag_ne _ Reg.frsSummary_CRIT _ hsummary,
    word_putFlag_ne _ Reg.frsSummary_FAULT _ hsummary, word_put_ne _ Reg.frsStatus_STALE _ hstatus,
    word_put_ne _ Reg.frsStatus_CRIT_STALE _ hstatus, word_putFlag_ne _ Reg.frsStatus_GLOBAL _ hstatus]

theorem get_guardRegs (s : State) (f : FieldRef) (hstatus : Reg.frsStatus ≠ f.key) (hsummary : Reg.frsSummary ≠ f.key) :
    s.guardRegs.base.get f = s.base.get f := by
  rw [Base.get, word_guardRegs s hstatus hsummary, ← Base.get]

theorem hasEvent_guardRegs (s : State) (n : Nat) : s.guardRegs.hasEvent pgFRS n = s.hasEvent pgFRS n := by
  rw [State.hasEvent, word_guardRegs s (by decide) (by decide), ← State.hasEvent]

theorem inReset_guardRegs (s : State) : s.guardRegs.inReset pgFRS = s.inReset pgFRS := by
  rw [State.inReset, Base.flag, get_guardRegs s _ (by decide) (by decide)]
  rfl

/-- FRS_STATUS is rewritten around TICK_LOCAL. -/
theorem tickLocal_guardRegs (s : State) : s.guardRegs.base.flag Reg.frsStatus_TICK_LOCAL = s.base.flag Reg.frsStatus_TICK_LOCAL := by
  have hlocal : FieldOk Reg.frsStatus_TICK_LOCAL := ⟨by decide, by decide⟩
  unfold State.guardRegs
  extract_lets st crit hosts global
  rw [onBase_base, Base.flag, get_put_key _ Reg.frsSummary_HOST_STALE _ _ (by decide), get_put_key _ Reg.frsSummary_HOST_CRIT _ _ (by decide),
    Base.putFlag, get_put_key _ Reg.frsSummary_ANY _ _ (by decide), Base.putFlag, get_put_key _ Reg.frsSummary_CRIT _ _ (by decide),
    Base.putFlag, get_put_key _ Reg.frsSummary_FAULT _ _ (by decide),
    get_put_ne _ Reg.frsStatus_STALE _ _ ⟨by decide, by decide⟩ hlocal (by decide),
    get_put_ne _ Reg.frsStatus_CRIT_STALE _ _ ⟨by decide, by decide⟩ hlocal (by decide),
    Base.putFlag, get_put_ne _ Reg.frsStatus_GLOBAL _ _ ⟨by decide, by decide⟩ hlocal (by decide), ← Base.flag]

/-! ## A tick (R221, R228) -/

/-- Every context is a millisecond older. -/
theorem ctxs_freshTick {s : State} {k : Nat} {c : GCtx} (hc : sget (fun _ => none) s.guard.ctxs k = some c) :
    sget (fun _ => none) s.freshTick.guard.ctxs k = some { c with age := min 0xFFFFFF (c.age + 1) } :=
  (sget_map_value (fun c : GCtx => { c with age := ageUp c.age }) s.guard.ctxs k).trans (congrArg (Option.map _) hc)

theorem frsMs_freshTick (s : State) : s.freshTick.base.get Reg.frsMs_TICKS = (s.base.get Reg.frsMs_TICKS + 1) % 2 ^ 32 :=
  get_put_same s.base Reg.frsMs_TICKS _ ⟨by decide, by decide⟩

theorem word_freshTick (s : State) {k : Nat} (hk : Reg.frsMs ≠ k) : s.freshTick.base.word k = s.base.word k :=
  word_put_ne s.base Reg.frsMs_TICKS _ hk

theorem get_freshTick (s : State) (f : FieldRef) (hf : Reg.frsMs ≠ f.key) : s.freshTick.base.get f = s.base.get f :=
  get_put_key s.base Reg.frsMs_TICKS f _ hf

/-- A counter that is a whole register and reads what the count of the state before gives. -/
theorem counted_count {s t : State} {f : FieldRef} {n : Nat} (hm : f.msb = 31) (hl : f.lsb = 0) (h : t.base.get f = (s.base.count f n).get f) :
    s.counted t f n := by
  rw [State.counted, h, get_count_same _ _ _ hm hl, hm, hl]

/-! ## FRESHNESS_TICK (R224) -/

/-- The guard with `m` taken from its accumulator. Facts about it are stated for any `m`: at a millisecond, the kernel would count down from `msAcc`. -/
def accumLess (s : State) (m : Nat) : State := { s with guard := { s.guard with accum := s.guard.accum - m, sxtAt := s.base.ticks } }

/-- The guard has ticked just now. -/
def tickedNow (s : State) : State := { s with guard := { s.guard with lastAt := s.base.ticks } }

theorem freshnessTickRow_due {s : State} (hdue : msAcc ≤ s.guard.accum) (hsextant : s.base.flag Reg.frsStatus_TICK_LOCAL = false) :
    s.freshnessTickRow = (tickedNow (accumLess s msAcc)).freshTick := by
  rw [State.freshnessTickRow, if_neg (Nat.not_lt.mpr hdue), hsextant]
  exact if_pos rfl

theorem freshTick_accumLess (s : State) (m : Nat) {t : State} (ht : t = (tickedNow (accumLess s m)).freshTick) :
    t.guard.accum = s.guard.accum - m ∧ t.base.get Reg.frsMs_TICKS = (s.base.get Reg.frsMs_TICKS + 1) % 2 ^ 32 ∧
      t.rings.window = s.rings.window + 1 ∧
      (∀ k c, sget (fun _ => none) s.guard.ctxs k = some c → sget (fun _ => none) t.guard.ctxs k = some { c with age := min 0xFFFFFF (c.age + 1) }) ∧
      t = { s with guard := t.guard, scenes := t.scenes, rings := t.rings, base := t.base } := by
  rw [ht]
  exact ⟨rfl, frsMs_freshTick _, rfl, fun _ _ hc => ctxs_freshTick hc, rfl⟩

theorem freshnessTick_due (s : State) (hdue : msAcc ≤ s.guard.accum) (hsextant : s.base.flag Reg.frsStatus_TICK_LOCAL = false) :
    ∃ t, exec .freshnessTick s = .next t ∧ t.guard.accum = s.guard.accum - msAcc ∧
      t.base.get Reg.frsMs_TICKS = (s.base.get Reg.frsMs_TICKS + 1) % 2 ^ 32 ∧ t.rings.window = s.rings.window + 1 ∧
      (∀ k c, sget (fun _ => none) s.guard.ctxs k = some c → sget (fun _ => none) t.guard.ctxs k = some { c with age := min 0xFFFFFF (c.age + 1) }) ∧
      t = { s with guard := t.guard, scenes := t.scenes, rings := t.rings, base := t.base } :=
  ⟨_, rfl, freshTick_accumLess s msAcc (freshnessTickRow_due hdue hsextant)⟩

/-! ## TICK_LOST and LOCAL_TICK (R225) -/

/-- The registers of the guard as it turns to the always-on count. -/
def tickLostRegs (b : Base) : Base := (b.putFlag Reg.frsStatus_TICK_LOCAL true).count Reg.frsTickLost_COUNT 1

/-- The common core then: the event TICK_LOST is raised and fault 4 logged. -/
def tickLostBase (b : Base) : Base := ((tickLostRegs b).raise pgFRS 19).fault pgFRS 4 []

theorem keeps_tickLostBase (b : Base) (hn : b.nhosts ≤ 4) : Keeps [] (tickLostRegs b) (tickLostBase b) := by
  have hfew : (tickLostRegs b).nhosts ≤ 4 := by rwa [tickLostRegs, count_nhosts, putFlag_nhosts]
  rw [tickLostBase]
  exact ((Keeps.refl hfew).raise _ _).fault _ _ _

theorem tickLocal_tickLostBase (b : Base) (hn : b.nhosts ≤ 4) : (tickLostBase b).flag Reg.frsStatus_TICK_LOCAL = true := by
  rw [Base.flag, (keeps_tickLostBase b hn).get (by decide) List.not_mem_nil, tickLostRegs, Base.count,
    get_put_key _ Reg.frsTickLost_COUNT _ _ (by decide), ← Base.flag]
  exact flag_putFlag_same b Reg.frsStatus_TICK_LOCAL true rfl (by decide)

theorem lost_tickLostBase (b : Base) (hn : b.nhosts ≤ 4) :
    (tickLostBase b).get Reg.frsTickLost_COUNT = (b.count Reg.frsTickLost_COUNT 1).get Reg.frsTickLost_COUNT := by
  rw [(keeps_tickLostBase b hn).get (by decide) List.not_mem_nil, tickLostRegs, get_count_same _ Reg.frsTickLost_COUNT,
    get_count_same _ Reg.frsTickLost_COUNT, Base.putFlag, get_put_key _ Reg.frsStatus_TICK_LOCAL _ _ (by decide)]

/-- The fault takes back no event. -/
theorem event_tickLostBase (b : Base) : ((tickLostBase b).word (hdr pgFRS 0x18)).toNat.testBit 19 = true :=
  (calm_fault _ _ _ _).event _ _ (raise_pending _ pgFRS (by decide))

/-- The guard as it begins to tick from the always-on count. -/
def guardLocal (s : State) : Guard := { s.guard with lastAt := s.base.ticks, goodRun := 0 }

theorem tickLostRow_due {s : State} (hsextant : s.base.flag Reg.frsStatus_TICK_LOCAL = false) (hon : s.base.ownState pgFRS ≠ uOFF)
    (hlate : s.guard.lastAt + tickLate ≤ s.base.ticks) :
    s.tickLostRow = ((({ s with guard := guardLocal s } : State).onBase tickLostBase).freshTick).guardRegs := by
  rw [State.tickLostRow, hsextant, beq_false_of_ne hon, decide_eq_false (Nat.not_lt.mpr hlate), Bool.or_self, Bool.or_self, if_neg Bool.false_ne_true]
  rfl

theorem tickLost_late (s : State) (hsextant : s.base.flag Reg.frsStatus_TICK_LOCAL = false) (hon : s.base.ownState pgFRS ≠ uOFF)
    (hlate : s.guard.lastAt + tickLate ≤ s.base.ticks) (hn : s.base.nhosts ≤ 4) :
    ∃ t, exec .tickLost s = .next t ∧ t.base.flag Reg.frsStatus_TICK_LOCAL = true ∧ t.hasEvent pgFRS 19 = true ∧ s.counted t Reg.frsTickLost_COUNT 1 ∧
      (∀ k c, sget (fun _ => none) s.guard.ctxs k = some c → sget (fun _ => none) t.guard.ctxs k = some { c with age := min 0xFFFFFF (c.age + 1) }) := by
  refine ⟨_, congrArg Host.Outcome.next (tickLostRow_due hsextant hon hlate), ?_, ?_, ?_, fun k c hc => ?_⟩
  · rw [tickLocal_guardRegs, Base.flag, get_freshTick _ _ (by decide), ← Base.flag, onBase_base]
    exact tickLocal_tickLostBase _ hn
  · rw [hasEvent_guardRegs, State.hasEvent, word_freshTick _ (by decide), onBase_base]
    exact event_tickLostBase _
  · refine counted_count rfl rfl ?_
    rw [get_guardRegs _ _ (by decide) (by decide), get_freshTick _ _ (by decide), onBase_base]
    exact lost_tickLostBase _ hn
  · rw [guard_guardRegs]
    exact ctxs_freshTick hc

theorem localTickRow_due {s : State} (hlocal : s.base.flag Reg.frsStatus_TICK_LOCAL = true) (hdue : s.guard.lastAt + tickLocal ≤ s.base.ticks) :
    s.localTickRow =
      (({ s with guard := { s.guard with lastAt := s.guard.lastAt + tickLocal } } : State).onBase (·.count Reg.frsTickLost_COUNT 1)).freshTick := by
  rw [State.localTickRow, hlocal, decide_eq_false (Nat.not_lt.mpr hdue), Bool.not_true, Bool.or_self, if_neg Bool.false_ne_true]

theorem localTick_due (s : State) (hlocal : s.base.flag Reg.frsStatus_TICK_LOCAL = true) (hdue : s.guard.lastAt + tickLocal ≤ s.base.ticks) :
    ∃ t, exec .localTick s = .next t ∧ t.guard.lastAt = s.guard.lastAt + tickLocal ∧ s.counted t Reg.frsTickLost_COUNT 1 ∧
      (∀ k c, sget (fun _ => none) s.guard.ctxs k = some c → sget (fun _ => none) t.guard.ctxs k = some { c with age := min 0xFFFFFF (c.age + 1) }) := by
  refine ⟨_, congrArg Host.Outcome.next (localTickRow_due hlocal hdue), rfl, counted_count rfl rfl ?_, fun k c hc => ctxs_freshTick hc⟩
  rw [get_freshTick _ _ (by decide), onBase_base]

/-! ## GUARD_COPY_CHECK (R238, R240) -/

/-- The key of a bad entry. -/
def badKey (g : GuardBad) : Nat := objKey g.host.toNat g.handle.toNat

/-- The state in which the check of this frame has run. -/
def guardChecked (s : State) : State := { s with guard := { s.guard with checked := true } }

theorem guardChecked_onBase (s : State) (f : Base → Base) :
    (guardChecked s).onBase f = { s with guard := { s.guard with checked := true }, base := ((guardChecked s).onBase f).base } := rfl

theorem guardCopyCheck_entry (s : State) (g : GuardBad) : exec (.guardCopyCheck [g]) s = .next ((guardChecked s).guardBad g) := rfl

theorem guardOnly_guardBad (s : State) (g : GuardBad) : GuardOnly s (s.guardBad g) := by
  have hfault (x : Guard) (c : Nat) : GuardOnly s (({ s with guard := x } : State).onBase (·.fault pgFRS c (guardDetail g))) :=
    (guardOnly_guard s x).trans (guardOnly_onBase _ _)
  unfold State.guardBad
  extract_lets
  split
  · exact guardOnly_onBase s _
  split
  · exact (hfault _ 3).trans (guardOnly_guardRegs _)
  split
  · refine GuardOnly.trans ?_ (guardOnly_guardRegs _)
    split
    · exact (hfault _ 3).trans (guardOnly_onBase _ _)
    · exact hfault _ 3
  · exact hfault _ 2

/-- The common core as an entry bad in one copy is repaired from the other: counted, logged, and the event raised. -/
def copyErrBase (g : GuardBad) (b : Base) : Base := ((b.count Reg.frsCopyErr_COUNT 1).fault pgFRS 1 (guardDetail g)).raise pgFRS 20

theorem errors_copyErrBase (g : GuardBad) (b : Base) (hn : b.nhosts ≤ 4) :
    (copyErrBase g b).get Reg.frsCopyErr_COUNT = (b.count Reg.frsCopyErr_COUNT 1).get Reg.frsCopyErr_COUNT := by
  have hfew : (b.count Reg.frsCopyErr_COUNT 1).nhosts ≤ 4 := by rwa [count_nhosts]
  rw [copyErrBase]
  exact (((Keeps.refl hfew).fault _ _ _).raise _ _).get (by decide) List.not_mem_nil

theorem event_copyErrBase (g : GuardBad) (b : Base) : ((copyErrBase g b).word (hdr pgFRS 0x18)).toNat.testBit 20 = true :=
  raise_pending _ pgFRS (by decide)

theorem guardBad_one (s : State) {g : GuardBad} (hone : g.both = false) : s.guardBad g = s.onBase (copyErrBase g) := by
  rw [State.guardBad, hone, Bool.not_false, if_pos rfl]
  rfl

theorem guardCopyCheck_one (s : State) (g : GuardBad) (hone : g.both = false) (hn : s.base.nhosts ≤ 4) :
    ∃ t, exec (.guardCopyCheck [g]) s = .next t ∧ s.counted t Reg.frsCopyErr_COUNT 1 ∧ t.hasEvent pgFRS 20 = true ∧
      t = { s with guard := { s.guard with checked := true }, base := t.base } := by
  refine ⟨_, (guardCopyCheck_entry s g).trans (congrArg Host.Outcome.next (guardBad_one (guardChecked s) hone)), counted_count rfl rfl ?_, ?_,
    guardChecked_onBase s _⟩
  · rw [onBase_base]
    exact errors_copyErrBase g _ hn
  · rw [State.hasEvent, onBase_base]
    exact event_copyErrBase g _

/-- The guard without a region entry that the re-check of a unit reset found bad in both copies. -/
def regionDiscarded (x : Guard) (key : Nat) : Guard :=
  { x with
    gone := setInsert x.gone key, regs := x.regs.filter (fun e => e.1 != key)
    next := x.next.map (fun (n : GuardNext) => { n with regs := n.regs.filter (fun e => e.1 != key) }) }

/-- The guard with a region entry bad in both copies: the whole panel is hatched. -/
def regionBad (x : Guard) (key : Nat) : Guard := { x with badRegs := setInsert x.badRegs key, veil := { x.veil with global := true } }

/-- The state then, with the fault logged. -/
def regionFaulted (s : State) (g : GuardBad) : State :=
  ({ s with guard := regionBad s.guard (badKey g) } : State).onBase (·.fault pgFRS 3 (guardDetail g))

theorem guard_regionFaulted (s : State) (g : GuardBad) : (regionFaulted s g).guard = regionBad s.guard (badKey g) := onBase_guard _ _

theorem guard_raiseIf (s : State) (first : Bool) (n : Nat) : (if first then s.onBase (·.raise pgFRS n) else s).guard = s.guard := by
  split
  · exact onBase_guard s _
  · rfl

section
variable {s : State} {g : GuardBad} (hboth : g.both = true) (hregion : g.region = true)
include hboth hregion

theorem guardBad_discarded (hreset : s.guard.reset ≠ none) :
    s.guardBad g = (({ s with guard := regionDiscarded s.guard (badKey g) } : State).onBase (·.fault pgFRS 3 (guardDetail g))).guardRegs := by
  rw [State.guardBad, hboth, hregion, Option.isSome_iff_ne_none.mpr hreset]
  rfl

theorem guardBad_hatched (hwork : s.guard.reset = none) :
    s.guardBad g = (if s.guard.badRegs.isEmpty then (regionFaulted s g).onBase (·.raise pgFRS 21) else regionFaulted s g).guardRegs := by
  rw [State.guardBad, hboth, hregion, hwork, Bool.not_true, if_neg Bool.false_ne_true, Option.isSome_none, Bool.and_false, if_neg Bool.false_ne_true,
    if_pos rfl]
  rfl

end

theorem guardCopyCheck_region (s : State) (g : GuardBad) (hboth : g.both = true) (hregion : g.region = true) :
    ∃ t, exec (.guardCopyCheck [g]) s = .next t ∧
      (s.guard.reset = none → t.guard.veil.global = true ∧ objKey g.host.toNat g.handle.toNat ∈ t.guard.badRegs ∧
        t.guard.regs = s.guard.regs ∧ (s.guard.badRegs = [] → t.hasEvent pgFRS 21 = true)) ∧
      (s.guard.reset ≠ none → objKey g.host.toNat g.handle.toNat ∈ t.guard.gone ∧
        t.guard.regs = s.guard.regs.filter (fun e => e.1 != objKey g.host.toNat g.handle.toNat) ∧ t.guard.badRegs = s.guard.badRegs) ∧
      t = { s with guard := t.guard, base := t.base } := by
  refine ⟨_, guardCopyCheck_entry s g, fun hwork => ?_, fun hreset => ?_, (guardOnly_guard s _).trans (guardOnly_guardBad (guardChecked s) g)⟩
  · rw [guardBad_hatched (s := guardChecked s) hboth hregion hwork, guard_guardRegs, guard_raiseIf, guard_regionFaulted]
    refine ⟨rfl, mem_setInsert _ _, rfl, fun hfirst => ?_⟩
    rw [hasEvent_guardRegs, if_pos (show (guardChecked s).guard.badRegs.isEmpty = true from List.isEmpty_iff.mpr hfirst)]
    exact hasEvent_raise _ pgFRS 21 (by decide)
  · rw [guardBad_discarded (s := guardChecked s) hboth hregion hreset, guard_guardRegs, onBase_guard]
    exact ⟨mem_setInsert _ _, rfl, rfl⟩

/-- A context bad in both copies: it counts as stale, and of the greatest age. -/
def ctxSpoilt (c : GCtx) : GCtx := { c with bad := true, age := 0xFFFFFF }

theorem guardBad_ctx (s : State) {g : GuardBad} (hboth : g.both = true) (hctx : g.region = false) :
    s.guardBad g = ({ s with guard := { s.guard with
      ctxs := s.guard.ctxs.map fun e => if e.1 = badKey g then (e.1, e.2.map ctxSpoilt) else e } } : State).onBase (·.fault pgFRS 2 (guardDetail g)) := by
  rw [State.guardBad, hboth, hctx]
  rfl

theorem guardCopyCheck_ctx (s : State) (g : GuardBad) (c : GCtx) (hboth : g.both = true) (hctx : g.region = false)
    (hc : sget (fun _ => none) s.guard.ctxs (objKey g.host.toNat g.handle.toNat) = some c) :
    ∃ t, exec (.guardCopyCheck [g]) s = .next t ∧ t.guard.checked = true ∧
      sget (fun _ => none) t.guard.ctxs (objKey g.host.toNat g.handle.toNat) = some { c with bad := true, age := 0xFFFFFF } ∧
      t = { s with guard := t.guard, base := t.base } :=
  ⟨_, (guardCopyCheck_entry s g).trans (congrArg Host.Outcome.next (guardBad_ctx (guardChecked s) hboth hctx)), rfl,
    (sget_map_at ctxSpoilt s.guard.ctxs (badKey g)).trans (congrArg (Option.map ctxSpoilt) hc), rfl⟩

/-! ## GUARD_UNIT_RESET (R240) -/

/-- The guard as a unit reset begins: no region entry bad in both copies is left. -/
def guardInReset (x : Guard) (ok : Bool) : Guard :=
  { x with
    reset := some ok, gone := x.badRegs.foldl setInsert x.gone, badRegs := []
    regs := x.regs.filter (fun e => !x.badRegs.contains e.1)
    next := x.next.map (fun (n : GuardNext) => { n with regs := n.regs.filter (fun e => !x.badRegs.contains e.1) }) }

theorem guardReset_eq (s : State) (ok : Bool) :
    s.guardReset ok = (({ s with guard := guardInReset s.guard ok } : State).resetBegins pgFRS).guardRegs := rfl

theorem ctrlWrite_guardReset (s : State) (a : RegWr) (ok : Bool) (ha : s.asksReset pgFRS a = true) :
    s.ctrlWrite pgFRS a ok [] = (s.stored (hdr pgFRS 0x20) a).guardReset ok := by
  rw [ctrlWrite_reset s pgFRS a ok [] ha]
  rfl

/-- A region whose entry was bad in both copies is no longer in the table. -/
theorem regs_guardInReset (x : Guard) (ok : Bool) {k : Nat} (hk : k ∈ x.badRegs) : sget (fun _ => none) (guardInReset x ok).regs k = none := by
  refine sget_unlisted (fun _ => none) fun e he hek => ?_
  have hgood := (List.mem_filter.mp he).2
  rw [hek, List.contains_iff_mem.mpr hk] at hgood
  cases hgood

theorem guardUnitReset_taken (s : State) (a : RegWr) (ok : Bool) (ha : s.asksReset pgFRS a = true) :
    ∃ t, exec (.guardUnitReset a ok) s = .next t ∧ t.guard.reset = some ok ∧ t.guard.badRegs = [] ∧
      (∀ k ∈ s.guard.badRegs, sget (fun _ => none) t.guard.regs k = none) ∧ t.inReset pgFRS = true ∧
      t = { s with guard := t.guard, base := t.base } := by
  have hrow : s.ctrlWrite pgFRS a ok [] = _ := (ctrlWrite_guardReset s a ok ha).trans (guardReset_eq _ ok)
  refine ⟨_, congrArg Host.Outcome.next hrow, rfl, rfl, fun k hk => regs_guardInReset s.guard ok hk, ?_, ?_⟩
  · rw [inReset_guardRegs]
    exact inReset_resetBegins _ pgFRS
  · show GuardOnly s _
    exact ((guardOnly_onBase s _).trans (guardOnly_guard _ _)).trans ((guardOnly_onBase _ _).trans (guardOnly_guardRegs _))

/-! ## O27 -/

/-- Settles O27: a tick of the Sextant (R221, R224), the guard's own ticks (R225), a check of the tables by what it finds (R238) and the unit reset (R240). -/
theorem theGuardTicksChecksAndResets : Obligations.TheGuardTicksChecksAndResets :=
  ⟨freshnessTick_due, tickLost_late, localTick_due, fun _ => rfl, guardCopyCheck_one, guardCopyCheck_region, guardCopyCheck_ctx, guardUnitReset_taken⟩

end Sys2Proof.Proofs

/-! O11: TX_BEGIN (R260), and TX_COMMIT and SCHED_COMMIT (R205, R261, R262), each by its checks and by what it makes of its transaction. -/

namespace Sys2Proof.Proofs

open Sys2Proof Sys2Proof.Machine Sys2Proof.Laws

/-! ## A command that opens, closes or ends a transaction -/

section

variable {s v : State} {h : Fin 4} {r : Fin 16} {op st info : Nat} {d : Desc} {f : Desc → State → State} {c : Option Nat}

/-- A ready command that completes with the change of the scenes from `s` to `v`, be its transaction there before and after or not. -/
theorem ended_ringRow (hr : s.ready h r op d) (hw : swf (fun _ => none) v.scenes.txns = true) (hf : f d s = v.answer h r d c st info)
    (hv : SceneOnly s v) : (s.ringRow h r op f).completed h r d ∧ After s v (s.ringRow h r op f) := by
  rw [ringRow_ready s h r op d f hr, hf]
  exact ⟨completed_answer v h r d c st info h, after_answer h r d c st info h hv hw⟩

/-- A ready command that is accepted and completes later. -/
theorem accepted_ringRow (hr : s.ready h r op d) (hw : swf (fun _ => none) v.scenes.txns = true) (hf : f d s = v.acceptDesc h r d c)
    (hv : SceneOnly s v) : After s v (s.ringRow h r op f) := by
  rw [ringRow_ready s h r op d f hr, hf]
  exact after_accept h r d c h hv hw

end

/-! ## TX_BEGIN -/

/-- The checks of TX_BEGIN in the order of R260. -/
def txBeginChecks (s : State) (h : Nat) (d : Desc) : List (Bool × Nat) :=
  [(decide (255 < d.txn), stRANGE), ((s.txn h d.txn).isSome, stSTATE), (!s.hasRoom 3 h 1, stQUOTA)]

/-- The state with an empty transaction under the command's handle. -/
def txBegun (s : State) (h : Nat) (d : Desc) : State := (s.setTxn h d.txn (some Txn.fresh)).onBase (·.takeUse h 3 1)

theorem runTxBegin_refused {s : State} {h r st : Nat} {d : Desc} (hst : firstStatus (txBeginChecks s h d) = some st) :
    State.runTxBegin h r d s = if st = stQUOTA then s.answerQuota h r d none 4 else s.answer h r d none st 0 := by
  unfold txBeginChecks at hst
  simp only [State.runTxBegin, hst]

theorem runTxBegin_opens {s : State} {h r : Nat} {d : Desc} (hok : firstStatus (txBeginChecks s h d) = none) :
    State.runTxBegin h r d s = (txBegun s h d).answer h r d none stOK 0 := by
  unfold txBeginChecks at hok
  simp only [State.runTxBegin, hok]
  rfl

theorem txBegin_opens {s : State} {h : Fin 4} {r : Fin 16} {d : Desc} (hr : s.ready h r 0x01 d) (hw : swf (fun _ => none) s.scenes.txns = true)
    (hhandle : d.txn < 256) (hfree : s.txn h d.txn = none) (hroom : s.hasRoom 3 h 1 = true) :
    ∃ t, exec (.txBegin h r) s = .next t ∧ (t.txn h d.txn).map Txn.core = some Txn.fresh ∧ t.completed h r d ∧
      (∀ k j, k * 256 + j ≠ h * 256 + d.txn → (t.txn k j).map Txn.core = (s.txn k j).map Txn.core) ∧
      t = { s with scenes := t.scenes, rings := t.rings, base := t.base } ∧ t.sealedScene = s.sealedScene := by
  have hok : firstStatus (txBeginChecks s h d) = none := by
    simpa [firstStatus_cons_none, firstStatus_nil, txBeginChecks, hfree, hroom] using Nat.le_of_lt_succ hhandle
  obtain ⟨hdone, A⟩ := ended_ringRow (v := txBegun s h d) hr (canon_setTxn s h d.txn (some Txn.fresh) hw) (runTxBegin_opens hok)
    ((sceneOnly_setTxn s h d.txn _).trans (sceneOnly_onBase _ _))
  refine ⟨_, rfl, ?_, hdone, fun k j hne => ?_, A.only, A.sealed⟩
  · rw [A.txn, txBegun, txn_onBase, txn_setTxn_same]
    rfl
  · rw [A.txn, txBegun, txn_onBase, txn_setTxn, if_neg hne.symm]

/-! ## TX_COMMIT and SCHED_COMMIT -/

/-- An open transaction as its commit leaves it. -/
def committed (d : Desc) (sched : Option (Nat × Bool)) (x : Txn) : Txn := { x with closing := true, commit := some d.id, sched := sched }

/-- The state with a transaction ended into which nothing was accepted. -/
def emptyEnded (s : State) (h : Nat) (d : Desc) : State := (s.setTxn h d.txn none).onBase (·.giveUse h 3 1)

section

variable {s : State} {h r : Nat} {d : Desc} {x : Txn} {sched : Option (Nat × Bool)}

theorem runCommit_refused (hbad : s.joins h d = false ∨ (s.txn h d.txn).map (·.closing) = some true) :
    State.runCommit h r sched d s = s.answer h r d none stTXN 0 := by
  unfold State.runCommit
  split
  · rfl
  · rename_i x hx
    have hno : (!s.joins h d || x.closing) = true := by
      rcases hbad with hj | hc
      · rw [hj]
        rfl
      · rw [hx] at hc
        rw [show x.closing = true from Option.some.inj hc, Bool.or_true]
    rw [if_pos hno]

variable (hx : s.txn h d.txn = some x) (hj : s.joins h d = true) (hopen : x.closing = false)

include hx hj hopen

theorem runCommit_empty (ha : x.accepted = false) : State.runCommit h r sched d s = (emptyEnded s h d).answer h r d none stNOOP 0 := by
  simp [State.runCommit, hx, hj, hopen, ha, emptyEnded]

theorem runCommit_closes (ha : x.accepted = true) :
    State.runCommit h r sched d s = (s.setTxn h d.txn (some (committed d sched x))).acceptDesc h r d none := by
  simp [State.runCommit, hx, hj, hopen, ha, committed]

end

/-- A commit of an open transaction closes it, or ends it when nothing was accepted into it; `f` is TX_COMMIT's or SCHED_COMMIT's run. -/
theorem commit_ringRow {s : State} {h : Fin 4} {r : Fin 16} {op : Nat} {d : Desc} {x : Txn} {sched : Option (Nat × Bool)} {f : Desc → State → State}
    (hf : f d s = State.runCommit h r sched d s) (hr : s.ready h r op d) (hw : swf (fun _ => none) s.scenes.txns = true)
    (hx : s.txn h d.txn = some x) (hj : s.joins h d = true) (hopen : x.closing = false) :
    ((s.ringRow h r op f).txn h d.txn).map Txn.core = (if x.accepted then some (Txn.core (committed d sched x)) else none) ∧
      (x.accepted = false → (s.ringRow h r op f).completed h r d) ∧ SceneOnly s (s.ringRow h r op f) ∧
      (s.ringRow h r op f).sealedScene = s.sealedScene := by
  cases ha : x.accepted with
  | false =>
    obtain ⟨hdone, A⟩ := ended_ringRow (v := emptyEnded s h d) hr (canon_setTxn s h d.txn none hw) (hf.trans (runCommit_empty hx hj hopen ha))
      ((sceneOnly_setTxn s h d.txn _).trans (sceneOnly_onBase _ _))
    refine ⟨?_, fun _ => hdone, A.only, A.sealed⟩
    rw [A.txn, emptyEnded, txn_onBase, txn_setTxn_same]
    rfl
  | true =>
    have A := accepted_ringRow (v := s.setTxn h d.txn (some (committed d sched x))) hr (canon_setTxn s h d.txn _ hw) (hf.trans (runCommit_closes hx hj hopen ha))
      (sceneOnly_setTxn s h d.txn _)
    refine ⟨?_, nofun, A.only, A.sealed⟩
    rw [A.txn, txn_setTxn_same]
    rfl

/-- A commit of a transaction that is not there, cannot be joined or is closing already. -/
theorem commit_refused {s : State} {h : Fin 4} {r : Fin 16} {d : Desc} {c : Instr} {op : Nat}
    (hc : (op, c) ∈ [(0x02, Instr.txCommit h r), (0x10, Instr.schedCommit h r)]) (hr : s.ready h r op d)
    (hw : swf (fun _ => none) s.scenes.txns = true) (hbad : s.joins h d = false ∨ (s.txn h d.txn).map (·.closing) = some true) :
    ∃ t, exec c s = .next t ∧ s.refuses t h r d stTXN 0 := by
  simp only [List.mem_cons, Prod.mk.injEq, List.not_mem_nil, or_false] at hc
  rcases hc with ⟨rfl, rfl⟩ | ⟨rfl, rfl⟩
  · exact ⟨_, rfl, refused_ringRow hr hw (runCommit_refused hbad)⟩
  · exact ⟨_, rfl, refused_ringRow hr hw (runCommit_refused hbad)⟩

/-- Settles O11: each command by its checks, then by the transaction that it opens, closes or ends. -/
theorem transactionCommandsOpenAndClose : Obligations.TransactionCommandsOpenAndClose :=
  ⟨fun _ _ _ _ hr hw => txBegin_opens hr hw, fun _ _ _ _ _ hr hw hx hj hopen => ⟨_, rfl, commit_ringRow rfl hr hw hx hj hopen⟩,
    fun _ _ _ _ _ hr hw hx hj hopen => ⟨_, rfl, commit_ringRow rfl hr hw hx hj hopen⟩,
    fun _ _ _ _ _ hr hw hst => ⟨_, rfl, quotaRefused_ringRow hr hw (runTxBegin_refused hst)⟩, fun _ _ _ _ _ _ => commit_refused⟩

end Sys2Proof.Proofs

/-! O15: TX_ABORT (R263): what the end of a transaction takes back, what it counts in TXN_ROLLBACK, and what it leaves of the scenes. -/

namespace Sys2Proof.Proofs

open Sys2Proof Sys2Proof.Machine Sys2Proof.Laws

/-! ## TXN_ROLLBACK stands -/

/-- From `b` to `c` the registers at offset 0x050 of their pages keep their words. TXN_ROLLBACK lies there, and no register of events, logs, quotas, completions or 2D operations does, on whatever page. -/
structure CountStands (b c : Base) : Prop where
  word : ∀ k, k % 4096 = 0x50 → c.word k = b.word k

namespace CountStands

variable {b c d : Base}

theorem refl (b : Base) : CountStands b b := ⟨fun _ _ => rfl⟩

theorem trans (h1 : CountStands b c) (h2 : CountStands c d) : CountStands b d := ⟨fun k hk => (h2.word k hk).trans (h1.word k hk)⟩

theorem of_regs (hr : c.regs = b.regs) : CountStands b c := ⟨fun k _ => by rw [Base.word, hr, ← Base.word]⟩

theorem setWord (b : Base) (k : Nat) (v : BitVec 32) (hk : k % 4096 ≠ 0x50) : CountStands b (b.setWord k v) :=
  ⟨fun j hj => word_setWord_ne b v fun e : k = j => hk (by rw [e]; exact hj)⟩

theorem put (b : Base) (f : FieldRef) (v : Nat) (hf : f.key % 4096 ≠ 0x50) : CountStands b (b.put f v) := setWord b _ _ hf

theorem count (b : Base) (f : FieldRef) (n : Nat) (hf : f.key % 4096 ≠ 0x50) : CountStands b (b.count f n) := put b _ _ hf

theorem ite (p : Prop) [Decidable p] (hc : CountStands b c) (hd : CountStands b d) : CountStands b (if p then c else d) := by
  split
  · exact hc
  · exact hd

theorem emit (b : Base) (o : Output) : CountStands b (b.emit o) := of_regs rfl

theorem msix (b : Base) (h v : Nat) : CountStands b (b.msix h v) := of_regs (msix_regs b h v)

theorem raise (b : Base) (p n : Nat) : CountStands b (b.raise p n) := ⟨fun _ hk => word_raise_ne b p n (by unfold hdr; omega)⟩

theorem setOwn (b : Base) (p st : Nat) : CountStands b (b.setOwn p st) := ⟨fun _ hk => word_setOwn b p st (by omega)⟩

theorem busyIf (b : Base) (p : Nat) (on : Bool) : CountStands b (b.busyIf p on) := .ite _ (setOwn b p _) (refl b)

theorem violation (b : Base) (h p code : Nat) (bs : List Byte) : CountStands b (b.violation h p code bs) := by
  refine ⟨fun k hk => word_violation_ne b h p code bs (fun e => ?_) (by omega)⟩
  have hlost : (logLost (2 * h + 1)).key = 0x1007C + 4096 * h := by
    rw [logLost, if_neg (by omega), show (2 * h + 1) / 2 = h by omega]
    rfl
  omega

/-- The quota registers lie elsewhere (Table 4.8). -/
theorem giveUse (b : Base) (h r n : Nat) : CountStands b (b.giveUse h r n) := by
  refine put b _ _ ?_
  unfold usedOf
  split
  all_goals
    simp only [Reg.useCtx_USED, Reg.useCtx, Reg.useLayer_USED, Reg.useLayer, Reg.useRegion_USED, Reg.useRegion, Reg.useTxn_USED, Reg.useTxn,
      Reg.useSlot_USED, Reg.useSlot, Reg.useMem_USED, Reg.useMem]
    omega

end CountStands

/-! ## A ring settles -/

theorem countStands_foldl {β : Type} (f : State → β → State) (hf : ∀ x e, CountStands x.base (f x e).base) (l : List β) (s : State) :
    CountStands s.base (l.foldl f s).base := by
  induction l generalizing s with
  | nil => exact .refl _
  | cons e l ih => exact (hf s e).trans (ih _)

theorem countStands_writeCompletion (h r : Nat) (s : State) (d : Desc) : CountStands s.base (s.writeCompletion h r d).base := by
  have hrejected : (Reg.cmdRejected_COUNT h).key % 4096 ≠ 0x50 := by show (0x14054 + 4096 * h) % 4096 ≠ 0x50; omega
  have haborted : (Reg.cmdAborted_COUNT h).key % 4096 ≠ 0x50 := by show (0x14058 + 4096 * h) % 4096 ≠ 0x50; omega
  unfold State.writeCompletion
  split
  · split
    · exact .refl _
    · exact ((CountStands.emit s.base _).trans (.ite _ (.count _ _ _ hrejected) (.refl _))).trans (.ite _ (.count _ _ _ haborted) (.refl _))
  · exact .refl _

theorem countStands_drain (s : State) (h r : Nat) : CountStands s.base (s.drain h r).base := by
  simp only [State.drain]
  split
  · exact .refl _
  · have hwrites := countStands_foldl _ (countStands_writeCompletion h r) (splitDone (s.ctxOf h) [] (s.ring h r).flight).1
      (s.setRing h r { s.ring h r with flight := (splitDone (s.ctxOf h) [] (s.ring h r).flight).2 })
    split
    · exact hwrites.trans (.msix _ _ _)
    · exact hwrites

theorem countStands_rejectMalformed (h r n : Nat) (s : State) : CountStands s.base (State.rejectMalformed h r n s).base := by
  induction n generalizing s with
  | zero => exact .refl _
  | succ n ih =>
    simp only [State.rejectMalformed]
    split
    · exact .refl _
    · split
      · refine CountStands.trans ?_ (ih _)
        exact .violation s.base _ _ _ _
      · exact .refl _

theorem countStands_refreshHost (s : State) (h : Nat) : CountStands s.base (s.refreshHost h).base :=
  ((CountStands.busyIf _ _ _).trans (.busyIf _ _ _)).trans (.busyIf _ _ _)

theorem countStands_settleRing (s : State) (h r : Nat) : CountStands s.base (s.settleRing h r).base :=
  ((countStands_rejectMalformed h r _ s).trans (countStands_foldl _ (fun x q => countStands_drain x h q) _ _)).trans (countStands_refreshHost _ h)

theorem countStands_answer (s : State) (h r : Nat) (d : Desc) (c : Option Nat) (st info : Nat) : CountStands s.base (s.answer h r d c st info).base :=
  .ite _ (.violation _ _ _ _ _) (.refl _)

/-! ## What a rollback takes back -/

/-- From `s` to `t` the scenes stand, and TXN_ROLLBACK does. -/
structure BesideScenes (s t : State) : Prop where
  scenes : t.scenes = s.scenes
  count : CountStands s.base t.base

namespace BesideScenes

variable {s t u : State}

theorem refl (s : State) : BesideScenes s s := ⟨rfl, .refl _⟩

theorem trans (h1 : BesideScenes s t) (h2 : BesideScenes t u) : BesideScenes s u := ⟨h2.scenes.trans h1.scenes, h1.count.trans h2.count⟩

theorem foldl {β : Type} (f : State → β → State) (hf : ∀ x e, BesideScenes x (f x e)) (l : List β) (s : State) : BesideScenes s (l.foldl f s) := by
  induction l generalizing s with
  | nil => exact .refl s
  | cons e l ih => exact (hf s e).trans (ih _)

theorem onBase (s : State) (f : Base → Base) (hf : CountStands s.base (f s.base)) : BesideScenes s (s.onBase f) := ⟨rfl, hf⟩

/-- A change of neither the scenes nor the common core. -/
theorem elsewhere (hs : t.scenes = s.scenes := by rfl) (hb : t.base = s.base := by rfl) : BesideScenes s t := ⟨hs, by rw [hb]; exact .refl _⟩

end BesideScenes

/-- The descriptors of the transaction complete (R263). -/
theorem besideScenes_finishAll (s : State) (h st : Nat) (p : Desc → Bool) : BesideScenes s (s.finishAll h st p) :=
  .foldl _ (fun _ _ => .elsewhere) _ s

/-- The 2D operation stops (R321). -/
theorem besideScenes_twdEnd (s : State) (h st op tag : Nat) : BesideScenes s (s.twdEnd h st op tag) := by
  have hdone : (0x1C07C + 4096 * h) % 4096 ≠ 0x50 := by omega
  have htag : (0x1C080 + 4096 * h) % 4096 ≠ 0x50 := by omega
  have htime : (0x1C084 + 4096 * h) % 4096 ≠ 0x50 := by omega
  have hops : (0x1C088 + 4096 * h) % 4096 ≠ 0x50 := by omega
  have hnoop : (0x1C08C + 4096 * h) % 4096 ≠ 0x50 := by omega
  refine ⟨rfl, CountStands.trans ?_ (.raise _ _ _)⟩
  have hreport := ((((CountStands.put s.base (Reg.twdDone_OP h) op hdone).trans (.put _ (Reg.twdDone_STATUS h) st hdone)).trans
    (.setWord _ (Reg.twdDoneTag h) (BitVec.ofNat 32 tag) htag)).trans (.setWord _ (Reg.twdDoneTime h) (BitVec.ofNat 32 s.base.now) htime)).trans
    (.count _ (Reg.twdOps_COUNT h) 1 hops)
  exact .ite _ (hreport.trans (.count _ _ _ hnoop)) hreport

/-- Its DECODEs and their jobs leave the codec (R155). -/
theorem besideScenes_dropDecodes (s : State) (p : Decode → Bool) : BesideScenes s (s.dropDecodes p) := by
  rw [dropDecodes_eq]
  refine BesideScenes.trans (.elsewhere) (.foldl _ (fun x e => ?_) _ _)
  unfold dropStep
  split
  · split
    · refine BesideScenes.trans (t := x.setEngine e ((x.engine e).free x.base.ticks)) .elsewhere (.onBase _ _ (.ite _ (.setOwn _ _ _) (.refl _)))
    · exact .refl x
  · exact .refl x

/-- Its uploads are released (R252). -/
theorem besideScenes_releaseUploads (s : State) (h t : Nat) : BesideScenes s (s.releaseUploads h t) := by
  simp only [State.releaseUploads]
  refine .foldl _ (fun x u => ?_) _ s
  exact ⟨rfl, .giveUse x.base h 5 _⟩

/-- A rollback frees the transaction's handle and leaves the other scenes and the count. -/
theorem rollback_scenes {s : State} {h t : Nat} {x : Txn} (hx : s.txn h t = some x) :
    (s.rollback h t).scenes = (s.setTxn h t none).scenes ∧ CountStands s.base (s.rollback h t).base := by
  have hdrop := (besideScenes_dropDecodes s (fun d => d.host == h && d.txn == t)).trans (besideScenes_releaseUploads _ h t)
  simp only [State.rollback, hx]
  generalize State.releaseUploads _ h t = u at hdrop
  refine ⟨?_, hdrop.count.trans ?_⟩
  · show (u.setTxn h t none).scenes = _
    rw [State.setTxn, hdrop.scenes]
    rfl
  · exact (((((CountStands.giveUse _ _ _ _).trans (.giveUse _ _ _ _)).trans (.giveUse _ _ _ _)).trans (.giveUse _ _ _ _)).trans
      (.giveUse _ _ _ _)).trans (.raise _ _ _)

/-! ## TX_ABORT -/

/-- The 2D operation of a transaction stops as TX_ABORT stops it. -/
def opStopped (s : State) (h t st : Nat) : State :=
  match s.twdOp h with
  | some o => if o.txn = t then s.twdEnd h st o.op o.tag else s
  | none => s

theorem besideScenes_opStopped (s : State) (h t st : Nat) : BesideScenes s (opStopped s h t st) := by
  unfold opStopped
  split
  · split
    · exact besideScenes_twdEnd s h st _ _
    · exact .refl s
  · exact .refl s

/-- The end of a transaction, step by step (R263). -/
theorem abortTxn_eq {s : State} {h t : Nat} {x : Txn} (upto st : Nat) (hx : s.txn h t = some x) : s.abortTxn h t upto st =
    ((opStopped (s.finishAll h stROLLBACK (s.belongs h t upto)) h t st).onBase (·.count (Reg.txnRollback_COUNT h) 1)).rollback h t := by
  simp only [State.abortTxn, hx, Option.isSome_some, if_true]
  rfl

theorem CountStands.get_rollback {b c : Base} (hc : CountStands b c) (h : Nat) : c.get (Reg.txnRollback_COUNT h) = b.get (Reg.txnRollback_COUNT h) := by
  rw [Base.get, Base.get, hc.word _ (by show (0x18050 + 4096 * h) % 4096 = 0x50; omega)]

/-- The end of a transaction frees its handle, leaves the other scenes, and is counted. -/
theorem abortTxn_scenes {s : State} {h t : Nat} {x : Txn} (upto st : Nat) (hx : s.txn h t = some x) :
    (s.abortTxn h t upto st).scenes = (s.setTxn h t none).scenes ∧
      (s.abortTxn h t upto st).base.get (Reg.txnRollback_COUNT h) = min (2 ^ 32 - 1) (s.base.get (Reg.txnRollback_COUNT h) + 1) := by
  have hstop := (besideScenes_finishAll s h stROLLBACK (s.belongs h t upto)).trans (besideScenes_opStopped _ h t st)
  rw [abortTxn_eq upto st hx]
  generalize opStopped _ h t st = v at hstop
  obtain ⟨hscenes, hcount⟩ := rollback_scenes (s := v.onBase (·.count (Reg.txnRollback_COUNT h) 1)) (h := h) (t := t) (x := x)
    (by rw [txn_onBase, State.txn, hstop.scenes]; exact hx)
  refine ⟨hscenes.trans ?_, ?_⟩
  · simp only [State.setTxn, State.onBase, hstop.scenes]
  · rw [hcount.get_rollback, onBase_base, get_count_same _ (Reg.txnRollback_COUNT h), hstop.count.get_rollback]

theorem txAbort_takes {s : State} {h : Fin 4} {r : Fin 16} {d : Desc} {x : Txn} (hr : s.ready h r 0x03 d)
    (hw : swf (fun _ => none) s.scenes.txns = true) (hhandle : d.txn < 256) (hx : s.txn h d.txn = some x) :
    ∃ t, exec (.txAbort h r) s = .next t ∧ t.txn h d.txn = none ∧ t.completed h r d ∧ t.sealedScene = s.sealedScene ∧
      t.base.get (Reg.txnRollback_COUNT h) = min (2 ^ 32 - 1) (s.base.get (Reg.txnRollback_COUNT h) + 1) := by
  obtain ⟨hscenes, hcount⟩ := abortTxn_scenes d.id stROLLBACK hx
  have hrun : State.runTxAbort h r d s = (s.abortTxn h d.txn d.id stROLLBACK).answer h r d none stOK 0 := by
    simp only [State.runTxAbort, hhandle, hx, decide_true, Option.isSome_some, Bool.and_self, if_true]
  generalize s.abortTxn h d.txn d.id stROLLBACK = v at hscenes hcount hrun
  have hcanon : swf (fun _ => none) v.scenes.txns = true := by
    rw [hscenes]
    exact canon_setTxn s h d.txn none hw
  have hfree : v.txn h d.txn = none := by
    rw [State.txn, hscenes, ← State.txn, txn_setTxn_same]
  have hrow := (ringRow_ready s h r 0x03 d (State.runTxAbort h r) hr).trans (by rw [hrun])
  have A := after_answer h r d none stOK 0 h (.refl v) hcanon
  refine ⟨_, congrArg Host.Outcome.next hrow, ?_, completed_answer v h r d none stOK 0 h, A.sealed.trans ?_, ?_⟩
  · exact Option.map_eq_none_iff.mp ((A.txn h d.txn).trans (congrArg _ hfree))
  · rw [State.sealedScene, hscenes]
    rfl
  · rw [judge_base, ((countStands_answer v h r d none stOK 0).trans (countStands_settleRing _ h r)).get_rollback, hcount]

/-- TX_ABORT of a handle out of range or of no transaction. -/
theorem txAbort_refused {s : State} {h : Fin 4} {r : Fin 16} {d : Desc} (hr : s.ready h r 0x03 d) (hw : swf (fun _ => none) s.scenes.txns = true)
    (hnone : 255 < d.txn ∨ s.txn h d.txn = none) : ∃ t, exec (.txAbort h r) s = .next t ∧ s.refuses t h r d stTXN 0 := by
  have hno : ¬ (decide (d.txn < 256) && (s.txn h d.txn).isSome) = true := by
    rcases hnone with hrange | hfree
    · simp only [Bool.and_eq_true, decide_eq_true_eq, not_and_or]
      exact .inl (Nat.not_lt.mpr hrange)
    · simp only [hfree, Option.isSome_none, Bool.and_false, Bool.false_eq_true, not_false_iff]
  exact ⟨_, rfl, refused_ringRow hr hw (if_neg hno)⟩

/-- Settles O15: the transaction's work is taken back, its handle freed and the rollback counted; without the transaction the command is refused. -/
theorem txAbortRollsTheTransactionBack : Obligations.TxAbortRollsTheTransactionBack :=
  ⟨fun _ _ _ _ _ hr hw => txAbort_takes hr hw, fun _ _ _ _ hr hw => txAbort_refused hr hw⟩

end Sys2Proof.Proofs

/-! O19: a doorbell (R246, R227), RUN and DISCARD (R270, R273): what a taken write of RING_TAIL or RING_CTRL does to its ring. -/

namespace Sys2Proof.Proofs

open Sys2Proof Sys2Proof.Machine Sys2Proof.Laws

/-! ## What settling a ring leaves -/

/-- Settling a ring keeps the rings' registers, the time, what the links carry and every pending event, and takes back nothing sent. -/
theorem calm_settleRing (s : State) (h r : Nat) : Calm s.base (s.settleRing h r).base := by
  have hafter := calm_after s h r h
  rwa [judge_base] at hafter

theorem held_mark (s : State) (h r id k q : Nat) (f : Desc → Desc) : ((s.mark h r id f).ring k q).held = (s.ring k q).held := by
  simp only [State.mark, ring_setRing]
  split
  · rename_i hk
    simp only [State.ring, hk]
  · rfl

theorem held_rejectMalformed (h r n k q : Nat) (s : State) : ((State.rejectMalformed h r n s).ring k q).held = (s.ring k q).held := by
  induction n generalizing s with
  | zero => rfl
  | succ n ih =>
    simp only [State.rejectMalformed]
    split
    · rfl
    · split
      · rw [ih, ring_onBase, held_mark]
      · rfl

theorem held_drain (s : State) (h r k q : Nat) : ((s.drain h r).ring k q).held = (s.ring k q).held := by
  rcases drain_ring s h r k q with e | ⟨hk, e⟩
  · rw [e]
  · rw [e]
    simp only [State.ring, hk]

theorem held_drains (l : List Nat) (s : State) (h k q : Nat) : ((l.foldl (fun x r => State.drain x h r) s).ring k q).held = (s.ring k q).held := by
  induction l generalizing s with
  | nil => rfl
  | cons r l ih => rw [List.foldl_cons, ih, held_drain]

/-- Settling a ring neither begins nor ends a hold (R270). -/
theorem held_settleRing (s : State) (h r k q : Nat) : ((s.settleRing h r).ring k q).held = (s.ring k q).held := by
  unfold State.settleRing State.refreshHost State.drainHost
  rw [ring_onBase, held_drains, held_rejectMalformed]

/-- A ring without an unprocessed descriptor gains none as it settles. -/
theorem flight_settleRing_of_front_none (s : State) (h r : Nat) (hf : (s.ring h r).front = none) :
    ∀ e ∈ ((s.settleRing h r).ring h r).flight, e ∈ (s.ring h r).flight := by
  unfold State.settleRing State.refreshHost State.drainHost
  rw [ring_onBase, rejectMalformed_done h r _ s hf]
  exact flight_sub_drains _ s h h r

/-! ## The registers of a ring -/

theorem ringKey_ctrl (h : Fin 4) (r : Fin 16) : RingKey (Reg.ringCtrl h r) := by unfold RingKey Reg.ringCtrl; omega
theorem ringKey_head (h : Fin 4) (r : Fin 16) : RingKey (Reg.ringHead h r) := by unfold RingKey Reg.ringHead; omega
theorem ringKey_tail (h : Fin 4) (r : Fin 16) : RingKey (Reg.ringTail h r) := by unfold RingKey Reg.ringTail; omega

theorem fieldOk_run (h r : Nat) : FieldOk (Reg.ringCtrl_RUN h r) := ⟨show 0 ≤ 0 by decide, show 0 ≤ 31 by decide⟩
theorem fieldOk_halted (h r : Nat) : FieldOk (Reg.ringCtrl_HALTED h r) := ⟨show 1 ≤ 1 by decide, show 1 ≤ 31 by decide⟩
theorem fieldOk_log2 (h r : Nat) : FieldOk (Reg.ringCtrl_LOG2 h r) := ⟨show 16 ≤ 20 by decide, show 20 ≤ 31 by decide⟩
theorem fieldOk_head (h r : Nat) : FieldOk (Reg.ringHead_HEAD h r) := ⟨show 0 ≤ 31 by decide, show 31 ≤ 31 by decide⟩
theorem fieldOk_tail (h r : Nat) : FieldOk (Reg.ringTail_TAIL h r) := ⟨show 0 ≤ 31 by decide, show 31 ≤ 31 by decide⟩

/-- A field of a ring's register reads as before. -/
theorem get_of_calm {b c : Base} (hc : Calm b c) {f : FieldRef} (hf : RingKey f.key) : c.get f = b.get f := by
  rw [Base.get, Base.get, hc.word _ hf]

theorem flag_of_calm {b c : Base} (hc : Calm b c) {f : FieldRef} (hf : RingKey f.key) : c.flag f = b.flag f := by
  rw [Base.flag, Base.flag, get_of_calm hc hf]

theorem ringTail_unstaged : ∀ (h : Fin 4) (r : Fin 16), unstaged (Reg.ringTail h r) = true := by decide +kernel
theorem ringCtrl_unstaged : ∀ (h : Fin 4) (r : Fin 16), unstaged (Reg.ringCtrl h r) = true := by decide +kernel
theorem ringTail_shared : ∀ (h : Fin 4) (r : Fin 16), perHostReg (Reg.ringTail h r) = false := by decide +kernel
theorem ringCtrl_shared : ∀ (h : Fin 4) (r : Fin 16), perHostReg (Reg.ringCtrl h r) = false := by decide +kernel

/-- RING_CTRL.RUN. -/
def runField : Fld := ⟨"RUN", 0, 0, .rw, 0, .val 0, []⟩

/-- The fields of RING_CTRL (Table 9.12), RUN the last. -/
theorem ringCtrl_fields : ∀ (h : Fin 4) (r : Fin 16), (descAt (Reg.ringCtrl h r)).map (·.flds) = some
    ([⟨"VECTOR", 31, 24, .rw, 1, .kept, [(1, 0xFF)]⟩, ⟨"LOG2", 20, 16, .rw, 6, .kept, [(6, 0x10)]⟩, ⟨"DISCARD", 2, 2, .w1s, 0, .val 0, []⟩,
      ⟨"HALTED", 1, 1, .ro, 0, .kept, []⟩] ++ [runField]) := by decide +kernel

/-! ## A write of a register without staged fields -/

/-- A field that waits for no seal is written without regard to the staged word. -/
theorem applyField_staged (val : Nat) (be : BitVec 4) (x : Applied) (w : Nat) {f : Fld} (hf : f.acc ≠ .rws) :
    applyField val be { x with staged := w } f = { applyField val be x f with staged := w } := by
  unfold applyField
  split
  · rfl
  · cases ha : f.acc with
    | rws => exact absurd ha hf
    | rw => dsimp only; split <;> rfl
    | ro | rc | w1c | w1s | wo => rfl

theorem applyWrite_staged {d : RegDesc} (hd : ∀ f ∈ d.flds, f.acc ≠ .rws) (old w v : Nat) (a : RegWr) :
    applyWrite d old w a = { applyWrite d old v a with staged := w } := by
  have hfold (l : List Fld) (x : Applied) (hl : ∀ f ∈ l, f.acc ≠ .rws) :
      l.foldl (applyField a.val.toNat a.be) { x with staged := w } = { l.foldl (applyField a.val.toNat a.be) x with staged := w } := by
    induction l generalizing x with
    | nil => rfl
    | cons f l ih =>
      rw [List.foldl_cons, List.foldl_cons, applyField_staged _ _ _ _ (hl f (by simp)), ih _ fun g hg => hl g (by simp [hg])]
  exact hfold d.flds ⟨old, v, 0, false, false⟩ hd

/-- A taken write of such a register stores the same word whatever staged word it is given. -/
theorem regWrite_taken {s : State} {key : Nat} {a : RegWr} (w : Nat) (ha : s.accepts key a = true) (hu : unstaged key = true) :
    ∃ b act old rws, s.base.regWrite key w a = .applied b act old (s.applied key a).word rws := by
  simp only [State.accepts, Bool.and_eq_true, Bool.not_eq_true'] at ha
  obtain ⟨⟨⟨⟨⟨hvisible, hwritable⟩, hmay⟩, _⟩, _⟩, hlegal⟩ := ha
  cases hd : descAt key with
  | none => simp [hd] at hwritable
  | some d =>
    have hflds : ∀ f ∈ d.flds, f.acc ≠ .rws := by
      simpa only [unstaged, hd, Option.map_some, Option.getD_some, List.all_eq_true, bne_iff_ne] using hu
    have happlied : s.applied key a = { applyWrite d (s.base.word (storeKey a.host.toNat key)).toNat w a with staged := (s.sealWord key).toNat } := by
      simp only [State.applied, hd]
      exact applyWrite_staged hflds _ _ w a
    simp only [happlied] at hlegal ⊢
    simp only [hd, Option.map_some, Option.getD_some] at hwritable
    simp only [Base.regWrite, hvisible, if_true, hd, hwritable, hmay, hlegal, Bool.not_true, Bool.false_eq_true, if_false, Bool.false_and]
    exact ⟨_, _, _, _, rfl⟩

/-! ## RING_TAIL (R246) -/

/-- A doorbell within the ring's room. -/
theorem doorbell_published {s : State} {h r new : Nat} (a : RegWr) (hnew : new ≠ s.base.get (Reg.ringTail_TAIL h r))
    (hroom : sub32 new (s.base.get (Reg.ringTail_TAIL h r)) ≤ 2 ^ s.base.get (Reg.ringCtrl_LOG2 h r) - s.backlogOf h r) :
    s.doorbell h r a new = (s.onBase (·.put (Reg.ringTail_TAIL h r) new)).setRing h r
      { s.ring h r with stamps := addStamp (s.ring h r).stamps new s.freshTicks } := by
  simp only [State.doorbell, if_neg hnew, if_pos hroom]

theorem ringTail_published {s : State} {h : Fin 4} {r : Fin 16} {a : RegWr} (ha : s.accepts (Reg.ringTail h r) a = true)
    (hnew : (s.applied (Reg.ringTail h r) a).word ≠ s.base.get (Reg.ringTail_TAIL h r))
    (hroom : sub32 (s.applied (Reg.ringTail h r) a).word (s.base.get (Reg.ringTail_TAIL h r)) ≤
      2 ^ s.base.get (Reg.ringCtrl_LOG2 h r) - s.backlogOf h r) :
    ∃ t, exec (.ringTail h r a) s = .next t ∧
      t.base.get (Reg.ringTail_TAIL h r) = (s.applied (Reg.ringTail h r) a).word % 2 ^ 32 ∧
      (t.ring h r).stamps = addStamp (s.ring h r).stamps (s.applied (Reg.ringTail h r) a).word s.freshTicks ∧
      (t.ring h r).flight = (s.ring h r).flight ∧
      (∀ k, k ≠ Reg.ringTail h r → t.base.word k = s.base.word k) ∧ t = { s with rings := t.rings, base := t.base } := by
  obtain ⟨_, _, _, _, hwrite⟩ := regWrite_taken 0 ha (ringTail_unstaged h r)
  have hrow : s.tailWrite h r a = s.doorbell h r a (s.applied (Reg.ringTail h r) a).word := by
    rw [State.tailWrite, hwrite]
  refine ⟨_, congrArg Host.Outcome.next (hrow.trans (doorbell_published a hnew hroom)), ?_, ?_, ?_, fun k hk => ?_, rfl⟩
  · exact get_put_same s.base (Reg.ringTail_TAIL h r) _ (fieldOk_tail h r)
  · rw [ring_setRing, if_pos rfl]
  · rw [ring_setRing, if_pos rfl]
  · exact word_put_ne s.base (Reg.ringTail_TAIL h r) _ hk.symm

/-! ## RING_CTRL (R270, R273) -/

/-- LOG2 returned to what it was, and the refusal recorded, when the write would change it while RUN is 1. -/
def log2Guarded (s : State) (h r : Nat) (a : RegWr) (x : State) : State :=
  if s.base.flag (Reg.ringCtrl_RUN h r) &&
      bits (s.base.word (Reg.ringCtrl h r)).toNat 20 16 != bits (s.applied (Reg.ringCtrl h r) a).word 20 16 then
    x.onBase (fun b => (b.put (Reg.ringCtrl_LOG2 h r) (bits (s.base.word (Reg.ringCtrl h r)).toNat 20 16)).refuse
      a.host.toNat (Reg.ringCtrl h r) vNOTPERM a.val)
  else x

/-- The ring after the DISCARD of a write, if it has one. -/
def discardStage (s : State) (h r : Nat) (a : RegWr) : State :=
  if (s.applied (Reg.ringCtrl h r) a).act.testBit 2 then (log2Guarded s h r a (s.stored (Reg.ringCtrl h r) a)).ringDiscard h r
  else log2Guarded s h r a (s.stored (Reg.ringCtrl h r) a)

/-- The ring after the RUN of a write, if it has one. -/
def runStage (s : State) (h r : Nat) (a : RegWr) : State :=
  if a.be.toNat.testBit 0 && a.val.toNat.testBit 0 then (discardStage s h r a).ringRun h r else discardStage s h r a

section

variable {s : State} {h : Fin 4} {r : Fin 16} {a : RegWr}

/-- A taken write of RING_CTRL: its word, then DISCARD, then RUN, and the ring settles. -/
theorem ringCtrlWrite_taken (ha : s.accepts (Reg.ringCtrl h r) a = true) : s.ringCtrlWrite h r a = (runStage s h r a).settleRing h r := by
  unfold State.ringCtrlWrite
  rw [write_accepted s _ a _ ha (touchesRws_of_unstaged (ringCtrl_unstaged h r) a.be), storeKey_shared (ringCtrl_shared h r)]
  rfl

theorem ringOnly_log2Guarded (x : State) : RingOnly x (log2Guarded s h r a x) := by
  unfold log2Guarded
  split
  · exact ringOnly_onBase x _
  · exact .refl x

theorem ringOnly_ringDiscard (x : State) (h r : Nat) : RingOnly x (x.ringDiscard h r) := rfl

theorem ringOnly_ringRun (x : State) (h r : Nat) : RingOnly x (x.ringRun h r) := rfl

theorem ringOnly_discardStage (s : State) (h : Fin 4) (r : Fin 16) (a : RegWr) : RingOnly s (discardStage s h r a) := by
  have hword : RingOnly s (log2Guarded s h r a (s.stored (Reg.ringCtrl h r) a)) := (ringOnly_onBase s _).trans (ringOnly_log2Guarded _)
  unfold discardStage
  split
  · exact hword.trans (ringOnly_ringDiscard _ h r)
  · exact hword

theorem ringOnly_runStage (s : State) (h : Fin 4) (r : Fin 16) (a : RegWr) : RingOnly s (runStage s h r a) := by
  unfold runStage
  split
  · exact (ringOnly_discardStage s h r a).trans (ringOnly_ringRun _ h r)
  · exact ringOnly_discardStage s h r a

/-! ### RUN -/

/-- Byte 0 enabled, bit 0 of the merged word is the bit written. -/
theorem mergeBytes_bit0 (old : Nat) (val : Nat) {be : BitVec 4} (hbe : be.toNat.testBit 0 = true) (hval : val.testBit 0 = true) :
    mergeBytes old val be % 2 = 1 := by
  have hmask : ∀ be : BitVec 4, be.toNat.testBit 0 = true → (beMask be).testBit 0 = true := by decide
  have hbit : (mergeBytes old val be).testBit 0 = true := by
    rw [mergeBytes, Nat.testBit_mod_two_pow, Nat.testBit_or, Nat.testBit_and _ (beMask be), hval, hmask be hbe]
    simp
  simpa using hbit

/-- A write of 1 to RUN stores it. -/
theorem applyField_run (x : Applied) (hbe : a.be.toNat.testBit 0 = true) (hval : a.val.toNat.testBit 0 = true) :
    (applyField a.val.toNat a.be x runField).word % 2 = 1 := by
  have hmask : ∀ be : BitVec 4, be.toNat.testBit 0 = true → ¬ runField.mask &&& beMask be = 0 := by decide
  have hrun := mergeBytes_bit0 x.word a.val.toNat hbe hval
  unfold applyField
  rw [if_neg (hmask a.be hbe)]
  simp only [runField, Fld.allows, List.isEmpty_nil, Bool.true_or, if_true, bits_eq, pow_zero, Nat.div_one, Nat.mul_one, Nat.zero_add,
    Nat.sub_zero, pow_one, hrun]
  omega

theorem run_applied (hbe : a.be.toNat.testBit 0 = true) (hval : a.val.toNat.testBit 0 = true) : (s.applied (Reg.ringCtrl h r) a).word % 2 = 1 := by
  obtain ⟨d, hd, hflds⟩ := Option.map_eq_some_iff.mp (ringCtrl_fields h r)
  simp only [State.applied, hd, applyWrite, hflds, List.foldl_append, List.foldl_cons, List.foldl_nil]
  exact applyField_run _ hbe hval

theorem run_stored (hbe : a.be.toNat.testBit 0 = true) (hval : a.val.toNat.testBit 0 = true) :
    (s.stored (Reg.ringCtrl h r) a).base.flag (Reg.ringCtrl_RUN h r) = true := by
  have hword := run_applied (s := s) (h := h) (r := r) hbe hval
  have hstored := word_stored_same s a (storeKey_shared (ringCtrl_shared h r) a.host.toNat)
  rw [Base.flag, Base.get, show (Reg.ringCtrl_RUN h r).key = Reg.ringCtrl h r from rfl, hstored]
  simp only [getBits, bits_eq, BitVec.toNat_ofNat, Reg.ringCtrl_RUN, pow_zero, Nat.div_one]
  simp
  omega

theorem run_log2Guarded (x : State) : (log2Guarded s h r a x).base.flag (Reg.ringCtrl_RUN h r) = x.base.flag (Reg.ringCtrl_RUN h r) := by
  unfold log2Guarded
  split
  · rw [onBase_base, Base.refuse, flag_of_calm (calm_violation _ _ _ _ _) (ringKey_ctrl h r)]
    exact flag_put_ne x.base _ _ _ (fieldOk_log2 h r) (fieldOk_run h r) (.inr (show 0 < 16 by decide))
  · rfl

/-- A register of the ring other than HEAD and TAIL stands through DISCARD. -/
theorem word_ringDiscard (x : State) {h r k : Nat} (hhead : Reg.ringHead h r ≠ k) (htail : Reg.ringTail h r ≠ k) :
    (x.ringDiscard h r).base.word k = x.base.word k :=
  (word_put_ne _ (Reg.ringTail_TAIL h r) 0 htail).trans (word_put_ne x.base (Reg.ringHead_HEAD h r) 0 hhead)

theorem run_discardStage (hbe : a.be.toNat.testBit 0 = true) (hval : a.val.toNat.testBit 0 = true) :
    (discardStage s h r a).base.flag (Reg.ringCtrl_RUN h r) = true := by
  have hrun := (run_log2Guarded (s := s) (a := a) (s.stored (Reg.ringCtrl h r) a)).trans (run_stored hbe hval)
  unfold discardStage
  split
  · rw [Base.flag, Base.get, word_ringDiscard, ← Base.get, ← Base.flag, hrun]
    · show 0x14214 + 4096 * h.val + 32 * r.val ≠ 0x14210 + 4096 * h.val + 32 * r.val
      omega
    · show 0x14218 + 4096 * h.val + 32 * r.val ≠ 0x14210 + 4096 * h.val + 32 * r.val
      omega
  · exact hrun

/-- RUN of a taken write ends the hold and HALTED. -/
theorem ringRun_taken (ha : s.accepts (Reg.ringCtrl h r) a = true) (hbe : a.be.toNat.testBit 0 = true) (hval : a.val.toNat.testBit 0 = true) :
    ∃ t, exec (.ringRun h r a) s = .next t ∧ (t.ring h r).held = false ∧ t.base.flag (Reg.ringCtrl_RUN h r) = true ∧
      t.base.flag (Reg.ringCtrl_HALTED h r) = false ∧ t = { s with rings := t.rings, base := t.base } := by
  have hstage : runStage s h r a = (discardStage s h r a).ringRun h r := by
    simp only [runStage, hbe, hval, Bool.and_self, if_true]
  have hcalm := calm_settleRing (runStage s h r a) h r
  refine ⟨_, congrArg Host.Outcome.next (ringCtrlWrite_taken ha), ?_, ?_, ?_, (ringOnly_runStage s h r a).trans (ringOnly_settleRing _ h r)⟩
  · rw [held_settleRing, hstage, State.ringRun, ring_onBase, ring_setRing, if_pos rfl]
  · rw [flag_of_calm hcalm (ringKey_ctrl h r), hstage]
    refine (flag_put_ne _ _ _ _ (fieldOk_halted h r) (fieldOk_run h r) (.inr (show 0 < 1 by decide))).trans ?_
    exact run_discardStage hbe hval
  · rw [flag_of_calm hcalm (ringKey_ctrl h r), hstage]
    exact flag_putFlag_same _ (Reg.ringCtrl_HALTED h r) false rfl (fieldOk_halted h r).2

/-! ### DISCARD -/

/-- A descriptor that DISCARD leaves in its ring: in progress, its completion to be dropped. -/
def Dropping (x : Ring) : Prop := ∀ e ∈ x.flight, e.st = .accepted ∧ e.drop = true

theorem Dropping.front {x : Ring} (hx : Dropping x) : x.front = none := by
  refine List.find?_eq_none.mpr fun e he => ?_
  rw [(hx e he).1]
  decide

theorem dropping_ringDiscard (x : State) (h r : Nat) : Dropping ((x.ringDiscard h r).ring h r) := by
  rw [State.ringDiscard, ring_onBase, ring_setRing, if_pos rfl]
  intro e he
  obtain ⟨y, _, hy⟩ := List.mem_filterMap.mp he
  split at hy
  · rename_i hst
    cases hy
    exact ⟨hst, rfl⟩
  · cases hy

theorem head_ringDiscard (x : State) (h : Fin 4) (r : Fin 16) : (x.ringDiscard h r).base.get (Reg.ringHead_HEAD h r) = 0 := by
  refine (get_put_key _ (Reg.ringTail_TAIL h r) _ _ ?_).trans (get_put_same x.base _ _ (fieldOk_head h r))
  show 0x14218 + 4096 * h.val + 32 * r.val ≠ 0x14214 + 4096 * h.val + 32 * r.val
  omega

theorem tail_ringDiscard (x : State) (h r : Nat) : (x.ringDiscard h r).base.get (Reg.ringTail_TAIL h r) = 0 :=
  get_put_same (x.base.put (Reg.ringHead_HEAD h r) 0) (Reg.ringTail_TAIL h r) 0 (fieldOk_tail h r)

/-- RUN changes the ring's hold and its RING_CTRL only. -/
theorem get_ringRun (x : State) {h r : Nat} {f : FieldRef} (hf : Reg.ringCtrl h r ≠ f.key) : (x.ringRun h r).base.get f = x.base.get f :=
  get_put_key x.base (Reg.ringCtrl_HALTED h r) f _ hf

theorem flight_ringRun (x : State) (h r : Nat) : ((x.ringRun h r).ring h r).flight = (x.ring h r).flight := by
  rw [State.ringRun, ring_onBase, ring_setRing, if_pos rfl]

/-- The ring is empty but for commands in progress once a write with DISCARD has had its effects. -/
theorem runStage_discarded (hact : (s.applied (Reg.ringCtrl h r) a).act.testBit 2 = true) :
    (runStage s h r a).base.get (Reg.ringHead_HEAD h r) = 0 ∧ (runStage s h r a).base.get (Reg.ringTail_TAIL h r) = 0 ∧
      Dropping ((runStage s h r a).ring h r) := by
  obtain ⟨x, hx⟩ : ∃ x : State, discardStage s h r a = x.ringDiscard h r := ⟨_, if_pos hact⟩
  have hhead : Reg.ringCtrl h r ≠ (Reg.ringHead_HEAD h r).key := by
    show 0x14210 + 4096 * h.val + 32 * r.val ≠ 0x14214 + 4096 * h.val + 32 * r.val
    omega
  have htail : Reg.ringCtrl h r ≠ (Reg.ringTail_TAIL h r).key := by
    show 0x14210 + 4096 * h.val + 32 * r.val ≠ 0x14218 + 4096 * h.val + 32 * r.val
    omega
  have hdrop := dropping_ringDiscard x h r
  unfold runStage
  rw [hx]
  split
  · rw [get_ringRun _ hhead, get_ringRun _ htail, Dropping, flight_ringRun]
    exact ⟨head_ringDiscard x h r, tail_ringDiscard x h r, hdrop⟩
  · exact ⟨head_ringDiscard x h r, tail_ringDiscard x h r, hdrop⟩

theorem ringDiscard_taken (ha : s.accepts (Reg.ringCtrl h r) a = true) (hact : (s.applied (Reg.ringCtrl h r) a).act.testBit 2 = true) :
    ∃ t, exec (.ringDiscard h r a) s = .next t ∧ t.base.get (Reg.ringHead_HEAD h r) = 0 ∧ t.base.get (Reg.ringTail_TAIL h r) = 0 ∧
      (∀ e ∈ (t.ring h r).flight, e.st = .accepted ∧ e.drop = true) ∧ t = { s with rings := t.rings, base := t.base } := by
  obtain ⟨hhead, htail, hdrop⟩ := runStage_discarded hact
  have hcalm := calm_settleRing (runStage s h r a) h r
  refine ⟨_, congrArg Host.Outcome.next (ringCtrlWrite_taken ha), (get_of_calm hcalm (ringKey_head h r)).trans hhead,
    (get_of_calm hcalm (ringKey_tail h r)).trans htail, fun e he => ?_, (ringOnly_runStage s h r a).trans (ringOnly_settleRing _ h r)⟩
  exact hdrop e (flight_settleRing_of_front_none _ h r hdrop.front e he)

end

/-- Settles O19: the doorbell, then RUN and DISCARD as the stages of one write of RING_CTRL. -/
theorem ringRegistersMoveTheRing : Obligations.RingRegistersMoveTheRing :=
  ⟨fun _ _ _ _ => ringTail_published, fun _ _ _ _ => ringRun_taken, fun _ _ _ _ => ringDiscard_taken⟩

end Sys2Proof.Proofs

/-! O20: DESCRIPTOR_FETCH (R248, R266, R267) with its two replies, and the end of an overload window (R268). -/

namespace Sys2Proof.Proofs

open Sys2Proof Sys2Proof.Machine Sys2Proof.Laws

/-! ## Identities of descriptors (R248) -/

theorem nextId_drain (s : State) (h r : Nat) : (s.drain h r).rings.nextId = s.rings.nextId := by
  simp only [State.drain]
  split
  · rfl
  · have hwrites := congrArg Rings.nextId (writeCompletions_rings h r (splitDone (s.ctxOf h) [] (s.ring h r).flight).1
      (s.setRing h r { s.ring h r with flight := (splitDone (s.ctxOf h) [] (s.ring h r).flight).2 }))
    split
    · exact hwrites
    · exact hwrites

theorem nextId_drains (l : List Nat) (s : State) (h : Nat) : (l.foldl (fun x r => State.drain x h r) s).rings.nextId = s.rings.nextId := by
  induction l generalizing s with
  | nil => rfl
  | cons r l ih => rw [List.foldl_cons, ih, nextId_drain]

theorem nextId_rejectMalformed (h r n : Nat) (s : State) : (State.rejectMalformed h r n s).rings.nextId = s.rings.nextId := by
  induction n generalizing s with
  | zero => rfl
  | succ n ih =>
    simp only [State.rejectMalformed]
    split
    · rfl
    · split
      · rw [ih]
        rfl
      · rfl

/-- Settling a ring gives no identity away. -/
theorem nextId_settleRing (s : State) (h r : Nat) : (s.settleRing h r).rings.nextId = s.rings.nextId := by
  unfold State.settleRing State.refreshHost State.drainHost
  rw [onBase_rings, nextId_drains, nextId_rejectMalformed]

/-! ## Credit (R266) -/

/-- Two states that differ in the hosts' credit only. -/
def CreditOnly (s t : State) : Prop := t = { s with rings := { s.rings with credit := t.rings.credit } }

theorem CreditOnly.setCredit {s t : State} (hst : CreditOnly s t) (h : Nat) (c : Int) : CreditOnly s (t.setCredit h c) := by
  unfold CreditOnly at *
  rw [hst]
  rfl

theorem creditOnly_creditRounds (s : State) : CreditOnly s s.creditRounds := by
  simp only [State.creditRounds]
  split
  · rfl
  · exact List.foldlRecOn (motive := CreditOnly s) _ _ rfl fun x hx h _ => hx.setCredit h _

theorem CreditOnly.base {s t : State} (hst : CreditOnly s t) : t.base = s.base := by rw [hst]
theorem CreditOnly.nextId {s t : State} (hst : CreditOnly s t) : t.rings.nextId = s.rings.nextId := by rw [hst]
theorem CreditOnly.ringOnly {s t : State} (hst : CreditOnly s t) : RingOnly s t := by
  unfold CreditOnly at hst
  unfold RingOnly
  rw [hst]

/-! ## DESCRIPTOR_FETCH -/

section

variable {s : State} {h : Fin 4} {r : Fin 16}

/-- The request that a fetch of `n` descriptors sends. -/
def fetchRequest (s : State) (h r n : Nat) : Output :=
  .hostRead h (s.base.addr64 (Reg.ringBaseLo h r) (Reg.ringBaseHi h r) +
    s.base.get (Reg.ringHead_HEAD h r) % 2 ^ s.base.get (Reg.ringCtrl_LOG2 h r) * 64) (64 * n)

/-- The state with the descriptors of a fetch in their ring and the turn passed on. -/
def fetched (s : State) (h r : Nat) (bs : List Byte) (k : Nat) : State := ((s.fetchRead h r k).enqueue h r bs k).passTurn h r

theorem ringOnly_rings (s : State) (x : Rings) : RingOnly s { s with rings := x } := rfl

theorem ringOnly_enqueue (s : State) (h r : Nat) (bs : List Byte) (k : Nat) : RingOnly s (s.enqueue h r bs k) := by
  simp only [State.enqueue]
  exact (((ringOnly_setRing s h r _).trans (ringOnly_rings _ _)).trans (ringOnly_onBase _ _)).trans (ringOnly_rings _ _)

theorem ringOnly_fetched (s : State) (h r : Nat) (bs : List Byte) (k : Nat) : RingOnly s (fetched s h r bs k) :=
  ((ringOnly_onBase s _).trans (ringOnly_enqueue (s.fetchRead h r k) h r bs k)).trans (ringOnly_rings _ _)

/-- The request alone, with the turn passed on. -/
theorem ringOnly_requested (s : State) (h r n : Nat) : RingOnly s ((s.fetchRead h r n).passTurn h r) :=
  (ringOnly_onBase s _).trans (ringOnly_rings _ _)

theorem nextId_fetched (s : State) (h r : Nat) (bs : List Byte) (k : Nat) : (fetched s h r bs k).rings.nextId = s.rings.nextId + k := rfl

/-- The common core after a fetch: the request, HEAD moved on, and the count. -/
theorem base_fetched (s : State) (h r : Nat) (bs : List Byte) (k : Nat) : (fetched s h r bs k).base =
    ((s.base.emit (fetchRequest s h r k)).put (Reg.ringHead_HEAD h r) ((s.base.get (Reg.ringHead_HEAD h r) + k) % 2 ^ 32)).count
      (Reg.cmdFetched_COUNT h) k := rfl

theorem head_fetched (s : State) (h : Fin 4) (r : Fin 16) (bs : List Byte) (k : Nat) :
    (fetched s h r bs k).base.get (Reg.ringHead_HEAD h r) = (s.base.get (Reg.ringHead_HEAD h r) + k) % 2 ^ 32 := by
  have hkey : (Reg.cmdFetched_COUNT h).key ≠ (Reg.ringHead_HEAD h r).key := by
    show 0x14050 + 4096 * h.val ≠ 0x14214 + 4096 * h.val + 32 * r.val
    omega
  rw [base_fetched, Base.count, get_put_key _ _ _ _ hkey, get_put_same _ _ _ (fieldOk_head h r)]
  exact Nat.mod_mod _ _

theorem request_fetched (s : State) (h r : Nat) (bs : List Byte) (k : Nat) : fetchRequest s h r k ∈ (fetched s h r bs k).base.out :=
  List.mem_cons_self

/-- A fetch of the ring whose turn it is, with a reply of whole descriptors that the host may fetch and has room for. -/
theorem fetchRow_data {bs : List Byte} {k : Nat} (hfetch : s.creditRounds.fetchable h = true) (hcredit : 0 < s.creditRounds.credit h)
    (hturn : s.creditRounds.turn h = some r.val) (hlen : bs.length = 64 * k) (hk : 0 < k) (hmost : k ≤ s.creditRounds.fetchMost h r)
    (hroom : s.creditRounds.hasRoom 4 h k = true) : s.fetchRow h r (.data bs) = (fetched s.creditRounds h r bs k).settleRing h r := by
  have hcount : bs.length / 64 = k := by omega
  have hwhole : bs.length % 64 = 0 := by omega
  have hsome : (k == 0) = false := beq_false_of_ne (Nat.ne_of_gt hk)
  simp only [State.fetchRow, hfetch, hturn, hcount, hwhole, hroom, hsome, not_le.mpr hcredit, not_lt.mpr hmost, decide_false, bne_self_eq_false,
    Bool.not_true, Bool.or_self, Bool.false_eq_true, if_false, fetched]

theorem descriptorFetch_data {bs : List Byte} {k : Nat} (hfetch : s.creditRounds.fetchable h = true) (hcredit : 0 < s.creditRounds.credit h)
    (hturn : s.creditRounds.turn h = some r.val) (hlen : bs.length = 64 * k) (hk : 0 < k) (hmost : k ≤ s.creditRounds.fetchMost h r)
    (hroom : s.creditRounds.hasRoom 4 h k = true) :
    ∃ t, exec (.descriptorFetch h r (.data bs)) s = .next t ∧
      t.base.get (Reg.ringHead_HEAD h r) = (s.base.get (Reg.ringHead_HEAD h r) + k) % 2 ^ 32 ∧
      t.rings.nextId = s.rings.nextId + k ∧
      Output.hostRead h (s.base.addr64 (Reg.ringBaseLo h r) (Reg.ringBaseHi h r) +
        s.base.get (Reg.ringHead_HEAD h r) % 2 ^ s.base.get (Reg.ringCtrl_LOG2 h r) * 64) (64 * k) ∈ t.base.out ∧
      t = { s with rings := t.rings, base := t.base } := by
  have hrow := fetchRow_data hfetch hcredit hturn hlen hk hmost hroom
  have hc := creditOnly_creditRounds s
  have hcalm := calm_settleRing (fetched s.creditRounds h r bs k) h r
  refine ⟨_, congrArg Host.Outcome.next hrow, ?_, ?_, ?_, ?_⟩
  · rw [get_of_calm hcalm (ringKey_head h r), head_fetched, hc.base]
  · rw [nextId_settleRing, nextId_fetched, hc.nextId]
  · have hsent := hcalm.out _ (request_fetched s.creditRounds h r bs k)
    rwa [fetchRequest, hc.base] at hsent
  · exact (hc.ringOnly.trans (ringOnly_fetched _ h r bs k)).trans (ringOnly_settleRing _ h r)

/-- The common core after a read that failed: the ring halts, with the fault and the error of the request. -/
def fetchFailed (h r : Nat) (c : Fin 4) (b : Base) : Base :=
  (((b.putFlag (Reg.ringCtrl_HALTED h r) true).fault (pgCMD h) 1 (leBytes 1 r ++ [0, 0, 0] ++ leBytes 4 (b.get (Reg.ringHead_HEAD h r)))).raise
    (pgCMD h) 17).dmaError h (some 0) c.val

/-- A request that ended in error leaves the rings' registers (R453, R460). -/
theorem calm_dmaError (b : Base) (h : Nat) (who : Option Nat) (cause : Nat) : Calm b (b.dmaError h who cause) := by
  have hkey : ¬ KeptKey (Reg.hstDmaErr_COUNT h).key := by
    simp only [KeptKey, RingKey, Reg.hstDmaErr_COUNT, Reg.hstDmaErr]
    omega
  have hcount : Calm b (({ b with fresh := b.fresh + 13 } : Base).count (Reg.hstDmaErr_COUNT h) 1) :=
    Calm.trans (b := { b with fresh := b.fresh + 13 }) ⟨fun _ => rfl, rfl, fun _ ho => ho, fun _ _ => rfl, fun _ _ hn => hn⟩ (calm_count _ _ _ hkey)
  simp only [Base.dmaError]
  refine Calm.trans ?_ (calm_violation _ _ _ _ _)
  split
  · exact hcount.trans (calm_fault _ _ _ _)
  · exact hcount

theorem halted_fetchFailed (h : Fin 4) (r : Fin 16) (c : Fin 4) (b : Base) : (fetchFailed h r c b).flag (Reg.ringCtrl_HALTED h r) = true := by
  have hcalm := ((calm_fault (b.putFlag (Reg.ringCtrl_HALTED h r) true) (pgCMD h) 1
    (leBytes 1 r ++ [0, 0, 0] ++ leBytes 4 (b.get (Reg.ringHead_HEAD h r)))).trans (calm_raise _ (pgCMD h) 17)).trans (calm_dmaError _ h (some 0) c.val)
  exact (flag_of_calm hcalm (ringKey_ctrl h r)).trans (flag_putFlag_same b (Reg.ringCtrl_HALTED h r) true rfl (fieldOk_halted h r).2)

theorem descriptorFetch_fail {c : Fin 4} (hfetch : s.creditRounds.fetchable h = true) (hcredit : 0 < s.creditRounds.credit h)
    (hturn : s.creditRounds.turn h = some r.val) :
    ∃ t, exec (.descriptorFetch h r (.fail c)) s = .next t ∧ t.base.flag (Reg.ringCtrl_HALTED h r) = true ∧
      t = { s with rings := t.rings, base := t.base } := by
  have hrow : s.fetchRow h r (.fail c) = ((s.creditRounds.fetchRead h r (s.creditRounds.fetchMost h r)).passTurn h r).onBase (fetchFailed h r c) := by
    simp only [State.fetchRow, hfetch, hturn, not_le.mpr hcredit, decide_false, bne_self_eq_false, Bool.not_true, Bool.or_self,
      Bool.false_eq_true, if_false]
    rfl
  refine ⟨_, congrArg Host.Outcome.next hrow, ?_, ((creditOnly_creditRounds s).ringOnly.trans (ringOnly_requested _ h r _)).trans (ringOnly_onBase _ _)⟩
  rw [onBase_base]
  exact halted_fetchFailed h r c _

end

/-! ## The end of an overload window (R268) -/

/-- The backlog of a host of the device is read from its rings' registers. -/
theorem backlog_calm {s t : State} (hc : Calm s.base t.base) {h : Nat} (hh : h < 4) : t.backlog h = s.backlog h := by
  have hring : ∀ r ∈ List.range 16, t.backlogOf h r = s.backlogOf h r := by
    intro r hr
    have hlt : r < 16 := List.mem_range.mp hr
    simp only [State.backlogOf, get_of_calm hc (f := Reg.ringTail_TAIL h r) (ringKey_tail ⟨h, hh⟩ ⟨r, hlt⟩),
      get_of_calm hc (f := Reg.ringHead_HEAD h r) (ringKey_head ⟨h, hh⟩ ⟨r, hlt⟩)]
  unfold State.backlog
  rw [List.map_congr_left hring]

/-- The state with the samples, the counts of growth and the latches of the windows, and the common core, replaced. -/
def windowJudged (s : State) (prev grow : Sparse Nat) (quiet : Sparse Bool) (b : Base) : State :=
  { s with rings := { s.rings with prev := prev, grow := grow, quiet := quiet }, base := b }

section

variable (s : State) (prev grow : Sparse Nat) (quiet : Sparse Bool) (b : Base)

theorem ringOnly_windowJudged : RingOnly s (windowJudged s prev grow quiet b) := rfl
theorem windowJudged_window : (windowJudged s prev grow quiet b).rings.window = s.rings.window := rfl
theorem windowJudged_prev : (windowJudged s prev grow quiet b).rings.prev = prev := rfl
theorem windowJudged_base : (windowJudged s prev grow quiet b).base = b := rfl

end

/-- One host's window: its backlog is sampled, its growth judged, and nothing else of the rings changes. -/
theorem overloadHost_cases (s : State) (h : Nat) : ∃ grow quiet b, Calm s.base b ∧
    s.overloadHost h = windowJudged s (sput (fun _ => 0) s.rings.prev h (s.backlog h)) grow quiet b := by
  have hkey : ¬ KeptKey (Reg.cmdOverload_DEFICIT h).key := by
    simp only [KeptKey, RingKey, Reg.cmdOverload_DEFICIT, Reg.cmdOverload]
    omega
  unfold State.overloadHost
  extract_lets now prev n latched fires s1
  split
  · exact ⟨_, _, _, (calm_put _ _ _ hkey).trans (calm_raise _ _ _), rfl⟩
  · exact ⟨_, _, _, .refl _, rfl⟩

/-- What the windows of the hosts below `n` leave of the state before them. -/
structure Sampled (n : Nat) (s t : State) : Prop where
  only : RingOnly s t
  window : t.rings.window = s.rings.window
  calm : Calm s.base t.base
  prev : ∀ h < n, h < 4 → sget (fun _ => 0) t.rings.prev h = s.backlog h

theorem Sampled.next {n : Nat} {s t : State} (hs : Sampled n s t) : Sampled (n + 1) s (t.overloadHost n) := by
  obtain ⟨grow, quiet, b, hcalm, hstep⟩ := overloadHost_cases t n
  rw [hstep]
  refine ⟨hs.only.trans (ringOnly_windowJudged ..), (windowJudged_window ..).trans hs.window, ?_, fun h hlt hh => ?_⟩
  · rw [windowJudged_base]
    exact hs.calm.trans hcalm
  · rw [windowJudged_prev, sget_sput]
    split
    · rename_i e
      rw [e]
      exact backlog_calm hs.calm hh
    · rename_i hne
      exact hs.prev h (by omega) hh

theorem sampled_overloads (n : Nat) (s : State) : Sampled n s ((List.range n).foldl State.overloadHost s) := by
  induction n with
  | zero => exact ⟨.refl s, rfl, .refl _, nofun⟩
  | succ n ih =>
    rw [List.range_succ, List.foldl_append]
    exact ih.next

theorem cmdOverload_window {s : State} (hdue : 100 ≤ s.rings.window) :
    ∃ t, exec .cmdOverload s = .next t ∧ t.rings.window = s.rings.window - 100 ∧
      (∀ h, h < s.base.nhosts → h < 4 → sget (fun _ => 0) t.rings.prev h = s.backlog h) ∧ t = { s with rings := t.rings, base := t.base } := by
  have hrow : s.overloadRow = (List.range s.base.nhosts).foldl State.overloadHost { s with rings := { s.rings with window := s.rings.window - 100 } } := by
    rw [State.overloadRow, if_neg (by omega)]
  obtain ⟨honly, hwindow, -, hprev⟩ := sampled_overloads s.base.nhosts { s with rings := { s.rings with window := s.rings.window - 100 } }
  exact ⟨_, congrArg Host.Outcome.next hrow, hwindow, hprev, honly⟩

/-- Settles O20: a fetch by its reply, then the end of a window host by host. -/
theorem fetchAndOverloadWindowAdvance : Obligations.FetchAndOverloadWindowAdvance :=
  ⟨fun _ _ _ _ _ => descriptorFetch_data, fun _ _ _ _ => descriptorFetch_fail, fun _ => cmdOverload_window⟩

end Sys2Proof.Proofs

/-! O39: BAR2 (R298 to R300, Table 10.3), bad requests (Table 16.5) and requests of the device that time out (R453, R460). -/

namespace Sys2Proof.Proofs

open Sys2Proof Sys2Proof.Machine Sys2Proof.Laws

/-! ## What logging writes -/

/-- The register offsets that faults and violations write: UNIT_EVENT, UNIT_FAULT, UNIT_COUNT, and LOST of a host's two logs. -/
def loggedOffsets : List Nat := [0x18, 0x24, 0x28, 0x64, 0x7C]

theorem logLost_logged (i : Nat) : (logLost i).key % 4096 ∈ loggedOffsets := by
  have hfault : (0x10064 + 4096 * (i / 2)) % 4096 = 0x64 := by omega
  have hviolation : (0x1007C + 4096 * (i / 2)) % 4096 = 0x7C := by omega
  unfold logLost
  split
  · simp only [Reg.hstFlogLost_COUNT, Reg.hstFlogLost, hfault]
    decide
  · simp only [Reg.hstVlogLost_COUNT, Reg.hstVlogLost, hviolation]
    decide

theorem hdr_logged {p off : Nat} (ho : off ∈ [0x18, 0x24, 0x28]) : hdr p off % 4096 ∈ loggedOffsets := by
  have hlt : ∀ o ∈ [0x18, 0x24, 0x28], o < 4096 ∧ o ∈ loggedOffsets := by decide
  rw [hdr_mod (hlt off ho).1]
  exact (hlt off ho).2

section

variable {k : Nat} (hk : k % 4096 ∉ loggedOffsets)
include hk

/-- A register at another offset is not one that logging writes. -/
theorem ne_of_logged {j : Nat} (hj : j % 4096 ∈ loggedOffsets) : j ≠ k := fun e => hk (e ▸ hj)

theorem not_eventOffset : k % 4096 ≠ 0x18 := fun e => hk (by rw [e]; decide)

theorem word_logPush_logged (b : Base) (i : Nat) (e : LogEntry) : (b.logPush i e).word k = b.word k :=
  word_logPush_ne b i e (ne_of_logged hk (logLost_logged i)) (not_eventOffset hk)

theorem word_logPushAll_logged (e : LogEntry) (hs : List Nat) (b : Base) : (b.logPushAll e hs).word k = b.word k := by
  induction hs generalizing b with
  | nil => rfl
  | cons h r ih => rw [Base.logPushAll, ih, word_logPush_logged hk]

theorem word_linkViolation_logged (b : Base) (h : Nat) (aer : Byte) (header : List Byte) :
    (b.linkViolation h aer header).word k = b.word k :=
  word_violation_ne b h _ _ _ (ne_of_logged hk (logLost_logged _)) (not_eventOffset hk)

theorem word_fault_logged (b : Base) (p c : Nat) (d : List Byte) : (b.fault p c d).word k = b.word k := by
  have hevent := ne_of_logged hk (hdr_logged (p := p) (off := 0x18) (by decide))
  have hlatch := ne_of_logged hk (hdr_logged (p := p) (off := 0x24) (by decide))
  have hcount := ne_of_logged hk (hdr_logged (p := p) (off := 0x28) (by decide))
  simp only [Base.fault, word_logPushAll_logged hk, Base.raiseMask, word_setEvents, if_neg hevent]
  split
  · exact word_put_ne _ _ _ hcount
  · rw [word_setWord_ne _ _ hlatch, word_put_ne _ _ _ hcount]

end

/-- A fault sets the FAULT event of its page, alone or with COUNT_SAT (R57). -/
theorem event_fault (b : Base) (p c : Nat) (d : List Byte) : ((b.fault p c d).word (hdr p 0x18)).toNat.testBit 1 = true := by
  have hmask (n : Prop) [Decidable n] : (BitVec.ofNat 32 (if n then 6 else 2)).toNat.testBit 1 = true := by split <;> decide
  unfold Base.fault
  extract_lets cnt b1 b2 b3
  refine (calm_logPushAll _ _ _).event p 1 ?_
  rw [show b3 = b2.raiseMask p (if cnt + 1 = 2 ^ 32 - 1 then 6 else 2) from rfl, Base.raiseMask, word_setEvents, if_pos rfl,
    BitVec.toNat_or, Nat.testBit_or, hmask, Bool.or_true]

/-! ## Link errors (R443, R452, R453) -/

/-- The newest violation after a link error: LINK on the host's own page, now, with the AER bit and the header. -/
theorem linkViolation_newest (b : Base) {h : Nat} (hh : h < b.nhosts) (aer : Byte) (header : List Byte) :
    ∃ x, ((b.linkViolation h aer header).logq (2 * h + 1)).waiting.getLast? = some x ∧ x.code = vLINK ∧ x.page = pgHST h ∧
      x.time = b.now ∧ x.detail = detail16 ([aer, 0, 0, 0] ++ header.take 12) := by
  simp only [Base.linkViolation, Base.violation, if_pos hh]
  exact ⟨_, logPush_newest b _ _, rfl, rfl, rfl, rfl⟩

/-- The common core after the answer to a bad request (Table 16.5). -/
def answered (b : Base) (h : Nat) (e : LinkError) : Base :=
  match errorAnswer e with
  | some c => b.emit (.linkError h c)
  | none => b

theorem answered_nhosts (b : Base) (h : Nat) (e : LinkError) : (answered b h e).nhosts = b.nhosts := by
  unfold answered
  split <;> rfl

theorem answered_now (b : Base) (h : Nat) (e : LinkError) : (answered b h e).now = b.now := by
  unfold answered
  split <;> rfl

theorem answer_mem {e : LinkError} {c : Nat} (he : errorAnswer e = some c) (b : Base) (h : Nat) : .linkError h c ∈ (answered b h e).out := by
  simp only [answered, he]
  exact List.mem_cons_self

theorem tlpErrorRow_eq (s : State) (h : Nat) (e : LinkError) (aer : Byte) (header : List Byte) :
    s.tlpErrorRow h e aer header = s.onBase (fun b => (answered b h e).linkViolation h aer header) := by
  rfl

theorem tlpError_answered (s : State) (h : Fin 4) (e : LinkError) (aer : Byte) (header : List Byte) (hh : (h : Nat) < s.base.nhosts) :
    ∃ t x, exec (.tlpError h e aer header) s = .next t ∧ t.lastViolation h = some x ∧ x.code = vLINK ∧ x.page = pgHST h ∧
      x.time = s.base.now ∧ x.detail = detail16 ([aer, 0, 0, 0] ++ header.take 12) ∧
      (∀ c, errorAnswer e = some c → .linkError h c ∈ t.base.out) ∧ t = { s with base := t.base } := by
  obtain ⟨x, hlast, hcode, hpage, htime, hdetail⟩ :=
    linkViolation_newest (answered s.base h e) (hh.trans_eq (answered_nhosts _ _ _).symm) aer header
  exact ⟨_, x, congrArg Host.Outcome.next (tlpErrorRow_eq s h e aer header), hlast, hcode, hpage, htime.trans (answered_now _ _ _), hdetail,
    fun c hc => (calm_violation _ _ _ _ _).out _ (answer_mem hc _ _), rfl⟩

/-! ## Requests of the device that time out (R453, R460) -/

section

variable (b : Base) {h : Nat} (w cause : Nat)

/-- A request that ended in error is counted in HST_DMA_ERR. -/
theorem get_dmaError : (b.dmaError h (some w) cause).get (Reg.hstDmaErr_COUNT h) = (b.count (Reg.hstDmaErr_COUNT h) 1).get (Reg.hstDmaErr_COUNT h) := by
  have hplace : (Reg.hstDmaErr_COUNT h).key % 4096 ∉ loggedOffsets := by
    have : (0x10080 + 4096 * h) % 4096 = 0x80 := by omega
    simp only [Reg.hstDmaErr_COUNT, Reg.hstDmaErr, this]
    decide
  simp only [Base.dmaError, Base.get, word_linkViolation_logged hplace, word_fault_logged hplace]
  rfl

theorem hasEvent_dmaError (s : State) (h w cause : Nat) : (s.onBase (·.dmaError h (some w) cause)).hasEvent (pgHST h) 1 = true := by
  rw [State.hasEvent, onBase_base]
  exact (calm_violation _ _ _ _ _).event _ _ (event_fault _ _ _ _)

theorem dmaError_newest (hh : h < b.nhosts) :
    ∃ x, ((b.dmaError h (some w) cause).logq (2 * h + 1)).waiting.getLast? = some x ∧ x.code = vLINK := by
  simp only [Base.dmaError]
  exact violation_newest _ (by rw [fault_nhosts]; exact hh) _ _ _

end

/-- A change of the common core leaves the rest. Stated for any change: a concrete one would be unfolded in the comparison. -/
theorem onBase_frame (s : State) (f : Base → Base) : s.onBase f = { s with base := (s.onBase f).base } := rfl

/-- READBACK and log writes have nothing else to end. -/
theorem timeoutRow_error {s : State} {h : Nat} {who : Requester} (hup : (s.base.link h).up = true) (hwho : who = .readback ∨ who = .log) :
    ∃ w, s.timeoutRow h who = s.onBase (·.dmaError h (some w) 3) := by
  simp only [State.timeoutRow, hup, Bool.not_true, Bool.false_eq_true, if_false]
  rcases hwho with rfl | rfl
  · exact ⟨2, rfl⟩
  · exact ⟨4, rfl⟩

theorem completionTimeout_error (s : State) (h : Fin 4) (who : Requester) (hup : (s.base.link h).up = true) (hh : (h : Nat) < s.base.nhosts)
    (hwho : who = .readback ∨ who = .log) :
    ∃ t x, exec (.completionTimeout h who) s = .next t ∧ s.counted t (Reg.hstDmaErr_COUNT h) 1 ∧
      t.lastViolation h = some x ∧ x.code = vLINK ∧ t.hasEvent (pgHST h) 1 = true ∧ t = { s with base := t.base } := by
  obtain ⟨w, hrow⟩ := timeoutRow_error hup hwho
  obtain ⟨x, hlast, hcode⟩ := dmaError_newest s.base w 3 hh
  exact ⟨_, x, congrArg Host.Outcome.next hrow, counted_count rfl rfl (get_dmaError s.base w 3), hlast, hcode, hasEvent_dmaError s h w 3, onBase_frame s _⟩

/-- A timed-out request of a ring, an UPLOAD or a page-in ends as its command does with a reply that failed. -/
theorem completionTimeout_reply (s : State) (h : Fin 4) (hup : (s.base.link h).up = true) :
    (∀ (r : Fin 16), exec (.completionTimeout h (.fetch r)) s = exec (.descriptorFetch h r (.fail 3)) s) ∧
    (∀ (r : Fin 16) (n : BitVec 32), exec (.completionTimeout h (.upload r n)) s = exec (.uploadDone h r n (.fail 3)) s) ∧
    (∀ g, g / 2 ^ 21 = (h : Nat) + 1 → exec (.completionTimeout h (.spill g)) s = exec (.pageIn g (.fail 3)) s) := by
  have hrow (who : Requester) : exec (.completionTimeout h who) s = .next (s.timeoutRow h who) := rfl
  simp only [hrow, State.timeoutRow, hup, Bool.not_true, Bool.false_eq_true, if_false]
  refine ⟨fun _ => rfl, fun _ _ => rfl, fun g hg => ?_⟩
  rw [if_pos hg]
  rfl

/-! ## Checked reads (R289, R293) -/

/-- Two states that differ in what a checked read records: the bytes read, the retirements it starts, the admission unit and the common core. -/
def CheckOnly (s t : State) : Prop :=
  t = { s with dome := { s.dome with reads := t.dome.reads, lent := t.dome.lent, retire := t.dome.retire }, adm := t.adm, base := t.base }

namespace CheckOnly

variable {s t u : State}

theorem refl (s : State) : CheckOnly s s := rfl

theorem trans (h1 : CheckOnly s t) (h2 : CheckOnly t u) : CheckOnly s u := by
  unfold CheckOnly at *; rw [h2, h1]

theorem onBase (s : State) (f : Base → Base) : CheckOnly s (s.onBase f) := rfl

theorem mem (h : CheckOnly s t) : t.dome.mem = s.dome.mem := by rw [h]

theorem scenes (h : CheckOnly s t) : t.scenes = s.scenes := by rw [h]

end CheckOnly

theorem checkOnly_request (s : State) (rid tag units : Nat) : CheckOnly s (s.request rid tag units) := by
  unfold State.request
  split <;> rfl

theorem checkOnly_noteWord (reader : Nat) (e : Ecc) (s : State) (w : Nat) : CheckOnly s (State.noteWord reader e s w) := by
  unfold State.noteWord
  dsimp only
  split
  · split
    · exact .onBase _ _
    · exact (CheckOnly.onBase _ _).trans (.onBase _ _)
  · split
    · exact .onBase _ _
    · exact .refl s

/-- A frame is retired by lending a spare page and asking for leave. -/
theorem checkOnly_startRetire (s : State) (page cause : Nat) (ue : List Nat) : CheckOnly s (s.startRetire page cause ue) := by
  unfold State.startRetire
  extract_lets f _ spare d s1 s2
  clear_value spare
  have hlent : CheckOnly s s1 := by cases spare <;> rfl
  clear_value s1
  have hraised : CheckOnly s s2 := by
    simp only [s2]
    split
    · exact hlent.trans (.onBase _ _)
    · exact hlent
  split
  · rfl
  · exact hraised.trans (checkOnly_request s2 _ _ _)

theorem checkOnly_checkWord (reader : Nat) (e : Ecc) (s : State) (w : Nat) : CheckOnly s (State.checkWord reader e s w) := by
  unfold State.checkWord
  dsimp only
  split
  · exact (checkOnly_noteWord reader e s w).trans (checkOnly_startRetire _ _ _ _)
  · exact checkOnly_noteWord reader e s w

theorem checkOnly_checkRead (s : State) (reader : Nat) (e : Ecc) (rs : List (Nat × Nat)) : CheckOnly s (s.checkRead reader e rs) :=
  List.foldlRecOn (motive := CheckOnly s) _ _ rfl fun x hx w _ => hx.trans (checkOnly_checkWord reader e x w)

/-- A use of granules writes no byte (R284). -/
theorem mem_touch (d : Dome) (gs : List Nat) : (d.touch gs).mem = d.mem := by
  refine List.foldlRecOn (motive := fun x : Dome => x.mem = d.mem) gs _ rfl fun x hx g _ => ?_
  dsimp only
  split <;> exact hx

/-! ## Poisoned words (R290, R291) -/

theorem mem_setInsert_of_mem {l : List Nat} {w : Nat} (k : Nat) (hw : w ∈ l) : w ∈ setInsert l k := by
  induction l with
  | nil => exact absurd hw List.not_mem_nil
  | cons j r ih =>
    simp only [setInsert]
    split
    · exact List.mem_cons_of_mem _ hw
    · split
      · exact hw
      · exact (List.mem_cons.mp hw).elim (fun e => e ▸ List.mem_cons_self) fun hr => List.mem_cons_of_mem _ (ih hr)

theorem mem_foldl_setInsert {l ws : List Nat} {w : Nat} (hw : w ∈ l ∨ w ∈ ws) : w ∈ ws.foldl setInsert l := by
  induction ws generalizing l with
  | nil => exact hw.resolve_right List.not_mem_nil
  | cons k r ih =>
    refine ih ?_
    rcases hw with hl | hk
    · exact .inl (mem_setInsert_of_mem k hl)
    · rcases List.mem_cons.mp hk with rfl | hr
      · exact .inl (mem_setInsert l w)
      · exact .inr hr

/-- A report of poison is a fault, an event and a violation of the holder. -/
theorem reportPoison_frame (s : State) (w : Nat) : (s.reportPoison w).dome = s.dome ∧ (s.reportPoison w).base.nhosts = s.base.nhosts := by
  simp only [State.reportPoison]
  split
  · rw [onBase_dome, onBase_base, violation_nhosts, raise_nhosts, fault_nhosts]
    exact ⟨rfl, rfl⟩
  · exact ⟨rfl, rfl⟩

theorem reportPoisons_frame (l : List Nat) (s : State) :
    (l.foldl State.reportPoison s).dome = s.dome ∧ (l.foldl State.reportPoison s).base.nhosts = s.base.nhosts :=
  List.foldlRecOn (motive := fun x : State => x.dome = s.dome ∧ x.base.nhosts = s.base.nhosts) l _ ⟨rfl, rfl⟩ fun x ⟨hdome, hnhosts⟩ w _ =>
    ⟨(reportPoison_frame x w).1.trans hdome, (reportPoison_frame x w).2.trans hnhosts⟩

/-- Scene memory once these words are poisoned. -/
def withPoison (d : Dome) (ws : List Nat) : Dome := { d with poison := (ws.filter (fun w => !d.poisoned w)).foldl setInsert d.poison }

theorem poisoned_withPoison (d : Dome) {ws : List Nat} {w : Nat} (hw : w ∈ ws) : (withPoison d ws).poisoned w = true := by
  rw [Dome.poisoned, List.contains_iff_mem]
  refine mem_foldl_setInsert ?_
  by_cases hold : d.poisoned w = true
  · exact .inl (List.contains_iff_mem.mp hold)
  · exact .inr (List.mem_filter.mpr ⟨hw, by simp only [hold, Bool.not_false]⟩)

/-- Poisoning adds to the poisoned words; its reports touch neither scene memory nor the hosts. -/
theorem poisonWords_frame (s : State) (ws : List Nat) :
    (s.poisonWords ws).dome = withPoison s.dome ws ∧ (s.poisonWords ws).base.nhosts = s.base.nhosts :=
  reportPoisons_frame _ { s with dome := withPoison s.dome ws }

/-! ## BAR2 reads (R300) -/

theorem counted_bar2Miss (s : State) : s.counted s.bar2Miss Reg.domBar2Miss_COUNT 1 := counted_count rfl rfl rfl

section

variable {s : State} {h off len : Nat} (ecc : Ecc)

/-- Through a window that shows nothing a read returns all ones. -/
theorem bar2ReadRow_hidden (hw : s.windowObject h (off / 2 ^ 25 % 8) = none) :
    s.bar2ReadRow h off len ecc = s.bar2Miss.onBase (·.emit (.bar2Data h (List.replicate len 0xFF) false)) := by
  rw [State.bar2ReadRow, hw]

/-- The state after a read of n object bytes from o on, sent as data. -/
def objectRead (s : State) (h o n : Nat) (gs : List Nat) (ecc : Ecc) : State :=
  (s.checkRead 5 ecc (objRanges gs o n)).onBase (·.emit (.bar2Data h (s.dome.objBytes gs o n) (s.dome.rangeBad ecc (objRanges gs o n))))

theorem checkOnly_objectRead (s : State) (h o n : Nat) (gs : List Nat) : CheckOnly s (objectRead s h o n gs ecc) :=
  (checkOnly_checkRead s 5 ecc _).trans (.onBase _ _)

theorem bar2ReadRow_shown {gs : List Nat} {size : Nat} {wr : Bool} (hw : s.windowObject h (off / 2 ^ 25 % 8) = some (gs, size, wr))
    (hsize : s.windowOff h off + len ≤ size) (hspill : (granRange gs (s.windowOff h off) len).filter isSpillId = []) :
    s.bar2ReadRow h off len ecc = { objectRead s h (s.windowOff h off) len gs ecc with
      dome := (objectRead s h (s.windowOff h off) len gs ecc).dome.touch (granRange gs (s.windowOff h off) len) } := by
  simp only [State.bar2ReadRow, hw, if_neg (Nat.not_lt.mpr hsize), hspill, List.isEmpty_nil, Bool.not_true, Bool.false_eq_true, if_false]
  rfl

end

theorem bar2Read_hidden (s : State) (h : Fin 4) (off : BitVec 28) (len : Nat) (ecc : Ecc) (hw : s.windowObject h (off.toNat / 2 ^ 25 % 8) = none) :
    ∃ t, exec (.bar2Read h off len ecc) s = .next t ∧ s.counted t Reg.domBar2Miss_COUNT 1 ∧
      t.base.out = .bar2Data h (List.replicate len 0xFF) false :: s.base.out ∧ t = { s with base := t.base } :=
  ⟨_, congrArg Host.Outcome.next (bar2ReadRow_hidden ecc hw), counted_bar2Miss s, rfl, rfl⟩

theorem bar2Read_shown (s : State) (h : Fin 4) (off : BitVec 28) (len : Nat) (ecc : Ecc) (gs : List Nat) (size : Nat) (wr : Bool)
    (hw : s.windowObject h (off.toNat / 2 ^ 25 % 8) = some (gs, size, wr)) (hsize : s.windowOff h off.toNat + len ≤ size)
    (hspill : (granRange gs (s.windowOff h off.toNat) len).filter isSpillId = []) :
    ∃ t, exec (.bar2Read h off len ecc) s = .next t ∧
      t.base.out.head? = some (.bar2Data h (s.dome.objBytes gs (s.windowOff h off.toNat) len)
        (s.dome.rangeBad ecc (objRanges gs (s.windowOff h off.toNat) len))) ∧ t.dome.mem = s.dome.mem ∧ t.scenes = s.scenes := by
  have hread := checkOnly_objectRead ecc s h (s.windowOff h off.toNat) len gs
  exact ⟨_, congrArg Host.Outcome.next (bar2ReadRow_shown ecc hw hsize hspill), rfl, (mem_touch _ _).trans hread.mem, hread.scenes⟩

/-! ## BAR2 writes (R298, Table 16.5) -/

section

variable {s : State} {h off : Nat} {bs : List Byte} (poisoned : Bool)

/-- A write that the window does not let into an upload, or not wholly, is a miss. -/
theorem bar2Store_miss
    (hw : (s.windowObject h (off / 2 ^ 25 % 8)).all (fun o => !o.2.2 || decide (o.2.1 < s.windowOff h off + bs.length)) = true) :
    s.bar2Store h off bs poisoned = s.bar2Miss := by
  unfold State.bar2Store
  cases hobj : s.windowObject h (off / 2 ^ 25 % 8) with
  | none => rfl
  | some o =>
    rw [hobj, Option.all_some] at hw
    exact if_pos hw

theorem bar2Store_shown {gs : List Nat} {size : Nat} (hw : s.windowObject h (off / 2 ^ 25 % 8) = some (gs, size, true))
    (hsize : s.windowOff h off + bs.length ≤ size) (hspill : (granRange gs (s.windowOff h off) bs.length).filter isSpillId = []) :
    s.bar2Store h off bs poisoned =
      if poisoned then s.poisonWords (wordsOf (objRanges gs (s.windowOff h off) bs.length))
      else { s with dome := (s.dome.objWrite gs (s.windowOff h off) bs).touch (granRange gs (s.windowOff h off) bs.length) } := by
  simp only [State.bar2Store, hw, Nat.not_lt.mpr hsize, decide_false, Bool.not_true, Bool.or_self, hspill, List.isEmpty_nil,
    Bool.false_eq_true, if_false]

end

/-- A poisoned write is logged as a LINK violation of its host. -/
theorem poisonedWrite_newest (b : Base) {h : Nat} (hh : h < b.nhosts) :
    ∃ x, ((b.poisonedWrite h).logq (2 * h + 1)).waiting.getLast? = some x ∧ x.code = vLINK :=
  violation_newest { b with fresh := b.fresh + 12 } hh _ _ _

theorem get_poisonedWrite (b : Base) (h : Nat) : (b.poisonedWrite h).get Reg.domBar2Miss_COUNT = b.get Reg.domBar2Miss_COUNT := by
  simp only [Base.poisonedWrite, Base.get, word_linkViolation_logged (k := Reg.domBar2Miss_COUNT.key) (by decide)]
  rfl

theorem bar2Write_stored (s : State) (h : Fin 4) (off : BitVec 28) (data : List Byte) (gs : List Nat) (size : Nat)
    (hw : s.windowObject h (off.toNat / 2 ^ 25 % 8) = some (gs, size, true)) (hsize : s.windowOff h off.toNat + data.length ≤ size)
    (hspill : (granRange gs (s.windowOff h off.toNat) data.length).filter isSpillId = []) :
    exec (.bar2Write h off data false) s = .next { s with dome :=
      (s.dome.objWrite gs (s.windowOff h off.toNat) data).touch (granRange gs (s.windowOff h off.toNat) data.length) } :=
  congrArg Host.Outcome.next (bar2Store_shown false hw hsize hspill)

theorem bar2Write_poisoned (s : State) (h : Fin 4) (off : BitVec 28) (data : List Byte) (gs : List Nat) (size : Nat)
    (hw : s.windowObject h (off.toNat / 2 ^ 25 % 8) = some (gs, size, true)) (hsize : s.windowOff h off.toNat + data.length ≤ size)
    (hspill : (granRange gs (s.windowOff h off.toNat) data.length).filter isSpillId = []) :
    ∃ t, exec (.bar2Write h off data true) s = .next t ∧ t.dome.mem = s.dome.mem ∧
      (∀ w ∈ wordsOf (objRanges gs (s.windowOff h off.toNat) data.length), t.dome.poisoned w = true) ∧
      ((h : Nat) < s.base.nhosts → ∃ x, t.lastViolation h = some x ∧ x.code = vLINK) := by
  have hrow : s.bar2WriteRow h off.toNat data true =
      (s.poisonWords (wordsOf (objRanges gs (s.windowOff h off.toNat) data.length))).onBase (·.poisonedWrite h) := by
    rw [State.bar2WriteRow, bar2Store_shown true hw hsize hspill]
    rfl
  obtain ⟨hdome, hnhosts⟩ := poisonWords_frame s (wordsOf (objRanges gs (s.windowOff h off.toNat) data.length))
  refine ⟨_, congrArg Host.Outcome.next hrow, ?_, fun w hword => ?_, fun hh => poisonedWrite_newest _ (hh.trans_eq hnhosts.symm)⟩
  · rw [onBase_dome, hdome]
    rfl
  · rw [onBase_dome, hdome]
    exact poisoned_withPoison s.dome hword

theorem bar2Write_miss (s : State) (h : Fin 4) (off : BitVec 28) (data : List Byte) (poisoned : Bool)
    (hw : (s.windowObject h (off.toNat / 2 ^ 25 % 8)).all (fun o => !o.2.2 || decide (o.2.1 < s.windowOff h off.toNat + data.length)) = true) :
    ∃ t, exec (.bar2Write h off data poisoned) s = .next t ∧ s.counted t Reg.domBar2Miss_COUNT 1 ∧ t = { s with base := t.base } := by
  have hrow : s.bar2WriteRow h off.toNat data poisoned = if poisoned then s.bar2Miss.onBase (·.poisonedWrite h) else s.bar2Miss := by
    rw [State.bar2WriteRow, bar2Store_miss poisoned hw]
  cases poisoned with
  | false => exact ⟨_, congrArg Host.Outcome.next hrow, counted_bar2Miss s, rfl⟩
  | true => exact ⟨_, congrArg Host.Outcome.next hrow, counted_count rfl rfl (get_poisonedWrite _ _), rfl⟩

/-- Settles O39: each access through a window by what the window shows, each link error by its answer and its entry in the violation log. -/
theorem bar2AndLinkErrorsAreAnswered : Obligations.Bar2AndLinkErrorsAreAnswered :=
  ⟨bar2Read_hidden, bar2Read_shown,
    fun s h off data gs size hw hsize hspill =>
      ⟨bar2Write_stored s h off data gs size hw hsize hspill, bar2Write_poisoned s h off data gs size hw hsize hspill⟩,
    bar2Write_miss, tlpError_answered, completionTimeout_reply, completionTimeout_error⟩

end Sys2Proof.Proofs
